-- ==== Sys2Proof/Word.lean ====
section
/-! DEFINITION. The word of the part (R5, R6, R7) and its plainest field arithmetic. -/

namespace Sys2Proof

/-- A 36-bit word, the unit of every register, flit word and command packet (R5). -/
abbrev W36 := BitVec 36

/-- A die, D0 to D3 (R16). -/
abbrev Die := Fin 4

/-- Bits [lo + width - 1 : lo] of a word as a number (R6). -/
def bits {n : Nat} (w : BitVec n) (lo width : Nat) : Nat := (w.toNat >>> lo) % 2 ^ width

/-- Bit i of a word (R6). -/
def bit {n : Nat} (w : BitVec n) (i : Nat) : Bool := w.toNat.testBit i

/-- Word w with bits [lo + width - 1 : lo] replaced by v (R6); v is cut to the field's width. -/
def putBits {n : Nat} (w : BitVec n) (lo width v : Nat) : BitVec n :=
  let m : BitVec n := BitVec.ofNat n ((2 ^ width - 1) <<< lo)
  (w &&& ~~~m) ||| (BitVec.ofNat n ((v % 2 ^ width) <<< lo))

/-- Nonet i of a word (R7). -/
def nonet (w : W36) (i : Nat) : Nat := bits w (9 * i) 9

/-- A word from a number, cut to 36 bits. -/
abbrev word (v : Nat) : W36 := BitVec.ofNat 36 v

/-- A Boolean as a bit. -/
def ofBool (b : Bool) : Nat := if b then 1 else 0

/-- A number of `width` bits read as two's complement. -/
def signed (width v : Nat) : Int := if v % 2 ^ width < 2 ^ (width - 1) then (v % 2 ^ width : Nat) else (v % 2 ^ width : Nat) - (2 ^ width : Nat)

/-- The two's complement pattern of an integer in `width` bits. -/
def unsigned (width : Nat) (v : Int) : Nat := (v % (2 ^ width : Nat)).toNat

/-- v held between lo and hi. -/
def clampInt (lo hi v : Int) : Int := if v < lo then lo else if hi < v then hi else v

end Sys2Proof
end

