-- ==== Sys2Proof/Syntax.lean ====
section
/-! DEFINITION. The commands of the block: one constructor per row of spec/opcode_table.json. The table gives no bits; the
operands are what the row's rule needs from outside. -/

namespace Sys2Proof

/-- The supplies monitored over the whole device (R532, R535). -/
inductive Supply where
  | vccint | vccaux | vccaPll
deriving DecidableEq, Repr

/-- A memory with a remap table: a reservoir RAM, a core's P, X or Y memory, a bank's pattern RAM, a macro of a die's matching
store or of a channel's counter cache (R77, R497). -/
inductive MemName where
  | ram (d : Die) (n : Fin 2048)
  | oboe (d : Die) (n : Fin 64) (m : Fin 3)
  | pattern (d : Die) (b : Fin 2)
  | bellows (d : Die) (n : BitVec 16)
  | cache (d : Die) (ch : Fin 2) (n : BitVec 16)
deriving DecidableEq, Repr

/-- A word that the memory self-test found failing (R78, R158). -/
structure FailWord where
  mem : MemName
  addr : BitVec 16
deriving DecidableEq, Repr

/-- A side of a region or die: 0 north, 1 east, 2 south, 3 west (R125, R140). -/
abbrev Side := Fin 4

/-- An edge of one of a die's clocks: global clock 0 to 23, or synthesiser 0 to 7 as 24 to 31 (R52, R112, R385, R426). -/
structure ClockEdge where
  src : Fin 32
  rising : Bool
deriving DecidableEq, Repr

/-- What a reservoir RAM port sees at a moment: no active edge of its clock, or one at which EN = 0, at which its selectors in the
fabric drive it (R101), or at which EN = 1 and the values given here do (R59). -/
inductive PortDrive where
  | still
  | idle
  | fabric
  | given (we : BitVec 4) (addr : BitVec 13) (din : W36)
deriving DecidableEq, Repr

/-- What a scan of the JTAG chain gives the TAP of a die: its instruction, and the bits shifted into the data register that this selects,
bit 0 first (R18, R610, R613). -/
structure TapScan where
  die : Die
  ir : BitVec 6
  dr : BitVec 294
deriving DecidableEq, Repr

/-- A scan of the JTAG chain that gives one die's TAP a row's instruction: the die, and what the scan gives the others (R18). -/
structure ChainScan where
  die : Die
  rest : List TapScan
deriving DecidableEq, Repr

/-- A scan that gives a die's TAP EXTEST, with the bits shifted into its boundary register (R615). -/
structure ExtestScan where
  scan : ChainScan
  v : BitVec 294
deriving DecidableEq, Repr

/-- An edge of a gate's read clock at the gate: whether RD = 1 is given, or the fabric drives RD (R121, R125). -/
structure GateEdge where
  gate : Fin 32
  given : Bool
deriving DecidableEq, Repr

/-- Where a fence notice arrives, die and inner edge, and the die whose side it concerns (R239). -/
structure NoticeAt where
  die : Die
  inner : Fin 2
  src : Die
deriving DecidableEq, Repr

/-- The octets of an SVC transaction: whole command words, and the octets of a word cut short (R566). -/
structure SvcOctets where
  words : List W36
  cut : List (BitVec 8)
deriving DecidableEq, Repr

/-- A frame of the position agreement between dies, as its 256 bits (R368). -/
abbrev PosFrame := BitVec 256

/-- A client word presented to an Ethernet MAC (R423, R438). -/
structure ClientWord where
  data : BitVec 512
  sop : Bool
  eop : Bool
  empty : BitVec 6
  err : Bool
  tsReq : BitVec 2
  tsOff : BitVec 8
  tsTag : BitVec 8
deriving DecidableEq, Repr

/-- A Karn frame: its control block, the blocks of its valid slots, and the GCM tag carried when encrypted (R450). -/
structure KarnFrame where
  ctrl : BitVec 64
  slots : List (BitVec 256)
  tag : BitVec 128
deriving DecidableEq, Repr

/-- A command from outside the block: one constructor per row of spec/opcode_table.json, in the table's order. -/
inductive Instr where
  /-- SUPPLY_FALL (R155): A monitored supply (VCCINT, VCCAUX, VCCA_PLL) falls below its threshold; all outputs go high impedance and the device enters OFF. -/
  | supplyFall (d : Die) (rail : Supply)
  /-- SUPPLIES_VALID (R155): All supplies become valid while OFF and the device enters POR. -/
  | suppliesValid (seqBroken : Bool)
  /-- PORST_N_LOW (R155): PORST_N is driven low in any state except OFF and the device enters POR. -/
  | porstNLow
  /-- PORST_N_HIGH (R156): PORST_N rises; MODE[2:0] is sampled and the POR sequence starts on every die. -/
  | porstNHigh (mode : BitVec 3)
  /-- POR_SEQUENCE_COMPLETE (R157): The POR sequence completes: fuses have been read, the Drones start, registers take reset values and SELFTEST begins. -/
  | porSequenceComplete
  /-- SELFTEST_COMPLETE (R158): Self-test ends on all dies; the device enters BLANK if every test passed, otherwise SAFE_TALK. -/
  | selftestComplete (r0 r1 r2 r3 : W36) (bad : List FailWord)
  /-- VTT_XCV_FALL (R535): VTT_XCV falls below its threshold and every transceiver quad of the die counts as OFF. -/
  | vttXcvFall (d : Die)
  /-- VCCIO_B_FALL (R535): A bank's VCCIO_B falls below its threshold; its pins go high impedance and its latch is dropped. -/
  | vccioBFall (d : Die) (b : Fin 2)
  /-- VDDQ_DDR_FALL (R535): VDDQ_DDR falls below its threshold and both DDR5 channels of the die enter FAILED. -/
  | vddqDdrFall (d : Die)
  /-- BOOT_START (R163): In BLANK with a flash or Karn MODE, the part reads both slot headers and starts loading the preferred slot. -/
  | bootStart
  /-- IMAGE_WORD (R679): One image word is taken by the loader; every verify or write-pass check completed by that word is decided. -/
  | imageWord (ld : Option Die)
  /-- LOAD_SYNTH_LOCKED (R179): Every synthesiser used by an enabled global clock locks; DONE_N is released and the device enters RELEASING. -/
  | loadSynthLocked
  /-- LOAD_CLOCK_TIMEOUT (R179): A synthesiser has not locked 1 ms after the settings enabled it; the attempt fails with cause CLOCK. -/
  | loadClockTimeout
  /-- BACKOFF_EXPIRE (R164): The back-off wait ends and the next attempt starts from the other slot. -/
  | backoffExpire
  /-- DONE_N_HIGH (R184): DONE_N is sampled high on 16 consecutive oscillator cycles; with DONE_SRC 0b00 the done condition is met. -/
  | doneNHigh
  /-- DONE_WAIT_LONG (R185): The wait for the done condition exceeds DONE_WARN milliseconds and is logged once. -/
  | doneWaitLong
  /-- DONE_LOW (R186): DONE_N falls while the device is in USER and the fall is logged. -/
  | doneLow
  /-- RELEASE_STAGE_TIMER (R187): STAGE_DELAY elapses and the next step of the device-level staged release is taken. -/
  | releaseStageTimer
  /-- REGION_STAGE_TIMER (R149): STAGE_DELAY elapses and the next step of a region's staged release is taken, opening the collar at step 4 where allowed. -/
  | regionStageTimer (d : Die) (r : Fin 16)
  /-- REGION_FAULT (R130): A configuration frame of a region fails its check; the collar closes and the region enters FAULTED. -/
  | regionFault (d : Die) (r : Fin 16) (frame : BitVec 25)
  /-- REGION_REPAIRED (R130): A rewrite of the failing frame from its source completes and verifies; the region enters ISOLATED. -/
  | regionRepaired (d : Die) (r : Fin 16)
  /-- LUTRAM_CHECK (R58): The LUT RAM checker finds an error; it is logged and recorded in CFG_LUTRAM_STATUS. -/
  | lutramCheck (d : Die) (cx cy : Fin 192) (cell : Fin 64)
  /-- RAM_PORT_ACCESS (R61): A reservoir RAM port with EN = 1 reads the addressed location and writes its enabled nonets. -/
  | ramPortAccess (d : Die) (ram : Fin 2048) (a b : PortDrive)
  /-- CLR (R73): Port A sees CLR = 1 with EN = 1; every word of the RAM becomes invalid at that edge. -/
  | clrRam (d : Die) (ram : Fin 2048) (b : PortDrive)
  /-- RAM_CLEAR_SWEEP_DONE (R75): The background clear of a reservoir RAM completes. -/
  | ramClearSweepDone (d : Die) (ram : Fin 2048)
  /-- CFG_RAM_CLEAR (R87): A write with GO = 1 clears the named RAM or all RAMs of an ISOLATED region, or is refused. -/
  | cfgRamClear (d : Die) (v : W36)
  /-- RAM_CLEAR_DONE (R87): A register-started RAM clear completes and BUSY falls. -/
  | ramClearDone (d : Die)
  /-- GATE_WRITE (R121): A handshake gate's write half stores WDATA, or discards it when FULL = 1. -/
  | gateWrite (d : Die) (r : Fin 16) (side : Side) (g : Fin 32) (wdata : Option W36)
  /-- GATE_READ (R121): A handshake gate's read half removes the oldest entry. -/
  | gateRead (d : Die) (r : Fin 16) (side : Side) (g : GateEdge)
  /-- GATE_ENTRY_VISIBLE (R122): A written entry crosses the gate and clears EMPTY at the read side. -/
  | gateEntryVisible (d : Die) (r : Fin 16) (side : Side) (g : Fin 32)
  /-- GATE_SLOT_FREED (R122): A removed entry's slot becomes free at the write side. -/
  | gateSlotFreed (d : Die) (r : Fin 16) (side : Side) (g : Fin 32)
  /-- GCLK_SOURCE_CHANGE (R111): A write of CKM_GCLK_n changes a global clock's source and starts its divider ramp. -/
  | gclkSourceChange (d : Die) (n : Fin 24) (v : W36)
  /-- CLOCK_RAMP_STEP (R556): One microsecond of a divider ramp elapses and the divider moves to its next step. -/
  | clockRampStep (d : Die) (clk : Fin 128)
  /-- FLIT_INJECT (R201): A local port injects a ready flit into its productive port. -/
  | flitInject (router : Fin 256) (port : Fin 4)
  /-- FLIT_ARRIVE (R198): A flit arrives at a router and is assigned an output port, deflected or ejected. -/
  | flitArrive (router : Fin 256)
  /-- FLIT_AGE_TICK (R196): Sixteen nc elapse and a flit's age increases by one. -/
  | flitAgeTick (flight : Nat)
  /-- REORDER_DELIVER (R205): A flit leaves the reorder buffer to its endpoint in stream order, with a confirmation where due. -/
  | reorderDeliver (router : Fin 256) (port : Fin 4)
  /-- NOC_HOLE_EXPIRED (R210): A stream entry has been missing its expected flit for EVICT_QUIET; held flits are discarded and the entry evicted. -/
  | nocHoleExpired (router : Fin 256) (port : Fin 4) (entry : Nat)
  /-- WRITE_ACK (R215): A WRITE_ACK arrives and confirms a sent packet. -/
  | writeAck (router : Fin 256) (port : Fin 4)
  /-- NOC_RETRY_TIMEOUT (R216): A packet's confirmation timer expires and the packet is resent or reported failed. -/
  | nocRetryTimeout (router : Fin 256) (port : Fin 4) (packet : Nat)
  /-- WAKE_NACK (R219): A WAKE_NACK answer arrives at the sending interface. -/
  | wakeNack (router : Fin 256) (port : Fin 4)
  /-- WAKE_RESEND (R219): The wake hint of a refusal has passed and the refused packet and its successors are resent. -/
  | wakeResend (router : Fin 256) (port : Fin 4) (packet : Nat)
  /-- NOT_READY (R220): A NOT_READY answer arrives; the packet and its successors are reported failed. -/
  | notReady (router : Fin 256) (port : Fin 4)
  /-- UNREACHABLE (R221): An UNREACHABLE answer arrives and is handled as NOT_READY. -/
  | unreachable (router : Fin 256) (port : Fin 4)
  /-- NOC_PORT_WRITE (R225): A write of NOC_PORT_n_p changes a port's window or enable once its unconfirmed flits settle. -/
  | nocPortWrite (d : Die) (n : Fin 64) (p : Fin 4) (v : W36)
  /-- REMOTE_RST_RISE (R243): RST from the other side rises or this die enters reset; the bundle discards frames and enters RESET_WAIT. -/
  | remoteRstRise (d : Die) (e : Fin 2)
  /-- RST_BOTH_LOW (R243): RST is low on both sides and the bundle enters PATTERN with ATTEMPT 1. -/
  | rstBothLow (d : Die) (e : Fin 2) (k : Fin 8)
  /-- ADVERT_TIMER (R240): The advert interval elapses and the side sends an advert for the bundle. -/
  | advertTimer (d : Die) (e : Fin 2) (k : Fin 8)
  /-- ADVERT (R243): A good advert arrives and drives agreement, restart, fencing or retraining under the bundle state table. -/
  | advert (d : Die) (e : Fin 2) (w0 w1 : W36) (crc : BitVec 8)
  /-- PATTERN_DONE (R243): Ten microseconds of PRBS-15 have been checked; RX_MASK, CLK_OK and CAP are fixed and NEGOTIATE starts. -/
  | patternDone (d : Die) (e : Fin 2) (k : Fin 8) (mask : BitVec 40) (clkOk : Bool)
  /-- NEG_TIMEOUT (R243): No agreement is reached within NEG_TIMEOUT and the attempt fails. -/
  | negTimeout (d : Die) (e : Fin 2) (k : Fin 8)
  /-- ALIGN_TEST_DONE (R243): The ALIGN PRBS test ends; the bundle becomes ACTIVE or the attempt fails. -/
  | alignTestDone (d : Die) (e : Fin 2) (k : Fin 8) (errors : Nat)
  /-- RX_OK_TIMEOUT (R243): No RX_OK arrives from the other side within 20 µs and the attempt fails. -/
  | rxOkTimeout (d : Die) (e : Fin 2) (k : Fin 8)
  /-- CRELINK_FRAME (R234): A Crelink frame is received and unpacked; a bad CRC-8 or FCOUNT is counted. -/
  | crelinkFrame (d : Die) (e : Fin 2) (k : Fin 8) (frame : BitVec 760)
  /-- RETRAIN (R243): A write of CRL_BUNDLE_CTRL.RETRAIN restarts training of the bundle. -/
  | retrain (d : Die) (e : Fin 2) (k : Fin 8) (v : W36)
  /-- REWIDEN (R243): A write of CRL_BUNDLE_CTRL.REWIDEN raises the floor to FULL and retrains. -/
  | rewiden (d : Die) (e : Fin 2) (k : Fin 8) (v : W36)
  /-- FENCE (R243): A write of CRL_BUNDLE_CTRL.FENCE puts the bundle in FENCED and advertises it. -/
  | fence (d : Die) (e : Fin 2) (k : Fin 8) (v : W36)
  /-- FENCE_NOTICE (R239): A fence notice arrives on MGT_D and is applied to routing and relayed. -/
  | fenceNotice (d : NoticeAt) (edge : Fin 4) (k : Fin 8) (live : Bool)
  /-- HALT_INPUT (R230): HALT_A or HALT_B rises on an inner edge; the die relays the halt and enters SECURE_HALT. -/
  | haltInput (d : Die)
  /-- CORE_RUN (R245): OBE_CTRL.RUN = 1 lets a core in RESET start at OBE_START once the die is past stage 3. -/
  | coreRun (d : Die) (n : Fin 64)
  /-- CORE_STOP (R245): OBE_CTRL.RUN written 0 sends the core to RESET and aborts any held task with cause RESET. -/
  | coreStop (d : Die) (n : Fin 64)
  /-- CLR_P (R245): A write of OBE_CTRL.CLR_P clears all valid bits of P memory of a core in RESET. -/
  | clrP (d : Die) (n : Fin 64)
  /-- CLR_X (R245): A write of OBE_CTRL.CLR_X clears all valid bits of X memory of a core in RESET. -/
  | clrX (d : Die) (n : Fin 64)
  /-- CLR_Y (R245): A write of OBE_CTRL.CLR_Y clears all valid bits of Y memory of a core in RESET. -/
  | clrY (d : Die) (n : Fin 64)
  /-- CORE_CLEAR_DONE (R498): A core memory clear completes after 32 oc and CLR_BUSY falls. -/
  | coreClearDone (d : Die) (n : Fin 64)
  /-- MOVE (R284): Class-M instruction that performs only its parallel moves. -/
  | move (d : Die) (n : Fin 64)
  /-- MPY (R284): Multiplies S1 by S2 into ACd. -/
  | mpy (d : Die) (n : Fin 64)
  /-- MAC (R284): Adds or subtracts the product of S1 and S2 to ACd. -/
  | mac (d : Die) (n : Fin 64)
  /-- DMPY (R284): Two products into AC0 and AC1 in one oc. -/
  | dmpy (d : Die) (n : Fin 64)
  /-- DMAC (R284): Two multiply-accumulates into AC0 and AC1 in one oc. -/
  | dmac (d : Die) (n : Fin 64)
  /-- SUM (R284): ACd := S1 + S2. -/
  | sum (d : Die) (n : Fin 64)
  /-- DIF (R284): ACd := S1 - S2. -/
  | dif (d : Die) (n : Fin 64)
  /-- ADD (R284): ACd := ACd + S1. -/
  | add (d : Die) (n : Fin 64)
  /-- SUB (R284): ACd := ACd - S1. -/
  | sub (d : Die) (n : Fin 64)
  /-- ADDA (R284): ACd := ACd + the other accumulator. -/
  | adda (d : Die) (n : Fin 64)
  /-- SUBA (R284): ACd := ACd - the other accumulator. -/
  | suba (d : Die) (n : Fin 64)
  /-- TFR (R284): ACd := S1. -/
  | tfr (d : Die) (n : Fin 64)
  /-- CLR_ACC (R284): Class-M CLR: ACd := 0. -/
  | clrAcc (d : Die) (n : Fin 64)
  /-- NEG (R284): ACd := -ACd. -/
  | neg (d : Die) (n : Fin 64)
  /-- ABS (R284): ACd := |ACd|. -/
  | abs (d : Die) (n : Fin 64)
  /-- CMP (R284): Sets flags from ACd - S1 without changing ACd. -/
  | cmp (d : Die) (n : Fin 64)
  /-- AND (R284): ACd.H := ACd.H and S1. -/
  | andOp (d : Die) (n : Fin 64)
  /-- OR (R284): ACd.H := ACd.H or S1. -/
  | orOp (d : Die) (n : Fin 64)
  /-- XOR (R284): ACd.H := ACd.H xor S1. -/
  | xorOp (d : Die) (n : Fin 64)
  /-- MAXI (R259): Updates MXV and MXI when S1 exceeds MXV and advances IXC. -/
  | maxi (d : Die) (n : Fin 64)
  /-- MINI (R259): Updates MXV and MXI when S1 is below MXV and advances IXC. -/
  | mini (d : Die) (n : Fin 64)
  /-- NOP (R288): Class-C instruction with no effect. -/
  | nop (d : Die) (n : Fin 64)
  /-- RTS (R288): Returns from a call to the popped address with two delay slots. -/
  | rts (d : Die) (n : Fin 64)
  /-- RTI (R265): Pops PC and SR and resumes after every earlier instruction has passed WB. -/
  | rti (d : Die) (n : Fin 64)
  /-- WAITTASK (R245): The core waits for a task, announcing READY where due. -/
  | waittask (d : Die) (n : Fin 64)
  /-- EMIT (R272): Reads the emit area and passes one token to the task interface, ending the task when LAST = 1. -/
  | emit (d : Die) (n : Fin 64)
  /-- EMIT_TOKEN_SEND (R272): The task interface sends a held token as an EMIT packet to the die's Bellows. -/
  | emitTokenSend (d : Die) (n : Fin 64)
  /-- ABORT (R273): Ends the held task without a result and sends an ABORT to Bellows. -/
  | abort (d : Die) (n : Fin 64)
  /-- SLEEP (R245): The core stops issuing and enters SLEEP. -/
  | sleep (d : Die) (n : Fin 64)
  /-- SLEEP_WAKE (R245): A wake source resumes a sleeping core after its SLEEP. -/
  | sleepWake (d : Die) (n : Fin 64)
  /-- KICK (R269): Instruction that reloads the watchdog. -/
  | kick (d : Die) (n : Fin 64)
  /-- ENDDO (R288): Removes the innermost loop-stack entry and restores its LC. -/
  | enddo (d : Die) (n : Fin 64)
  /-- BEXR (R288): Sets BEX to 23. -/
  | bexr (d : Die) (n : Fin 64)
  /-- REP (R261): Repeats the next instruction n times from an immediate. -/
  | rep (d : Die) (n : Fin 64)
  /-- REP_LC (R261): Repeats the next instruction LC times. -/
  | repLc (d : Die) (n : Fin 64)
  /-- LOCK (R268): Makes the next n instructions a LOCK sequence. -/
  | lock (d : Die) (n : Fin 64)
  /-- SETIPL (R288): Sets SR.IPL to the given level. -/
  | setipl (d : Die) (n : Fin 64)
  /-- B (R290): Conditional direct branch with two delay slots. -/
  | branch (d : Die) (n : Fin 64)
  /-- CALL (R292): Conditional direct call pushing the return address and SR. -/
  | call (d : Die) (n : Fin 64)
  /-- B_APN (R290): Conditional branch to the address in APn. -/
  | bApn (d : Die) (n : Fin 64)
  /-- CALL_APN (R290): Conditional call to the address in APn. -/
  | callApn (d : Die) (n : Fin 64)
  /-- DO (R262): Starts a DO loop, pushing the loop stack and loading LC. -/
  | doLoop (d : Die) (n : Fin 64)
  /-- LDI (R296): Loads an immediate into a register. -/
  | ldi (d : Die) (n : Fin 64)
  /-- MOVR (R297): Moves one register to another. -/
  | movr (d : Die) (n : Fin 64)
  /-- MOVC (R298): Reads or writes the core's own OBE_ control register. -/
  | movc (d : Die) (n : Fin 64)
  /-- MEMORY_MOVE (R299): Class-L load or store with full addressing. -/
  | memoryMove (d : Die) (n : Fin 64)
  /-- MODA (R300): Updates APn by a signed modifier. -/
  | moda (d : Die) (n : Fin 64)
  /-- ASR (R301): Arithmetic right shift of ACd. -/
  | asr (d : Die) (n : Fin 64)
  /-- ASL (R301): Left shift of ACd. -/
  | asl (d : Die) (n : Fin 64)
  /-- NORM (R301): Normalises ACd by a register count. -/
  | norm (d : Die) (n : Fin 64)
  /-- SCALE (R301): Scales ACd right against a bound and a block exponent. -/
  | scale (d : Die) (n : Fin 64)
  /-- INTERRUPT_ACCEPT (R264): A pending enabled interrupt is accepted; PC and SR are pushed and the handler entered. -/
  | interruptAccept (d : Die) (n : Fin 64)
  /-- NMI_ENTRY (R266): An NMI cause is taken; SR.NMI and IPL 8 are set and vector 0 entered. -/
  | nmiEntry (d : Die) (n : Fin 64)
  /-- WATCHDOG_EXPIRE (R269): The core watchdog reaches zero, raises WDOG and reloads. -/
  | watchdogExpire (d : Die) (n : Fin 64)
  /-- WDOG_KICK (R269): A write of OBE_WDOG.KICK reloads the watchdog. -/
  | wdogKick (d : Die) (n : Fin 64) (v : W36)
  /-- CORE_TIMER_EXPIRE (R270): The core timer expires and raises interrupt source 5. -/
  | coreTimerExpire (d : Die) (n : Fin 64)
  /-- DOORBELL (R263): A write of OBE_INT_PEND.DOORBELL sets pending source 4. -/
  | doorbell (d : Die) (n : Fin 64) (v : W36)
  /-- DISPATCH (R271): DISPATCH parts arrive at an OBOE port; the task area is written and WAITTASK completes. -/
  | dispatch (d : Die) (n : Fin 64)
  /-- OBOE_READ_REQ (R250): A READ_REQ at an OBOE port reads core memory through the shared port. -/
  | oboeReadReq (d : Die) (n : Fin 64)
  /-- OBOE_WRITE_REQ (R250): A WRITE_REQ at an OBOE port writes core memory through the shared port. -/
  | oboeWriteReq (d : Die) (n : Fin 64)
  /-- INBOX_STREAM (R277): A STREAM flit at an OBOE port is written into the inbox ring, or discarded when disabled. -/
  | inboxStream (d : Die) (n : Fin 64)
  /-- DMA_START (R276): A write of OBE_DMA_c_CTRL.START begins a DMA transfer or sets ERR. -/
  | dmaStart (d : Die) (n : Fin 64) (c : Fin 4) (v : W36)
  /-- DMA_RESPONSE (R277): A READ_RESP or WRITE_ACK for a DMA channel arrives and is stored or counted. -/
  | dmaResponse (d : Die) (n : Fin 64)
  /-- TOKEN (R311): A TOKEN packet arrives at Bellows and is matched in the store. -/
  | token (d : Die)
  /-- DISPATCH_START (R314): Bellows takes the head task of a class and dispatches it to the least-loaded eligible worker. -/
  | dispatchStart (d : Die) (cls : Fin 16)
  /-- EMIT_PACKET (R333): An EMIT token arrives at Bellows; it is staged, judged stale or accepts the task's results. -/
  | emitPacket (d : Die)
  /-- EMIT_ABORT (R335): An ABORT EMIT arrives and fails its task with the given cause. -/
  | emitAbort (d : Die)
  /-- READY (R321): A READY EMIT arrives and the named worker becomes IDLE. -/
  | ready (d : Die)
  /-- BLW_TIMEOUT (R335): A task's TIMEOUT elapses; the task fails and the event is logged. -/
  | blwTimeout (d : Die) (task : Nat)
  /-- RELEASE_ITEM (R340): The window position at BASE holds a release or is failed; it is released and BASE advances. -/
  | releaseItem (d : Die) (flow : Fin 1024)
  /-- BLW_RESULT_POP (R343): A read of BLW_RESULT_POP returns and removes the head result item. -/
  | blwResultPop (d : Die)
  /-- FAIL_HEAD (R345): A write of FAIL_HEAD fails the item at BASE of a flow. -/
  | failHead (d : Die) (flow : Fin 1024) (v : W36)
  /-- BLW_FLOW_WRITE (R346): A write of BASE or EN of a flow takes effect only while the flow holds no item. -/
  | blwFlowWrite (d : Die) (flow : Fin 1024) (v : W36)
  /-- BLW_TPL_WRITE (R307): A write to a template takes effect only while the template has no state. -/
  | blwTplWrite (d : Die) (t : Fin 256) (isB : Bool) (v : W36)
  /-- BLW_WORKER_WRITE (R318): A write to a worker-table entry takes effect under the port and EN rules. -/
  | blwWorkerWrite (d : Die) (w : Fin 192) (v : W36)
  /-- BLW_FABPORT_WRITE (R324): A write of BLW_FABPORT_q.EN gives the port RAM's port B to the engine. -/
  | blwFabportWrite (d : Die) (q : Fin 128) (v : W36)
  /-- HIST_CLR (R351): A write of BLW_CTRL.HIST_CLR zeroes every wait histogram. -/
  | histClr (d : Die) (v : W36)
  /-- FAB_TX_SLOT (R327): The port engine finds a FULL transmit slot and sends its flit. -/
  | fabTxSlot (d : Die) (q : Fin 128)
  /-- FAB_RX_FLIT (R328): The port engine writes a delivered flit or a failure record into the receive ring. -/
  | fabRxFlit (d : Die) (q : Fin 128)
  /-- ACCEPTED_CHANGE (R355): An accepted change of an encoder input counts, rejects an illegal step or latches Z. -/
  | acceptedChange (dies : BitVec 4) (c : Fin 2) (a b z : Bool) (stamp : BitVec 64)
  /-- CHN_ENC_OPEN (R357): An encoder pair has shown only its fail-safe bias for 10 µs; the fault is set and logged. -/
  | chnEncOpen (d : Die) (c : Fin 2) (line : Fin 3)
  /-- CHN_ENC_SHORT (R357): Both lines of an encoder pair have sat at the same level for 10 µs; the fault is set and logged. -/
  | chnEncShort (d : Die) (c : Fin 2) (line : Fin 3)
  /-- ENCODER_FAULT_CLEAR (R357): A faulted pair has been driven normally for 10 µs and its fault bits clear. -/
  | encoderFaultClear (d : Die) (c : Fin 2) (line : Fin 3)
  /-- COAST_MAX_EXPIRE (R358): COAST_MAX ms elapse and a coasting position holds. -/
  | coastMaxExpire (d : Die) (c : Fin 2)
  /-- AGREEMENT_TICK (R367): At each 1,000 ns of device time every die snapshots positions and sends its POS_D frames. -/
  | agreementTick
  /-- POS_D_FRAME (R368): A POS_D frame arrives from a neighbour and is kept for voting and relay. -/
  | posDFrame (d : Die) (e : Fin 2) (frame : PosFrame)
  /-- LOADING_TIMEOUT (R372): No VALID neighbour frame arrives within 10 µs; the channel becomes VALID from 0. -/
  | loadingTimeout (d : Die) (c : Fin 2)
  /-- TIME_PULSE_SEND (R364): Device time mod 2^20 reaches 0 on the master and it drives TPULSE. -/
  | timePulseSend (d : Die)
  /-- TIME_PULSE_RECEIVE (R364): A TPULSE arrives; the die relays it and slews or steps its device time. -/
  | timePulseReceive (d : Die) (e : Fin 2) (masterTime : BitVec 64)
  /-- CHN_TIME_STEP (R366): A write of CHN_TIME_STEP on the master adds its value to device time and timestamps. -/
  | chnTimeStep (d : Die) (v : W36)
  /-- CHN_TIME_RATE (R366): A write of CHN_TIME_RATE sets the master's rate correction. -/
  | chnTimeRate (d : Die) (v : W36)
  /-- CHN_TIME_LO (R363): A read of CHN_TIME_LO returns device time and copies its upper bits into CHN_TIME_HI. -/
  | chnTimeLo (d : Die)
  /-- CHN_CH_CFG_WRITE (R371): A write of CHN_CH_c_CFG on D0 queues a CFG operation for all dies. -/
  | chnChCfgWrite (d : Die) (c : Fin 2) (v : W36)
  /-- PRESET_GO (R371): A write of CHN_CH_c_PRESET_HI.GO queues a preset for all dies. -/
  | presetGo (d : Die) (c : Fin 2) (v : W36)
  /-- CHN_POS_LO (R360): A read of CHN_CH_c_POS_LO returns the position and copies its upper bits. -/
  | chnPosLo (d : Die) (c : Fin 2)
  /-- CHN_ZLAT_LO (R356): A read of CHN_CH_c_ZLAT_LO returns the latched position, copies upper bits and SEEN, and clears SEEN. -/
  | chnZlatLo (d : Die) (c : Fin 2)
  /-- CUE_WR (R374): A cue word arrives through the edge signals and enters the serialiser's FIFO. -/
  | cueWr (d : Die) (k : Fin 48) (word : W36)
  /-- UIO_CUE_PUSH (R397): A write of UIO_CUE_PUSH_k is handled as a cue word. -/
  | uioCuePush (d : Die) (k : Fin 48) (v : W36)
  /-- PAT_WR (R376): A pattern RAM word is written through the edge signals. -/
  | patWr (d : Die) (b : Fin 2) (addr : BitVec 16) (data : W36)
  /-- UIO_PAT_DATA (R397): A write of UIO_PAT_DATA_b writes the pattern word at ADDR and advances ADDR. -/
  | uioPatData (d : Die) (b : Fin 2) (v : W36)
  /-- CUE_FIRE (R377): The position crosses a head entry's due position and its repetition starts on the serialiser. -/
  | cueFire (d : Die) (k : Fin 48)
  /-- CUE_PRE_WAKE (R381): The head entry comes within LEAD counts and a wake is sent to WAKE_DOM. -/
  | cuePreWake (d : Die) (k : Fin 48)
  /-- FLUSH (R382): A write of CHN_CUE_CFG_k.FLUSH empties the FIFO and returns the pin to IDLE. -/
  | flush (d : Die) (k : Fin 48) (v : W36)
  /-- SLIP (R388): A SLIP pulse moves a pair's word boundary one bit later. -/
  | slip (d : Die) (k : Fin 48)
  /-- PAD_RELEASE (R402): Command that returns a latched bank's pins to user mode. -/
  | padRelease (p : Fin 5)
  /-- BANK_CTRL_RELEASE (R402): A write of UIO_BANK_CTRL_b.RELEASE requests PAD_RELEASE. -/
  | bankCtrlRelease (d : Die) (b : Fin 2) (v : W36)
  /-- UIO_SHORT (R405): A pin's mismatches in a window reach SHORT_LIMIT; it is turned off and logged. -/
  | uioShort (d : Die) (b : Fin 2) (pin : Fin 48)
  /-- UIO_SHORT_CLEAR (R406): A write of 1 to a pin's bit in UIO_SHORT_LO_b or HI_b turns the pin on again. -/
  | uioShortClear (d : Die) (b : Fin 2) (hi : Bool) (v : W36)
  /-- PLL_LOCK (R414): A quad's LC PLL locks and its lane groups may leave DISABLED. -/
  | pllLock (d : Die) (q : Fin 8) (refHz : BitVec 32)
  /-- XCV_PLL_LOST (R414): An enabled PLL loses lock; PLL_LOST is set, logged and the lanes go DISABLED. -/
  | xcvPllLost (d : Die) (q : Fin 8)
  /-- DETECT_DONE (R430): A lane group's detection condition is met and it enters TRAIN. -/
  | detectDone (d : Die) (q : Fin 8) (l : Fin 4)
  /-- TRAINING_COMPLETE (R431): Training completes on every lane; polarity and order are applied and the group enters LOCK. -/
  | trainingComplete (d : Die) (q : Fin 8) (l : Fin 4) (inverted : BitVec 4) (order : BitVec 8) (lat : BitVec 10)
  /-- TRAIN_TIMEOUT (R430): TRAIN_TIMEOUT elapses and the bring-up attempt fails. -/
  | trainTimeout (d : Die) (q : Fin 8) (l : Fin 4)
  /-- LOCK_DONE (R430): Every lane has CDR, word lock and probe check; the group enters EXCHANGE. -/
  | lockDone (d : Die) (q : Fin 8) (l : Fin 4) (slips : BitVec 28) (probes : List (Fin 65 × Fin 65))
  /-- LOCK_TIMEOUT (R430): LOCK_TIMEOUT elapses in LOCK or EXCHANGE and the attempt fails. -/
  | lockTimeout (d : Die) (q : Fin 8) (l : Fin 4)
  /-- EXCHANGE_DONE (R430): The capability exchange completes and the group enters ACTIVE. -/
  | exchangeDone (d : Die) (q : Fin 8) (l : Fin 4) (peerDev : BitVec 11) (peerLink : BitVec 4) (enc : Bool) (keyId : BitVec 16) (assign : BitVec 11) (peerUnnumbered : Bool)
  /-- RETRY_WAIT_EXPIRE (R430): RETRY_WAIT elapses after a failure and the group returns to DETECT. -/
  | retryWaitExpire (d : Die) (q : Fin 8) (l : Fin 4)
  /-- XCV_LOCK_LOST (R430): A lane in ACTIVE loses CDR, word or block lock; the group returns to LOCK and it is logged. -/
  | xcvLockLost (d : Die) (q : Fin 8) (l : Fin 4)
  /-- XCV_RETRAIN (R430): A write of XCV_LANE_l_CTRL.RETRAIN restarts the group's bring-up from DETECT. -/
  | xcvRetrain (d : Die) (q : Fin 8) (l : Fin 4) (v : W36)
  /-- BITSLIP (R419): A write of BITSLIP moves the receive word boundary one line bit later. -/
  | bitslip (d : Die) (q : Fin 8) (l : Fin 4) (v : W36)
  /-- LANE_TX_WORD (R427): A lane word presented with TX_WR is stored in the transmit FIFO or discarded. -/
  | laneTxWord (d : Die) (q : Fin 8) (l : Fin 4) (word : BitVec 72)
  /-- LANE_RX_WORD (R427): A received lane word is presented to the fabric with RX_VALID. -/
  | laneRxWord (d : Die) (q : Fin 8) (l : Fin 4) (word : BitVec 80)
  /-- MAC_TX_WORD (R438): A client word with TX_VALID enters a MAC sub-port's transmit FIFO. -/
  | macTxWord (d : Die) (m : Fin 2) (sub : Fin 4) (word : ClientWord)
  /-- TX_TIMESTAMP (R442): A frame requesting a timestamp leaves and its two-step or one-step timestamp is produced. -/
  | txTimestamp (d : Die) (m : Fin 2) (sub : Fin 4)
  /-- MAC_RX_FRAME (R440): A received frame is presented to the fabric, consumed as PAUSE or dropped. -/
  | macRxFrame (d : Die) (m : Fin 2) (sub : Fin 4) (octets : List (BitVec 8)) (pcsBad : Bool) (fecFixed fecBad : Nat) (ago : BitVec 16)
  /-- KARN_FRAME (R452): A Karn link frame is received; its flits are buffered for injection, or it is discarded. -/
  | karnFrame (d : Die) (k : Fin 4) (frame : KarnFrame)
  /-- KARN_INGRESS_INJECT (R453): The ingress injects a buffered flit at the Karn router with its carried age. -/
  | karnIngressInject (d : Die) (k : Fin 4)
  /-- KEY_SWITCH (R464): A write of KRN_LINK_k_CFG.KEY_SWITCH makes the pending key active and inverts KEY_PHASE. -/
  | keySwitch (d : Die) (k : Fin 4) (v : W36)
  /-- KRN_DEVNUM_WRITE (R458): A write of KRN_DEVNUM.NUM sets the device number unless a link is ACTIVE or the die is not D0. -/
  | krnDevnumWrite (d : Die) (v : W36)
  /-- KRN_TIME_SEND (R461): Every 2^20 ns a device sends KRN_TIME over each link with TIME_TX = 1. -/
  | krnTimeSend
  /-- KRN_LOADED (R460): Message telling device 0 that a device has loaded; device 0 counts it or answers SYSTEM_DONE. -/
  | krnLoaded (d : Die) (k : Fin 4) (src : BitVec 11)
  /-- KRN_SYSTEM_DONE (R460): Message that meets the done condition of a device using DONE_SRC 0b01. -/
  | krnSystemDone (d : Die) (k : Fin 4)
  /-- KRN_BOOT_REQ (R459): Message requesting a word range of a slot image from a serving device. -/
  | krnBootReq (d : Die) (k : Fin 4) (slotB : Bool) (first : BitVec 28) (count : BitVec 8)
  /-- KRN_IMAGE_DATA (R459): Message carrying up to 248 image words to an unnumbered booting device. -/
  | krnImageData (d : Die) (k : Fin 4) (first : BitVec 28) (words : List W36)
  /-- KRN_TIME (R461): Message carrying device time; a disciplined device's master acts on the error. -/
  | krnTime (d : Die) (k : Fin 4) (time : BitVec 64)
  /-- KRN_POS (R462): Message carrying positions; a following channel reproduces the counts delayed by FOLLOW_DELAY. -/
  | krnPos (d : Die) (k : Fin 4) (chans : List (Fin 2 × BitVec 48 × BitVec 64 × BitVec 32))
  /-- KRN_POS_TIMEOUT (R462): No KRN_POS arrives for 5 µs and the follower channel behaves as FAULTED. -/
  | krnPosTimeout (d : Die) (c : Fin 2)
  /-- LINK_KEY (R463): OWNER command loading a Karn link's pending key and salt. -/
  | linkKey (p : Fin 5)
  /-- DDR_BRINGUP_STEP (R474): A timed step of a DDR5 controller's bring-up completes and the next begins. -/
  | ddrBringupStep (d : Die) (c : Fin 2)
  /-- RANK_TRAINING_DONE (R475): Training of one rank ends; a failure is spared, noted or fails the channel. -/
  | rankTrainingDone (d : Die) (c : Fin 2) (pass : Bool)
  /-- REINIT (R474): A write of DDR_CFG.REINIT restarts bring-up of a FAILED channel. -/
  | reinit (d : Die) (c : Fin 2) (v : W36)
  /-- DDR_READ_REQ (R476): A READ_REQ at a DDR5 home router is split into line accesses and queued. -/
  | ddrReadReq (d : Die) (c : Fin 2)
  /-- DDR_WRITE_REQ (R477): A WRITE_REQ is queued and acknowledged once all its accesses are accepted. -/
  | ddrWriteReq (d : Die) (c : Fin 2)
  /-- DDR_ACCESS_ISSUE (R478): A sub-channel issues its next chosen access and handles its result. -/
  | ddrAccessIssue (d : Die) (c : Fin 2) (sub : Fin 2) (badReads badTag badNode : Nat)
  /-- REFRESH_TIMER (R484): A refresh falls due and the controller refreshes a rank. -/
  | refreshTimer (d : Die) (c : Fin 2) (rank : Fin 4)
  /-- RETRAIN_TIMER (R485): Every 256 ms the controller retrains DQS timing of its ranks. -/
  | retrainTimer (d : Die) (c : Fin 2)
  /-- CA_PARITY_ALERT (R488): A command parity alert arrives and the controller reissues the failed commands. -/
  | caParityAlert (d : Die) (c : Fin 2) (sub : Fin 2) (alerts : Nat)
  /-- DDR_MIG_START (R490): A write of DDR_MIG_CTRL.START retires the named logical rank, starting a migration or recording NO_SPARE. -/
  | ddrMigStart (d : Die) (c : Fin 2) (v : W36)
  /-- MIGRATION_COPY (R491): MIG_GAP cycles elapse and the next line is copied to the spare rank. -/
  | migrationCopy (d : Die) (c : Fin 2) (badReads : Nat)
  /-- DDR_ERRQ (R489): A read of DDR_ERRQ returns and removes the oldest error record. -/
  | ddrErrq (d : Die) (c : Fin 2)
  /-- MAC_CHECK (R519): A delivered protected line's MAC check completes; a mismatch is an integrity failure. -/
  | macCheck (d : Die) (c : Fin 2)
  /-- INIT_WALK_LINE (R528): One line of a channel's initialisation walk is written. -/
  | initWalkLine (d : Die) (c : Fin 2)
  /-- REKEY (R529): OWNER command that draws a new seed and starts the re-encryption walk of a channel. -/
  | rekey (p : Fin 5)
  /-- REKEY_WALK_LINE (R529): Two controller cycles elapse and the next line is re-encrypted under the new keys. -/
  | rekeyWalkLine (d : Die) (c : Fin 2) (badReads : Nat)
  /-- MIE_FLIP_ARM (R499): A write of MIE_FLIP_SEL with ARM = 1 arms a flip on the next write to the target. -/
  | mieFlipArm (d : Die) (v : W36)
  /-- TEST_EN_WRITE (R500): A write of MIE_CTRL.TEST_EN takes effect only at OPEN. -/
  | testEnWrite (d : Die) (v : W36)
  /-- POWER_SET (R538): Command requesting a power state or performance level for a domain. -/
  | powerSet (p : Fin 5)
  /-- PWR_GO (R538): A write of PWR_DOM_d_REQ.GO requests TARGET for the domain. -/
  | pwrGo (d : Die) (dom : Fin 47) (v : W36)
  /-- PWR_PERF_GO (R550): A write of PWR_DOM_d_REQ.PERF_GO requests a performance level change. -/
  | pwrPerfGo (d : Die) (dom : Fin 47) (v : W36)
  /-- PWR_RESTORE (R547): A write of PWR_DOM_d_REQ.RESTORE returns the domain to its configured clocks. -/
  | pwrRestore (d : Die) (dom : Fin 47) (v : W36)
  /-- AUTO_SLEEP_REQUEST (R539): An Oboe quad whose cores all sleep or are stopped requests its AUTO_SLEEP state. -/
  | autoSleepRequest (d : Die) (quad : Fin 16)
  /-- POWER_COMMIT (R540): Quiescing ends; the entry commits, the collar closes, latches sample and clocks are gated. -/
  | powerCommit (d : Die) (dom : Fin 47)
  /-- QUIESCE_EXPIRE (R542): QUIESCE elapses with flits unconfirmed and the entry is aborted. -/
  | quiesceExpire (d : Die) (dom : Fin 47)
  /-- SLEEP_STATE_REACHED (R540): After commitment the domain reaches IDLE, HOLD or OFF. -/
  | sleepStateReached (d : Die) (dom : Fin 47)
  /-- WAKE_START (R544): A wake source starts the wake of a sleeping domain. -/
  | wakeStart (d : Die) (dom : Fin 47) (cause : Fin 8)
  /-- WAKE_COMPLETE (R545): A woken domain reaches RUN and the region or cores resume as their rules give. -/
  | wakeComplete (d : Die) (dom : Fin 47)
  /-- LEVEL_CHANGE_STEP (R550): A voltage step of a level change completes and the change proceeds. -/
  | levelChangeStep (d : Die) (dom : Fin 47)
  /-- PWR_TIMER_EXPIRE (R544): A PWR_TIMER_t reaches its delay and wakes its domain. -/
  | pwrTimerExpire (d : Die) (t : Fin 8)
  /-- PWR_PINWAKE (R544): The configured edge on a wake pin wakes its domain. -/
  | pwrPinwake (d : Die) (n : Fin 8)
  /-- MONITOR_WINDOW (R557): A 1,024-cycle monitor window ends and its XIN count is judged. -/
  | monitorWindow (d : Die) (count : BitVec 11)
  /-- CKM_MON_RESTORE (R559): A write of CKM_MON.RESTORE returns a failed-over die to XIN after 16 good windows. -/
  | ckmMonRestore (d : Die) (v : W36)
  /-- SYNTH_LOCK (R555): A synthesiser locks and its global clocks and islands deliver edges. -/
  | synthLock (d : Die) (y : Fin 8)
  /-- CKM_SYN_UNLOCK (R560): A synthesiser loses lock; its users fall back to the oscillator and it is logged. -/
  | ckmSynUnlock (d : Die) (y : Fin 8)
  /-- SYS_REF_RELOCK (R554): The system clock generator completes its relock on a new reference. -/
  | sysRefRelock (d : Die)
  /-- TEMP_SAMPLE (R586): Every 1 ms the Drone samples its temperature sensors and raises alarms. -/
  | tempSample (d : Die) (temps : List (BitVec 9))
  /-- RAIL_SAMPLE (R586): Every 10 ms the Drone samples all supplies and raises rail alarms. -/
  | railSample (d : Die) (mv : List (BitVec 12))
  /-- CMD_WRITE (R566): SVC transaction carrying command words from the host. -/
  | cmdWrite (words : SvcOctets)
  /-- REPLY_READ (R566): SVC transaction returning reply words to the host. -/
  | replyRead (words : Nat)
  /-- FLAGS_READ (R566): SVC transaction returning the port's flag octet. -/
  | flagsRead
  /-- CON_LINE (R568): A CR LF-terminated line arrives on the console UART and its words are taken or discarded. -/
  | conLine (chars : List (BitVec 8))
  /-- DRN_CMD (R570): A write of DRN_CMD appends a word to the register mailbox. -/
  | drnCmd (d : Die) (v : W36)
  /-- DRN_REPLY (R576): A read of DRN_REPLY returns the next reply word and advances the reply. -/
  | drnReply (d : Die)
  /-- DRN_RESTART (R579): The Drone watchdog restarts its firmware; the running command replies TIMEOUT and it is logged. -/
  | drnRestart (d : Die)
  /-- STATUS (R582): Command returning seven status words. -/
  | status (p : Fin 5)
  /-- SELFTEST_REPORT (R161): Command returning the self-test result word of each die. -/
  | selftestReport (p : Fin 5)
  /-- EVENT_READ (R671): Command returning log entries from a given SEQ. -/
  | eventRead (p : Fin 5)
  /-- EVENT_ACK (R671): Command marking this port's log entries up to SEQ as read. -/
  | eventAck (p : Fin 5)
  /-- RESET (R580): Command resetting the device to POR or scheduling a die reset. -/
  | reset (p : Fin 5)
  /-- REG_READ (R580): Command reading any register by global address. -/
  | regRead (p : Fin 5)
  /-- REG_WRITE (R580): Command writing any register by global address. -/
  | regWrite (p : Fin 5)
  /-- HEALTH_READ (R580): Command returning a die's temperature, rail and health status registers. -/
  | healthRead (p : Fin 5)
  /-- TIME_SERVICE (R591): Command setting the mode and gains of the time service. -/
  | timeService (p : Fin 5)
  /-- TIME_SAMPLE (R591): Command carrying an offset sample that steps or steers device time. -/
  | timeSample (p : Fin 5)
  /-- CONFIG_LOAD (R181): Command starting a full-image load from a named source. -/
  | configLoad (p : Fin 5)
  /-- CONFIG_DATA (R581): Command carrying host-streamed image words. -/
  | configData (p : Fin 5)
  /-- REGION_LOAD (R146): Command loading a partial image into one or more regions after every check passes. -/
  | regionLoad (p : Fin 5)
  /-- REGION_ISOLATE (R130): Command closing a region's collar or cancelling a pending activation. -/
  | regionIsolate (p : Fin 5)
  /-- REGION_RESUME (R130): Command reopening the collar of an ISOLATED region. -/
  | regionResume (p : Fin 5)
  /-- REGION_RESET (R150): Command rerunning an ISOLATED region's release from write enables off. -/
  | regionReset (p : Fin 5)
  /-- REGION_CLEAR (R130): Command sending a region to EMPTY and dropping its claims. -/
  | regionClear (p : Fin 5)
  /-- REGION_ACTIVATE (R151): Command setting a position window in which a region's collar opens. -/
  | regionActivate (p : Fin 5)
  /-- UPDATE_WRITE (R583): Command writing image words into a flash slot. -/
  | updateWrite (p : Fin 5)
  /-- UPDATE_VERIFY (R584): Command running the verify pass on a flash slot. -/
  | updateVerify (p : Fin 5)
  /-- UPDATE_APPLY (R585): Command loading and activating a series of partial images between swaths. -/
  | updateApply (p : Fin 5)
  /-- TOKEN_POST (R580): Command posting a token to a die's Bellows. -/
  | tokenPost (p : Fin 5)
  /-- RESULT_POP (R580): Command popping the head result item of a die's Bellows. -/
  | resultPop (p : Fin 5)
  /-- POSITION_READ (R580): Command returning both channels' positions and status. -/
  | positionRead (p : Fin 5)
  /-- RANK_RETIRE (R490): Command retiring a logical rank of a DDR5 channel. -/
  | rankRetire (p : Fin 5)
  /-- DEBUG_CHALLENGE (R600): Command returning a fresh 256-bit unlock nonce. -/
  | debugChallenge (p : Fin 5)
  /-- DEBUG_UNLOCK (R601): Command checking a signed nonce and unlocking debug. -/
  | debugUnlock (p : Fin 5)
  /-- DEBUG_LOCK (R602): Command ending the unlock, closing the session and releasing halted cores. -/
  | debugLock (p : Fin 5)
  /-- LIFECYCLE_ADVANCE (R605): Command blowing the AUTH group of the next level, effective at the next POR. -/
  | lifecycleAdvance (p : Fin 5)
  /-- OWNER_KEY_SET (R604): Command writing the owner-key hash and device key fuses. -/
  | ownerKeySet (p : Fin 5)
  /-- EPOCH_ADVANCE (R599): Command raising the epoch fuse count. -/
  | epochAdvance (p : Fin 5)
  /-- NONCE_EXPIRE (R600): Sixty seconds pass and the held debug nonce becomes invalid. -/
  | nonceExpire
  /-- DIE_RESET_START (R644): A die reset begins 100 µs after its reply: RST rises, edges fence, pads and cues reset, DRAM writes drain. -/
  | dieResetStart (d : Die)
  /-- DIE_RESET_RETURN (R644): After 2.0 ms the die's domains return, die-global settings are reapplied and RST falls. -/
  | dieResetReturn (d : Die)
  /-- TRST_N_LOW (R611): TRST_N low resets every TAP controller to Test-Logic-Reset. -/
  | trstNLow
  /-- EXTEST (R615): TAP instruction driving the die's pins from the boundary register. -/
  | extest (d : ExtestScan)
  /-- SAMPLE_PRELOAD (R612): TAP instruction sampling or preloading the boundary register. -/
  | samplePreload (d : ChainScan) (v : BitVec 294)
  /-- IDCODE (R613): TAP instruction selecting the 32-bit IDCODE register. -/
  | idcode (d : ChainScan)
  /-- BYPASS (R612): TAP instruction selecting the one-bit bypass register. -/
  | bypass (d : ChainScan)
  /-- MAILBOX (R616): TAP instruction whose Update-DR appends a command word or requests a reply word. -/
  | mailbox (d : ChainScan) (dr : BitVec 38)
  /-- DBG (R619): TAP instruction whose Update-DR starts a debug operation. -/
  | dbg (d : ChainScan) (dr : BitVec 76)
  /-- DBG_NOP (R621): Debug operation with no effect returning the latest result. -/
  | dbgNop (d : Die)
  /-- READ (R621): Debug operation reading a register quietly. -/
  | read (d : Die)
  /-- ACTIVE_READ (R621): Debug operation reading a register with its side effect. -/
  | activeRead (d : Die)
  /-- WRITE (R621): Debug operation writing a register. -/
  | write (d : Die)
  /-- MEM_READ (R623): Debug operation reading a halted core's memory word or register quietly. -/
  | memRead (d : Die)
  /-- MEM_WRITE (R623): Debug operation writing a halted core's memory word or register. -/
  | memWrite (d : Die)
  /-- ATTACH (R625): Debug operation attaching a core, waking its quad where needed. -/
  | attach (d : Die)
  /-- DETACH (R621): Debug operation detaching a core and releasing it if halted. -/
  | detach (d : Die)
  /-- HALT (R626): Debug operation requesting a halt at the next acceptable instruction. -/
  | halt (d : Die)
  /-- FORCE_HALT (R628): Debug operation halting a core at the next oc, breaking any LOCK sequence. -/
  | forceHalt (d : Die)
  /-- HALT_COMPLETE (R626): A requested halt or step completes and the core enters HALTED. -/
  | haltComplete (d : Die) (n : Fin 64)
  /-- RESUME (R630): Debug operation releasing a halted core to its recorded state. -/
  | resume (d : Die)
  /-- STEP (R631): Debug operation running exactly one instruction of a halted core. -/
  | step (d : Die)
  /-- PMC_CFG_WRITE (R634): A write changing MODE or setting CLEAR zeroes every counter of the block. -/
  | pmcCfgWrite (d : Die) (blk : Option (Fin 64)) (v : W36)
  /-- PMC_COUNTER_READ (R641): An active read of a counter register returns its low bits and latches its upper bits. -/
  | pmcCounterRead (d : Die) (blk : Option (Fin 64)) (ctr : Fin 57)
  /-- PMC_COUNTER_WRITE (R641): A write of a counter register sets the counter from the write and the HI register. -/
  | pmcCounterWrite (d : Die) (blk : Option (Fin 64)) (ctr : Fin 57) (v : W36)
  /-- PMC_FLUSH (R638): The flush engine adds one event's fast counter into its word. -/
  | pmcFlush (d : Die) (blk : Option (Fin 64)) (ev : Fin 48)
  /-- PMC_OVERFLOW (R640): A SELECT counter wraps; OVF is set and interrupt source 6 may be raised. -/
  | pmcOverflow (d : Die) (blk : Option (Fin 64)) (ctr : Fin 8)
  /-- OBE_PMC_USER_WRITE (R642): A write of OBE_PMC_USER takes effect only from OWNER REG_WRITE or DBG WRITE. -/
  | obePmcUserWrite (d : Die) (n : Fin 64) (v : W36) (trusted : Bool)
  /-- REGISTER_WRITE (R11): A write to a register without a row of its own sets its RW fields, clears W1C bits or is refused. -/
  | registerWrite (d : Die) (off : BitVec 23) (v : W36)
  /-- DEVICE_RESET_START (R580): A RESET of KIND 0 takes effect 100 µs after its reply is ready and the device enters POR. -/
  | deviceResetStart
  /-- DOMAIN_POWER_FAULT (R130): A power fault of a region's domain sends the region to EMPTY or FAULTED with FAULT_CAUSE 2 and ends any load in progress. -/
  | domainPowerFault (d : Die) (r : Fin 16)
  /-- VTT_XCV_RISE (R535): VTT_XCV returns above its rising threshold and the die's transceiver quads no longer count as OFF. -/
  | vttXcvRise (d : Die)
  /-- VCCIO_B_RISE (R535): A bank's VCCIO_B returns above its rising threshold and its pins leave high impedance. -/
  | vccioBRise (d : Die) (b : Fin 2)
  /-- VDDQ_DDR_RISE (R535): VDDQ_DDR returns above its rising threshold for a die's DDR5 PHYs. -/
  | vddqDdrRise (d : Die)
  /-- CLUSTER_CLOCK_EDGE (R40): An active edge of a cluster clock loads enabled flip-flops, applies synchronous resets and writes LUT RAM pairs with WE = 1. -/
  | clusterClockEdge (d : Die) (edges : List ClockEdge)
  /-- COAST_COUNT (R358): While a FAULTED channel coasts, the integer advances by one at the mean rate of its last count intervals. -/
  | coastCount (d : Die) (c : Fin 2)
  /-- CUE_PATTERN_END (R378): A serialiser finishes sending a pattern; it returns to IDLE and the next repetition or entry may start, late if its crossing time has passed. -/
  | cuePatternEnd (d : Die) (k : Fin 48)
  /-- PAUSE_QUANTA_EXPIRE (R440): The quanta of a received PAUSE frame run out and the sub-port resumes transmission. -/
  | pauseQuantaExpire (d : Die) (m : Fin 2) (sub : Fin 4)
  /-- TEST_LOGIC_RESET (R611): The TAP controllers reach Test-Logic-Reset through TMS, load IDCODE and return EXTEST pins to their normal mode. -/
  | testLogicReset
deriving DecidableEq, Repr

end Sys2Proof
end

