-- ==== Sys2Proof/Config.lean ====
section
/-! DEFINITION. What an implementation fixes and the spec leaves open (free values have no body, so nothing can be proved
of them), and the cryptographic functions the spec takes from outside standards. -/

namespace Sys2Proof.Config

/-- Firmware version shown in DRN_FW: major, minor, patch in 24 bits (chapter 18). -/
opaque firmware : BitVec 24

/-- FREE VALUE. The value of a fabric signal that depends on itself through combinational logic; the arguments are the
count of free values taken and the signal's number. -/
opaque combLoop : Nat → Nat → Bool

/-- FREE VALUE. Edges of its source, less one, after which a divided regional clock that rose falls again: R113 gives its rises
only. The argument is the division. -/
opaque dividedFall : Nat → Nat

/-- FREE VALUE. The level a floating input pin reads as (R681). -/
opaque floatingPin : Nat → Bool

/-- The level that the board drives a pin to at a time in ns, if it drives it: the outside of the pad ring (R388, R398). The arguments
are the pin and the time. -/
opaque padDriven : Nat → Nat → Option Bool

/-- Whether the readback of a driving pin differs, at a time in ns, from the level it drives: the outside of the pad ring (R404). The
arguments are the pin and the time. -/
opaque padMismatch : Nat → Nat → Bool

/-- FREE VALUE. Bits from the part's random source: nonces (R600) and seeds (R505). -/
opaque random256 : Nat → BitVec 256

/-- FREE VALUE. The phase that the two sides of a half-width bundle fix at the end of ALIGN, modulo 4 (R200); the argument is
the count of free values taken. -/
opaque halfPhase : Nat → Nat

/-- FREE VALUE. The cause, 0 software, 1 POISON or 2 RESET, that the ABORT sent at FAULT_HALT carries: R245 asks for the ABORT
and no rule states its cause. The argument is the core. -/
opaque faultAbortCause : Nat → Fin 3

/-- FREE VALUE. The DETAIL of a RAM_REMAP_FULL logged for a store other than a reservoir RAM (R497 with R79): the spec gives it
for reservoir RAMs only. The arguments are the store and the word address. -/
opaque remapFullDetail : Nat → Nat → BitVec 36

/-- FREE VALUE. The store entry number that a BLW_STORE_CHECK names: which of the 16,384 entries Bellows uses for a key is not
given (R311, R496). The argument is the entry's key. -/
opaque storeEntry : Nat → BitVec 14

/-- FREE VALUE. The macro of a die's matching store, and the word address in it, that hold a word of an entry: the spec gives each
macro a remap table (R497) and no macro or address to an entry. The arguments are the entry's key and the number of what it
holds: its slots, its staged tokens from 4 up, a waiting release 12. -/
opaque storePlace : Nat → Nat → BitVec 16 × BitVec 16

/-- FREE VALUE. The macro of a channel's counter cache, and the word address in it, that hold a word of a cached line (R497, R517):
no rule gives them. The arguments are the line's address and the word's number. -/
opaque cachePlace : Nat → Nat → BitVec 16 × BitVec 16

/-- FREE VALUE. The level of a data signal that an edge block presents without its valid signal (R423, R427, R440). -/
opaque idleSignal : Nat → Bool

/-- FREE VALUE. DONE of the training words that a lane sends in TRAIN (R431): the argument numbers the time and the lane. -/
opaque trainDone : Nat → Bool

/-- FREE VALUE. The corrupted FCS that a frame is sent with (R438): the argument is the good one. -/
opaque corruptFcs : BitVec 32 → BitVec 32

/-- FREE VALUE. The words of a read that a persistent command error kept from the DRAM, delivered with POISON (R488). -/
opaque lostLine : Nat → BitVec 576

/-- FREE VALUE. The status of the reply to a vendor-test command, whose effect is not described (R580, R593). -/
opaque vendorStatus : W36 → BitVec 8

/-- SHA-384 of a string of octets (R170). -/
opaque sha384 : List (BitVec 8) → BitVec 384

/-- ECDSA P-384 verification: public key x and y, digest, signature r and s (R170, R601). -/
opaque ecdsaVerify : BitVec 384 → BitVec 384 → BitVec 384 → BitVec 384 → BitVec 384 → Bool

/-- AES-256-GCM decryption of whole words: key, 96-bit IV, additional data, ciphertext words; the plain words and the tag
over them (R175). -/
opaque gcmOpen : BitVec 256 → BitVec 96 → List (BitVec 8) → List W36 → List W36 × BitVec 128

/-- AES-256-GCM encryption of a Karn frame's slots: key, IV, authenticated octets, plain slots; the cipher slots and the tag
(R463). -/
opaque gcmSeal : BitVec 256 → BitVec 96 → List (BitVec 8) → List (BitVec 256) → List (BitVec 256) × BitVec 128

/-- AES-256-GCM decryption of a Karn frame's slots: the plain slots and the tag expected (R463). -/
opaque gcmUnseal : BitVec 256 → BitVec 96 → List (BitVec 8) → List (BitVec 256) → List (BitVec 256) × BitVec 128

/-- AES-XTS of a 576-bit line under the data and tweak keys at a tweak value: the keystreamed line; encryption (R506). -/
opaque xtsEncrypt : BitVec 256 → BitVec 256 → Nat → BitVec 576 → BitVec 576

/-- The inverse of `xtsEncrypt` (R506). -/
opaque xtsDecrypt : BitVec 256 → BitVec 256 → Nat → BitVec 576 → BitVec 576

/-- AES-256 of one block: key, block (R512). -/
opaque aes256 : BitVec 256 → BitVec 128 → BitVec 128

/-- AES-CMAC over octets (R506, R507). -/
opaque cmac : BitVec 256 → List (BitVec 8) → BitVec 128

/-- What the die-global frames set: the value that a register of a die takes from the frame words, where they set it. The
spec names what these frames hold (R111, R178) and gives no layout. -/
opaque globalSetting : List (Nat × W36) → Nat → Option W36

/-- The address of the die-global frame that sets a register, as reported when its setting is refused (R390, R416, R473, R555);
the spec gives these frames no layout. -/
opaque globalFrame : List (Nat × W36) → Nat → BitVec 25

/-- FREE VALUE. The status of an attempt whose source does not serve the image (R459, CFG_FAIL.CAUSE 1): no rule states it. The
argument is the count of free values taken. -/
opaque sourceFailStatus : Nat → BitVec 8

/-- FREE VALUE. Whether the quotient that R591 writes to CHN_TIME_RATE is taken upwards where it is no whole number: no rule
states its rounding. The argument is the count of free values taken. -/
opaque timeRateUp : Nat → Bool

/-- FREE VALUE. The rate of R591 for an interval of zero: no rule states the quotient. -/
opaque timeRateIdle : Nat → BitVec 24

end Sys2Proof.Config
end

