-- ==== Sys2Proof/Machine/Events.lean ====
section
/-! DEFINITION. The event codes of the log with their severities (R590). -/

namespace Sys2Proof.Machine

/-- An event of the table of R590: its code and severity. -/
structure Ev where
  code : Nat
  sev : Nat
deriving DecidableEq, Repr

/-- SELFTEST_FAIL; DETAIL: CFG_SELFTEST of the die. -/
def Ev.selftestFail : Ev := ⟨0x001, 2⟩
/-- CFG_ATTEMPT_FAIL; DETAIL: CFG_FAIL [12:0]. -/
def Ev.cfgAttemptFail : Ev := ⟨0x002, 1⟩
/-- DONE_WAIT_LONG; DETAIL: ms waited. -/
def Ev.doneWaitLong : Ev := ⟨0x003, 1⟩
/-- DONE_LOW; DETAIL: zero. -/
def Ev.doneLow : Ev := ⟨0x004, 1⟩
/-- REGION_LOAD_FAIL; DETAIL: region [3:0], CFG_FAIL.CAUSE [7:4]. -/
def Ev.regionLoadFail : Ev := ⟨0x005, 2⟩
/-- REGION_FAULT; DETAIL: region [3:0], frame address [28:4]. -/
def Ev.regionFault : Ev := ⟨0x006, 2⟩
/-- REGION_REPAIRED; DETAIL: as REGION_FAULT. -/
def Ev.regionRepaired : Ev := ⟨0x007, 0⟩
/-- BOUNDARY_CONTENTION; DETAIL: CFG_CONTENTION [19:1]. -/
def Ev.boundaryContention : Ev := ⟨0x008, 1⟩
/-- REGION_ACT_MISSED; DETAIL: region [3:0]. -/
def Ev.regionActMissed : Ev := ⟨0x009, 1⟩
/-- RAM_CHECK; DETAIL: RAM [10:0], address [20:11]. -/
def Ev.ramCheck : Ev := ⟨0x010, 1⟩
/-- RAM_POISON_READ; DETAIL: as RAM_CHECK. -/
def Ev.ramPoisonRead : Ev := ⟨0x011, 1⟩
/-- RAM_REMAP_FULL; DETAIL: as RAM_CHECK. -/
def Ev.ramRemapFull : Ev := ⟨0x012, 2⟩
/-- LUTRAM_CHECK; DETAIL: CFG_LUTRAM_STATUS [22:1]. -/
def Ev.lutramCheck : Ev := ⟨0x013, 1⟩
/-- GATE_CHECK; DETAIL: CKM_GATE_STATUS [12:2]. -/
def Ev.gateCheck : Ev := ⟨0x014, 1⟩
/-- GATE_OVERRUN; DETAIL: as GATE_CHECK. -/
def Ev.gateOverrun : Ev := ⟨0x015, 1⟩
/-- NOC_HDR_DROP; DETAIL: NOC_HDR_LOG [15:0]. -/
def Ev.nocHdrDrop : Ev := ⟨0x020, 1⟩
/-- NOC_AGED; DETAIL: router [7:0]. -/
def Ev.nocAged : Ev := ⟨0x021, 1⟩
/-- NOC_TIMEOUT; DETAIL: source router [7:0], port [10:8], flow [20:11]. -/
def Ev.nocTimeout : Ev := ⟨0x022, 2⟩
/-- NOC_HOLE_EXPIRED; DETAIL: as NOC_TIMEOUT, for the ejecting port. -/
def Ev.nocHoleExpired : Ev := ⟨0x023, 1⟩
/-- NOC_BAD_PORT; DETAIL: source router [7:0], port [10:8], destination router [18:11], port [21:19], reason [25:22]. -/
def Ev.nocBadPort : Ev := ⟨0x024, 1⟩
/-- NOC_TABLE_CHECK; DETAIL: router [7:0], port [10:8]. -/
def Ev.nocTableCheck : Ev := ⟨0x025, 1⟩
/-- CRL_WIDTH_DISAGREE; DETAIL: edge [0], bundle [3:1]. -/
def Ev.crlWidthDisagree : Ev := ⟨0x028, 2⟩
/-- CRL_TRAIN_FAIL; DETAIL: edge [0], bundle [3:1], LAST_FAIL [6:4]. -/
def Ev.crlTrainFail : Ev := ⟨0x029, 2⟩
/-- CRL_ERR_RETRAIN; DETAIL: edge [0], bundle [3:1]. -/
def Ev.crlErrRetrain : Ev := ⟨0x02A, 1⟩
/-- OBE_RANGE; DETAIL: core [5:0], offset [21:6]. -/
def Ev.obeRange : Ev := ⟨0x030, 1⟩
/-- OBE_POISON; DETAIL: core [5:0], OBE_TRAP [28:0] in [34:6]. -/
def Ev.obePoison : Ev := ⟨0x031, 1⟩
/-- OBE_FAULT_HALT; DETAIL: core [5:0], OBE_NMI_CAUSE [3:0] in [9:6]. -/
def Ev.obeFaultHalt : Ev := ⟨0x032, 2⟩
/-- BLW_SLOT_DUP; DETAIL: template [7:0], flow [17:8]. -/
def Ev.blwSlotDup : Ev := ⟨0x038, 1⟩
/-- BLW_STORE_FULL; DETAIL: as BLW_SLOT_DUP. -/
def Ev.blwStoreFull : Ev := ⟨0x039, 2⟩
/-- BLW_TIMEOUT; DETAIL: template [7:0], worker [15:8]. -/
def Ev.blwTimeout : Ev := ⟨0x03A, 1⟩
/-- BLW_ITEM_ERROR; DETAIL: BLW_FAULT [33:0]. -/
def Ev.blwItemError : Ev := ⟨0x03B, 2⟩
/-- BLW_XDIE_LOST; DETAIL: home die [1:0], template [9:2]. -/
def Ev.blwXdieLost : Ev := ⟨0x03C, 1⟩
/-- BLW_STORE_CHECK; DETAIL: store entry [13:0]. -/
def Ev.blwStoreCheck : Ev := ⟨0x03D, 1⟩
/-- CHN_QUAD_ERR; DETAIL: channel [0]. -/
def Ev.chnQuadErr : Ev := ⟨0x040, 1⟩
/-- CHN_ENC_OPEN; DETAIL: channel [0], pair [2:1]: 0 A, 1 B, 2 Z. -/
def Ev.chnEncOpen : Ev := ⟨0x041, 2⟩
/-- CHN_ENC_SHORT; DETAIL: as CHN_ENC_OPEN. -/
def Ev.chnEncShort : Ev := ⟨0x042, 2⟩
/-- CHN_REVERSED; DETAIL: channel [0]. -/
def Ev.chnReversed : Ev := ⟨0x043, 1⟩
/-- CHN_DISAGREE; DETAIL: CHN_AGREE [32:1]. -/
def Ev.chnDisagree : Ev := ⟨0x044, 1⟩
/-- CUE_LATE; DETAIL: serialiser [5:0]. -/
def Ev.cueLate : Ev := ⟨0x048, 1⟩
/-- CUE_OVERRUN; DETAIL: serialiser [5:0]. -/
def Ev.cueOverrun : Ev := ⟨0x049, 1⟩
/-- CUE_PATTERN_CHECK; DETAIL: serialiser [5:0], address [21:6]. -/
def Ev.cuePatternCheck : Ev := ⟨0x04A, 1⟩
/-- UIO_SHORT; DETAIL: bank [0], pin [6:1]. -/
def Ev.uioShort : Ev := ⟨0x04B, 2⟩
/-- XCV_PLL_LOST; DETAIL: quad [2:0]. -/
def Ev.xcvPllLost : Ev := ⟨0x050, 2⟩
/-- XCV_LOCK_LOST; DETAIL: quad [2:0], lane [4:3]. -/
def Ev.xcvLockLost : Ev := ⟨0x051, 1⟩
/-- XCV_BRINGUP_FAIL; DETAIL: quad [2:0], lane [4:3], LAST_FAIL [7:5]. -/
def Ev.xcvBringupFail : Ev := ⟨0x052, 1⟩
/-- ETH_LINK_DOWN; DETAIL: MAC [0], sub-port [2:1]. -/
def Ev.ethLinkDown : Ev := ⟨0x053, 1⟩
/-- KRN_NO_ROUTE; DETAIL: device number [10:0]. -/
def Ev.krnNoRoute : Ev := ⟨0x054, 1⟩
/-- KRN_AUTH_FAIL; DETAIL: link [1:0]. -/
def Ev.krnAuthFail : Ev := ⟨0x055, 2⟩
/-- DDR_RANGE; DETAIL: channel [0], line [32:1]. -/
def Ev.ddrRange : Ev := ⟨0x058, 1⟩
/-- DDR_READ_POISON; DETAIL: as DDR_RANGE. -/
def Ev.ddrReadPoison : Ev := ⟨0x059, 1⟩
/-- DDR_CA_FAIL; DETAIL: channel [0], physical rank [2:1]. -/
def Ev.ddrCaFail : Ev := ⟨0x05A, 2⟩
/-- DDR_TRAIN_FAIL; DETAIL: as DDR_CA_FAIL. -/
def Ev.ddrTrainFail : Ev := ⟨0x05B, 2⟩
/-- DDR_RANK_RETIRED; DETAIL: channel [0], retired rank [2:1], spare [4:3]. -/
def Ev.ddrRankRetired : Ev := ⟨0x05C, 1⟩
/-- DDR_NO_SPARE; DETAIL: as DDR_CA_FAIL. -/
def Ev.ddrNoSpare : Ev := ⟨0x05D, 2⟩
/-- MIE_MAJOR_END; DETAIL: channel [0]. -/
def Ev.mieMajorEnd : Ev := ⟨0x060, 2⟩
/-- MIE_NODE_REFETCH; DETAIL: channel [0], line [32:1]. -/
def Ev.mieNodeRefetch : Ev := ⟨0x061, 1⟩
/-- MIE_TAG_POISON; DETAIL: as MIE_NODE_REFETCH. -/
def Ev.mieTagPoison : Ev := ⟨0x062, 1⟩
/-- MIE_CHANNEL_LOST; DETAIL: channel [0]. -/
def Ev.mieChannelLost : Ev := ⟨0x063, 2⟩
/-- MIE_REKEY_DONE; DETAIL: channel [0]. -/
def Ev.mieRekeyDone : Ev := ⟨0x064, 0⟩
/-- MIE_SECURE_HALT; DETAIL: MIE_HALT_INFO. -/
def Ev.mieSecureHalt : Ev := ⟨0x065, 3⟩
/-- CKM_CLKFAIL; DETAIL: CKM_MON.COUNT [10:0]. -/
def Ev.ckmClkfail : Ev := ⟨0x068, 2⟩
/-- CKM_SYN_UNLOCK; DETAIL: synthesiser [2:0]. -/
def Ev.ckmSynUnlock : Ev := ⟨0x069, 2⟩
/-- PMC_LOST; DETAIL: as *Debug and performance counters*. -/
def Ev.pmcLost : Ev := ⟨0x070, 1⟩
/-- HMN_TEMP_WARN; DETAIL: sensor [1:0], °C [10:2]. -/
def Ev.hmnTempWarn : Ev := ⟨0x078, 1⟩
/-- HMN_TEMP_CRIT; DETAIL: as HMN_TEMP_WARN. -/
def Ev.hmnTempCrit : Ev := ⟨0x079, 2⟩
/-- HMN_RAIL; DETAIL: rail [2:0], mV [14:3]. -/
def Ev.hmnRail : Ev := ⟨0x07A, 2⟩
/-- DRN_AUTH_REFUSED; DETAIL: port [2:0] in R561 order from 0, opcode [12:3]. -/
def Ev.drnAuthRefused : Ev := ⟨0x080, 1⟩
/-- DRN_RESTART; DETAIL: zero. -/
def Ev.drnRestart : Ev := ⟨0x081, 2⟩
/-- UPD_REGION_DONE; DETAIL: image index [3:0]. -/
def Ev.updRegionDone : Ev := ⟨0x082, 0⟩
/-- UPD_STOPPED; DETAIL: image index [3:0], status [11:4]. -/
def Ev.updStopped : Ev := ⟨0x083, 2⟩
/-- TIME_STEP; DETAIL: step ns, signed, saturated. -/
def Ev.timeStep : Ev := ⟨0x084, 1⟩

end Sys2Proof.Machine
end

