-- ==== Sys2Proof/Machine/Map.lean ====
section
/-! DEFINITION. Sparse maps: every large store of the part (registers, frames, memories, tables) is a list of key and
value pairs with keys strictly rising. Memories and tables keep the canonical form: no entry equal to what an unlisted key reads as. The
registers list every key written since reset. -/

namespace Sys2Proof.Machine

/-- A sparse map from keys to values, plain data. -/
abbrev SMap (α : Type) := List (Nat × α)

/-- The entry listed at key k. -/
def SMap.find? {α : Type} : SMap α → Nat → Option α
  | [], _ => none
  | (k', v) :: m, k => if k' = k then some v else SMap.find? m k

/-- The map with key k listed at value v, kept in rising order. -/
def SMap.put {α : Type} : SMap α → Nat → α → SMap α
  | [], k, v => [(k, v)]
  | (k', v') :: m, k, v =>
    if k < k' then (k, v) :: (k', v') :: m
    else if k = k' then (k, v) :: m
    else (k', v') :: SMap.put m k v

/-- The map without key k. -/
def SMap.erase {α : Type} (m : SMap α) (k : Nat) : SMap α := m.filter (fun e => e.1 != k)

/-- The value at key k, where an unlisted key reads as `dflt k`. -/
def SMap.getD {α : Type} (dflt : Nat → α) (m : SMap α) (k : Nat) : α :=
  match SMap.find? m k with
  | some v => v
  | none => dflt k

/-- The map with key k at value v; writing what an unlisted key reads as removes the entry. -/
def SMap.setD {α : Type} [DecidableEq α] (dflt : Nat → α) (m : SMap α) (k : Nat) (v : α) : SMap α :=
  if v = dflt k then SMap.erase m k else SMap.put m k v

/-- The value at key k, where an unlisted key reads as the type's blank value. -/
def SMap.get {α : Type} [Inhabited α] (m : SMap α) (k : Nat) : α := SMap.getD (fun _ => default) m k

/-- The map with key k at value v, for a map whose unlisted keys read as the type's blank value. -/
def SMap.set {α : Type} [Inhabited α] [DecidableEq α] (m : SMap α) (k : Nat) (v : α) : SMap α :=
  SMap.setD (fun _ => default) m k v

/-- The value at key k passed through f. -/
def SMap.upd {α : Type} [Inhabited α] [DecidableEq α] (m : SMap α) (k : Nat) (f : α → α) : SMap α :=
  m.set k (f (m.get k))

/-- The map without its keys from lo up to (not including) hi. -/
def SMap.dropRange {α : Type} (m : SMap α) (lo hi : Nat) : SMap α :=
  m.filter (fun e => e.1 < lo || hi ≤ e.1)

/-- The keys listed from lo up to (not including) hi. -/
def SMap.keysIn {α : Type} (m : SMap α) (lo hi : Nat) : List Nat :=
  (m.filter (fun e => lo ≤ e.1 && e.1 < hi)).map (·.1)

/-- Keys strictly rising. -/
def SMap.sorted {α : Type} : SMap α → Bool
  | [] => true
  | [_] => true
  | (k, _) :: (k', v') :: m => k < k' && SMap.sorted ((k', v') :: m)

/-- The canonical form: keys strictly rising, and no entry equal to what its key reads as when unlisted. -/
def SMap.wf {α : Type} [DecidableEq α] (dflt : Nat → α) (m : SMap α) : Bool :=
  SMap.sorted m && m.all (fun e => e.2 ≠ dflt e.1)

/-- x put into a list before the first element it does not come after. -/
def insertBy {α : Type} (le : α → α → Bool) (x : α) : List α → List α
  | [] => [x]
  | y :: ys => if le x y then x :: y :: ys else y :: insertBy le x ys

/-- A list in the order of `le`, elements equal in it keeping their order. -/
def sortBy {α : Type} (le : α → α → Bool) : List α → List α
  | [] => []
  | x :: xs => insertBy le x (sortBy le xs)

end Sys2Proof.Machine
end

