-- ==== Sys2Proof/Machine/RegMap.lean ====
section
/-! DEFINITION. The register map of one die: every register table of spec/ (files 02 to 20) as one row: word offset,
index dimensions, and fields with access type and reset value (R11, R14). Offsets and field names are the spec's. -/

namespace Sys2Proof.Machine

/-- A field of a register of one die: word offset, lowest bit and width (R6). -/
structure Fld where
  off : Nat
  lo : Nat
  width : Nat
deriving DecidableEq, Repr

/-- The access types of R11. -/
inductive Access where
  | rw | ro | wo | w1c | rp | rx
deriving DecidableEq, Repr

/-- One field of a register table: place, access type and reset value. -/
structure FldRow where
  lo : Nat
  width : Nat
  acc : Access
  reset : Nat
deriving DecidableEq, Repr

/-- One register table: first word offset, its index dimensions as (count, stride) from the widest stride down, its fields. -/
structure RegRow where
  base : Nat
  dims : List (Nat × Nat)
  flds : List FldRow
deriving DecidableEq, Repr

/-- CFG_RAM_CLEAR (spec/02_logic_cells_and_clusters.md). -/
def Reg.CFG_RAM_CLEAR : Nat := 0x010800
def F.CFG_RAM_CLEAR_RAM : Fld := ⟨Reg.CFG_RAM_CLEAR, 0, 11⟩
def F.CFG_RAM_CLEAR_ALL : Fld := ⟨Reg.CFG_RAM_CLEAR, 11, 1⟩
def F.CFG_RAM_CLEAR_GO : Fld := ⟨Reg.CFG_RAM_CLEAR, 12, 1⟩
/-- CFG_RAM_STATUS (spec/02_logic_cells_and_clusters.md). -/
def Reg.CFG_RAM_STATUS : Nat := 0x010801
def F.CFG_RAM_STATUS_BUSY : Fld := ⟨Reg.CFG_RAM_STATUS, 0, 1⟩
def F.CFG_RAM_STATUS_REFUSED : Fld := ⟨Reg.CFG_RAM_STATUS, 1, 1⟩
def F.CFG_RAM_STATUS_CHECK_SEEN : Fld := ⟨Reg.CFG_RAM_STATUS, 2, 1⟩
def F.CFG_RAM_STATUS_LAST_RAM : Fld := ⟨Reg.CFG_RAM_STATUS, 3, 11⟩
def F.CFG_RAM_STATUS_LAST_ADDR : Fld := ⟨Reg.CFG_RAM_STATUS, 14, 10⟩
def F.CFG_RAM_STATUS_CHECK_COUNT : Fld := ⟨Reg.CFG_RAM_STATUS, 24, 8⟩
/-- CFG_REMAP_SEL (spec/02_logic_cells_and_clusters.md). -/
def Reg.CFG_REMAP_SEL : Nat := 0x010802
def F.CFG_REMAP_SEL_RAM : Fld := ⟨Reg.CFG_REMAP_SEL, 0, 11⟩
def F.CFG_REMAP_SEL_ENTRY : Fld := ⟨Reg.CFG_REMAP_SEL, 11, 3⟩
/-- CFG_REMAP_DATA (spec/02_logic_cells_and_clusters.md). -/
def Reg.CFG_REMAP_DATA : Nat := 0x010803
def F.CFG_REMAP_DATA_USED : Fld := ⟨Reg.CFG_REMAP_DATA, 0, 1⟩
def F.CFG_REMAP_DATA_ORIGIN : Fld := ⟨Reg.CFG_REMAP_DATA, 1, 1⟩
def F.CFG_REMAP_DATA_ADDR : Fld := ⟨Reg.CFG_REMAP_DATA, 2, 10⟩
def F.CFG_REMAP_DATA_USED_COUNT : Fld := ⟨Reg.CFG_REMAP_DATA, 12, 4⟩
/-- CFG_LUTRAM_STATUS (spec/02_logic_cells_and_clusters.md). -/
def Reg.CFG_LUTRAM_STATUS : Nat := 0x010804
def F.CFG_LUTRAM_STATUS_CHECK_SEEN : Fld := ⟨Reg.CFG_LUTRAM_STATUS, 0, 1⟩
def F.CFG_LUTRAM_STATUS_REGION : Fld := ⟨Reg.CFG_LUTRAM_STATUS, 1, 4⟩
def F.CFG_LUTRAM_STATUS_CLUSTER : Fld := ⟨Reg.CFG_LUTRAM_STATUS, 5, 12⟩
def F.CFG_LUTRAM_STATUS_CELL : Fld := ⟨Reg.CFG_LUTRAM_STATUS, 17, 6⟩
def F.CFG_LUTRAM_STATUS_COUNT : Fld := ⟨Reg.CFG_LUTRAM_STATUS, 23, 8⟩
/-- CKM_GCLK_n (spec/03_routing_and_fixed_timing.md). -/
def Reg.CKM_GCLK (n : Nat) : Nat := 0x040100 + n
def F.CKM_GCLK_SRC (n : Nat) : Fld := ⟨Reg.CKM_GCLK n, 0, 4⟩
def F.CKM_GCLK_EN (n : Nat) : Fld := ⟨Reg.CKM_GCLK n, 4, 1⟩
def F.CKM_GCLK_ACTIVE (n : Nat) : Fld := ⟨Reg.CKM_GCLK n, 5, 1⟩
/-- CKM_GATE_STATUS (spec/03_routing_and_fixed_timing.md). -/
def Reg.CKM_GATE_STATUS : Nat := 0x040180
def F.CKM_GATE_STATUS_CHECK_SEEN : Fld := ⟨Reg.CKM_GATE_STATUS, 0, 1⟩
def F.CKM_GATE_STATUS_OVERRUN_SEEN : Fld := ⟨Reg.CKM_GATE_STATUS, 1, 1⟩
def F.CKM_GATE_STATUS_REGION : Fld := ⟨Reg.CKM_GATE_STATUS, 2, 4⟩
def F.CKM_GATE_STATUS_SIDE : Fld := ⟨Reg.CKM_GATE_STATUS, 6, 2⟩
def F.CKM_GATE_STATUS_GATE : Fld := ⟨Reg.CKM_GATE_STATUS, 8, 5⟩
def F.CKM_GATE_STATUS_COUNT : Fld := ⟨Reg.CKM_GATE_STATUS, 13, 8⟩
/-- CFG_REGION_STATUS_r (spec/04_regions_and_partial_reconfiguration.md). -/
def Reg.CFG_REGION_STATUS (r : Nat) : Nat := 0x010100 + r
def F.CFG_REGION_STATUS_STATE (r : Nat) : Fld := ⟨Reg.CFG_REGION_STATUS r, 0, 3⟩
def F.CFG_REGION_STATUS_STAGE (r : Nat) : Fld := ⟨Reg.CFG_REGION_STATUS r, 3, 2⟩
def F.CFG_REGION_STATUS_ACT_PENDING (r : Nat) : Fld := ⟨Reg.CFG_REGION_STATUS r, 5, 1⟩
def F.CFG_REGION_STATUS_REPAIRED (r : Nat) : Fld := ⟨Reg.CFG_REGION_STATUS r, 6, 1⟩
def F.CFG_REGION_STATUS_FAULT_CAUSE (r : Nat) : Fld := ⟨Reg.CFG_REGION_STATUS r, 7, 3⟩
def F.CFG_REGION_STATUS_LOAD_COUNT (r : Nat) : Fld := ⟨Reg.CFG_REGION_STATUS r, 10, 16⟩
/-- CFG_REGION_CTRL_r (spec/04_regions_and_partial_reconfiguration.md). -/
def Reg.CFG_REGION_CTRL (r : Nat) : Nat := 0x010110 + r
def F.CFG_REGION_CTRL_STAGE_DELAY (r : Nat) : Fld := ⟨Reg.CFG_REGION_CTRL r, 0, 16⟩
def F.CFG_REGION_CTRL_AUTO_ACT (r : Nat) : Fld := ⟨Reg.CFG_REGION_CTRL r, 16, 1⟩
def F.CFG_REGION_CTRL_RESUME_ON_WAKE (r : Nat) : Fld := ⟨Reg.CFG_REGION_CTRL r, 17, 1⟩
def F.CFG_REGION_CTRL_AUTO_REPAIR (r : Nat) : Fld := ⟨Reg.CFG_REGION_CTRL r, 18, 1⟩
/-- CFG_CONTENTION (spec/04_regions_and_partial_reconfiguration.md). -/
def Reg.CFG_CONTENTION : Nat := 0x010120
def F.CFG_CONTENTION_SEEN : Fld := ⟨Reg.CFG_CONTENTION, 0, 1⟩
def F.CFG_CONTENTION_REGION : Fld := ⟨Reg.CFG_CONTENTION, 1, 4⟩
def F.CFG_CONTENTION_SIDE : Fld := ⟨Reg.CFG_CONTENTION, 5, 2⟩
def F.CFG_CONTENTION_INDEX : Fld := ⟨Reg.CFG_CONTENTION, 7, 13⟩
def F.CFG_CONTENTION_COUNT : Fld := ⟨Reg.CFG_CONTENTION, 20, 8⟩
/-- CFG_CLAIM_SEL (spec/04_regions_and_partial_reconfiguration.md). -/
def Reg.CFG_CLAIM_SEL : Nat := 0x010121
def F.CFG_CLAIM_SEL_REGION : Fld := ⟨Reg.CFG_CLAIM_SEL, 0, 4⟩
def F.CFG_CLAIM_SEL_SIDE : Fld := ⟨Reg.CFG_CLAIM_SEL, 4, 2⟩
def F.CFG_CLAIM_SEL_INDEX : Fld := ⟨Reg.CFG_CLAIM_SEL, 6, 13⟩
/-- CFG_CLAIM_DATA (spec/04_regions_and_partial_reconfiguration.md). -/
def Reg.CFG_CLAIM_DATA : Nat := 0x010122
def F.CFG_CLAIM_DATA_CLAIM_HERE : Fld := ⟨Reg.CFG_CLAIM_DATA, 0, 1⟩
def F.CFG_CLAIM_DATA_CLAIM_NEIGHBOUR : Fld := ⟨Reg.CFG_CLAIM_DATA, 1, 1⟩
def F.CFG_CLAIM_DATA_CONTENDED : Fld := ⟨Reg.CFG_CLAIM_DATA, 2, 1⟩
/-- CFG_STATUS (spec/05_configuration_and_start_up.md). -/
def Reg.CFG_STATUS : Nat := 0x010000
def F.CFG_STATUS_DEV_STATE : Fld := ⟨Reg.CFG_STATUS, 0, 4⟩
def F.CFG_STATUS_SLOT : Fld := ⟨Reg.CFG_STATUS, 4, 2⟩
def F.CFG_STATUS_PASS : Fld := ⟨Reg.CFG_STATUS, 6, 1⟩
def F.CFG_STATUS_STAGE : Fld := ⟨Reg.CFG_STATUS, 7, 2⟩
def F.CFG_STATUS_DONE_IN : Fld := ⟨Reg.CFG_STATUS, 9, 1⟩
def F.CFG_STATUS_DONE_OUT : Fld := ⟨Reg.CFG_STATUS, 10, 1⟩
def F.CFG_STATUS_MODE : Fld := ⟨Reg.CFG_STATUS, 11, 3⟩
/-- CFG_ATTEMPT (spec/05_configuration_and_start_up.md). -/
def Reg.CFG_ATTEMPT : Nat := 0x010001
def F.CFG_ATTEMPT_ATTEMPTS : Fld := ⟨Reg.CFG_ATTEMPT, 0, 24⟩
def F.CFG_ATTEMPT_BACKOFF_K : Fld := ⟨Reg.CFG_ATTEMPT, 24, 4⟩
/-- CFG_FAIL (spec/05_configuration_and_start_up.md). -/
def Reg.CFG_FAIL : Nat := 0x010002
def F.CFG_FAIL_STATUS : Fld := ⟨Reg.CFG_FAIL, 0, 8⟩
def F.CFG_FAIL_CAUSE : Fld := ⟨Reg.CFG_FAIL, 8, 4⟩
def F.CFG_FAIL_SLOT : Fld := ⟨Reg.CFG_FAIL, 12, 1⟩
/-- CFG_FAIL_FRAME (spec/05_configuration_and_start_up.md). -/
def Reg.CFG_FAIL_FRAME : Nat := 0x010003
def F.CFG_FAIL_FRAME_FRAME : Fld := ⟨Reg.CFG_FAIL_FRAME, 0, 25⟩
/-- CFG_RELEASE (spec/05_configuration_and_start_up.md). -/
def Reg.CFG_RELEASE : Nat := 0x010004
def F.CFG_RELEASE_STAGE_DELAY : Fld := ⟨Reg.CFG_RELEASE, 0, 16⟩
def F.CFG_RELEASE_DONE_SRC : Fld := ⟨Reg.CFG_RELEASE, 16, 2⟩
def F.CFG_RELEASE_DONE_WARN : Fld := ⟨Reg.CFG_RELEASE, 18, 14⟩
/-- CFG_SELFTEST (spec/05_configuration_and_start_up.md). -/
def Reg.CFG_SELFTEST : Nat := 0x010010
def F.CFG_SELFTEST_SRAM_FAIL : Fld := ⟨Reg.CFG_SELFTEST, 0, 1⟩
def F.CFG_SELFTEST_NOC_FAIL : Fld := ⟨Reg.CFG_SELFTEST, 1, 1⟩
def F.CFG_SELFTEST_CRL_FAIL : Fld := ⟨Reg.CFG_SELFTEST, 2, 1⟩
def F.CFG_SELFTEST_FUSE_FAIL : Fld := ⟨Reg.CFG_SELFTEST, 3, 1⟩
def F.CFG_SELFTEST_OSC_FAIL : Fld := ⟨Reg.CFG_SELFTEST, 4, 1⟩
def F.CFG_SELFTEST_SPARED : Fld := ⟨Reg.CFG_SELFTEST, 5, 5⟩
def F.CFG_SELFTEST_HALF : Fld := ⟨Reg.CFG_SELFTEST, 10, 5⟩
def F.CFG_SELFTEST_REMAPS : Fld := ⟨Reg.CFG_SELFTEST, 15, 16⟩
/-- NOC_EDGE (spec/06_network_on_chip.md). -/
def Reg.NOC_EDGE : Nat := 0x080000
def F.NOC_EDGE_EDGE_FENCED : Fld := ⟨Reg.NOC_EDGE, 0, 4⟩
def F.NOC_EDGE_BUNDLE_FENCED : Fld := ⟨Reg.NOC_EDGE, 4, 16⟩
def F.NOC_EDGE_BUNDLE_HALF : Fld := ⟨Reg.NOC_EDGE, 20, 16⟩
/-- NOC_RETRY (spec/06_network_on_chip.md). -/
def Reg.NOC_RETRY : Nat := 0x080001
def F.NOC_RETRY_TIMEOUT : Fld := ⟨Reg.NOC_RETRY, 0, 16⟩
def F.NOC_RETRY_RETRY_LIMIT : Fld := ⟨Reg.NOC_RETRY, 16, 4⟩
def F.NOC_RETRY_WAKE_LIMIT : Fld := ⟨Reg.NOC_RETRY, 20, 4⟩
/-- NOC_SEQ (spec/06_network_on_chip.md). -/
def Reg.NOC_SEQ : Nat := 0x080002
def F.NOC_SEQ_OPEN_QUIET : Fld := ⟨Reg.NOC_SEQ, 0, 11⟩
def F.NOC_SEQ_SEND_QUIET : Fld := ⟨Reg.NOC_SEQ, 11, 11⟩
def F.NOC_SEQ_EVICT_QUIET : Fld := ⟨Reg.NOC_SEQ, 22, 11⟩
/-- NOC_HDR_LOG (spec/06_network_on_chip.md). -/
def Reg.NOC_HDR_LOG : Nat := 0x080003
def F.NOC_HDR_LOG_ROUTER : Fld := ⟨Reg.NOC_HDR_LOG, 0, 8⟩
def F.NOC_HDR_LOG_IN_PORT : Fld := ⟨Reg.NOC_HDR_LOG, 8, 3⟩
def F.NOC_HDR_LOG_WORD : Fld := ⟨Reg.NOC_HDR_LOG, 11, 1⟩
def F.NOC_HDR_LOG_SYNDROME : Fld := ⟨Reg.NOC_HDR_LOG, 12, 4⟩
def F.NOC_HDR_LOG_SEEN : Fld := ⟨Reg.NOC_HDR_LOG, 16, 1⟩
/-- NOC_STAT_n (spec/06_network_on_chip.md). -/
def Reg.NOC_STAT (n : Nat) : Nat := 0x080010 + n
def F.NOC_STAT_COUNT (n : Nat) : Fld := ⟨Reg.NOC_STAT n, 0, 36⟩
/-- NOC_PORT_n_p (spec/06_network_on_chip.md). -/
def Reg.NOC_PORT (n p : Nat) : Nat := 0x080100 + 0x4 * n + p
def F.NOC_PORT_WIN (n p : Nat) : Fld := ⟨Reg.NOC_PORT n p, 0, 5⟩
def F.NOC_PORT_EN (n p : Nat) : Fld := ⟨Reg.NOC_PORT n p, 5, 1⟩
def F.NOC_PORT_FAIL_SEEN (n p : Nat) : Fld := ⟨Reg.NOC_PORT n p, 6, 1⟩
/-- CRL_BUNDLE_STATUS_e_k (spec/07_crelink_die_links.md). -/
def Reg.CRL_BUNDLE_STATUS (e k : Nat) : Nat := 0x090000 + 0x8 * e + k
def F.CRL_BUNDLE_STATUS_STATE (e k : Nat) : Fld := ⟨Reg.CRL_BUNDLE_STATUS e k, 0, 3⟩
def F.CRL_BUNDLE_STATUS_WIDTH (e k : Nat) : Fld := ⟨Reg.CRL_BUNDLE_STATUS e k, 3, 2⟩
def F.CRL_BUNDLE_STATUS_FLOOR (e k : Nat) : Fld := ⟨Reg.CRL_BUNDLE_STATUS e k, 5, 2⟩
def F.CRL_BUNDLE_STATUS_PEER_PROPOSE (e k : Nat) : Fld := ⟨Reg.CRL_BUNDLE_STATUS e k, 7, 2⟩
def F.CRL_BUNDLE_STATUS_ATTEMPT (e k : Nat) : Fld := ⟨Reg.CRL_BUNDLE_STATUS e k, 9, 2⟩
def F.CRL_BUNDLE_STATUS_LAST_FAIL (e k : Nat) : Fld := ⟨Reg.CRL_BUNDLE_STATUS e k, 11, 3⟩
def F.CRL_BUNDLE_STATUS_RX_MASK_HI (e k : Nat) : Fld := ⟨Reg.CRL_BUNDLE_STATUS e k, 14, 4⟩
def F.CRL_BUNDLE_STATUS_CLK_OK (e k : Nat) : Fld := ⟨Reg.CRL_BUNDLE_STATUS e k, 18, 1⟩
def F.CRL_BUNDLE_STATUS_SPARES_USED (e k : Nat) : Fld := ⟨Reg.CRL_BUNDLE_STATUS e k, 19, 2⟩
def F.CRL_BUNDLE_STATUS_FENCE_SEEN (e k : Nat) : Fld := ⟨Reg.CRL_BUNDLE_STATUS e k, 21, 1⟩
/-- CRL_RXMASK_e_k (spec/07_crelink_die_links.md). -/
def Reg.CRL_RXMASK (e k : Nat) : Nat := 0x090010 + 0x8 * e + k
def F.CRL_RXMASK_RX_MASK (e k : Nat) : Fld := ⟨Reg.CRL_RXMASK e k, 0, 36⟩
/-- CRL_BUNDLE_CTRL_e_k (spec/07_crelink_die_links.md). -/
def Reg.CRL_BUNDLE_CTRL (e k : Nat) : Nat := 0x090020 + 0x8 * e + k
def F.CRL_BUNDLE_CTRL_RETRAIN (e k : Nat) : Fld := ⟨Reg.CRL_BUNDLE_CTRL e k, 0, 1⟩
def F.CRL_BUNDLE_CTRL_REWIDEN (e k : Nat) : Fld := ⟨Reg.CRL_BUNDLE_CTRL e k, 1, 1⟩
def F.CRL_BUNDLE_CTRL_FENCE (e k : Nat) : Fld := ⟨Reg.CRL_BUNDLE_CTRL e k, 2, 1⟩
/-- CRL_ERR_e_k (spec/07_crelink_die_links.md). -/
def Reg.CRL_ERR (e k : Nat) : Nat := 0x090030 + 0x8 * e + k
def F.CRL_ERR_CRC_ERRORS (e k : Nat) : Fld := ⟨Reg.CRL_ERR e k, 0, 24⟩
def F.CRL_ERR_RETRAINS (e k : Nat) : Fld := ⟨Reg.CRL_ERR e k, 24, 12⟩
/-- CRL_CFG (spec/07_crelink_die_links.md). -/
def Reg.CRL_CFG : Nat := 0x090040
def F.CRL_CFG_ERR_LIMIT : Fld := ⟨Reg.CRL_CFG, 0, 16⟩
def F.CRL_CFG_NEG_TIMEOUT : Fld := ⟨Reg.CRL_CFG, 16, 8⟩
/-- CRL_SIDEBAND (spec/07_crelink_die_links.md). -/
def Reg.CRL_SIDEBAND : Nat := 0x090041
def F.CRL_SIDEBAND_PEER_RST : Fld := ⟨Reg.CRL_SIDEBAND, 0, 2⟩
def F.CRL_SIDEBAND_HALT_IN : Fld := ⟨Reg.CRL_SIDEBAND, 2, 2⟩
def F.CRL_SIDEBAND_MGT_UP : Fld := ⟨Reg.CRL_SIDEBAND, 4, 2⟩
def F.CRL_SIDEBAND_CFG_UP : Fld := ⟨Reg.CRL_SIDEBAND, 6, 2⟩
def F.CRL_SIDEBAND_TPULSE_SEEN : Fld := ⟨Reg.CRL_SIDEBAND, 8, 2⟩
/-- OBE_CTRL (spec/08_oboe_core.md). -/
def Reg.OBE_CTRL (core : Nat) : Nat := 0x200000 + 0x10000 * core
def F.OBE_CTRL_RUN (core : Nat) : Fld := ⟨Reg.OBE_CTRL core, 0, 1⟩
def F.OBE_CTRL_WORKER (core : Nat) : Fld := ⟨Reg.OBE_CTRL core, 1, 1⟩
def F.OBE_CTRL_POISON_USER (core : Nat) : Fld := ⟨Reg.OBE_CTRL core, 2, 1⟩
def F.OBE_CTRL_CLR_P (core : Nat) : Fld := ⟨Reg.OBE_CTRL core, 3, 1⟩
def F.OBE_CTRL_CLR_X (core : Nat) : Fld := ⟨Reg.OBE_CTRL core, 4, 1⟩
def F.OBE_CTRL_CLR_Y (core : Nat) : Fld := ⟨Reg.OBE_CTRL core, 5, 1⟩
/-- OBE_STATUS (spec/08_oboe_core.md). -/
def Reg.OBE_STATUS (core : Nat) : Nat := 0x200001 + 0x10000 * core
def F.OBE_STATUS_STATE (core : Nat) : Fld := ⟨Reg.OBE_STATUS core, 0, 3⟩
def F.OBE_STATUS_TV (core : Nat) : Fld := ⟨Reg.OBE_STATUS core, 3, 1⟩
def F.OBE_STATUS_LK (core : Nat) : Fld := ⟨Reg.OBE_STATUS core, 4, 1⟩
def F.OBE_STATUS_CLR_BUSY (core : Nat) : Fld := ⟨Reg.OBE_STATUS core, 5, 1⟩
def F.OBE_STATUS_CLR_REFUSED (core : Nat) : Fld := ⟨Reg.OBE_STATUS core, 6, 1⟩
def F.OBE_STATUS_PC (core : Nat) : Fld := ⟨Reg.OBE_STATUS core, 7, 13⟩
/-- OBE_START (spec/08_oboe_core.md). -/
def Reg.OBE_START (core : Nat) : Nat := 0x200002 + 0x10000 * core
def F.OBE_START_ADDR (core : Nat) : Fld := ⟨Reg.OBE_START core, 0, 13⟩
/-- OBE_VBASE (spec/08_oboe_core.md). -/
def Reg.OBE_VBASE (core : Nat) : Nat := 0x200003 + 0x10000 * core
def F.OBE_VBASE_BASE (core : Nat) : Fld := ⟨Reg.OBE_VBASE core, 0, 13⟩
/-- OBE_INT (spec/08_oboe_core.md). -/
def Reg.OBE_INT (core : Nat) : Nat := 0x200004 + 0x10000 * core
def F.OBE_INT_LEVEL (core : Nat) : Fld := ⟨Reg.OBE_INT core, 0, 24⟩
def F.OBE_INT_EN (core : Nat) : Fld := ⟨Reg.OBE_INT core, 24, 8⟩
/-- OBE_INT_PEND (spec/08_oboe_core.md). -/
def Reg.OBE_INT_PEND (core : Nat) : Nat := 0x200005 + 0x10000 * core
def F.OBE_INT_PEND_PEND (core : Nat) : Fld := ⟨Reg.OBE_INT_PEND core, 0, 8⟩
def F.OBE_INT_PEND_DOORBELL (core : Nat) : Fld := ⟨Reg.OBE_INT_PEND core, 8, 1⟩
/-- OBE_NMI_CAUSE (spec/08_oboe_core.md). -/
def Reg.OBE_NMI_CAUSE (core : Nat) : Nat := 0x200006 + 0x10000 * core
def F.OBE_NMI_CAUSE_WDOG (core : Nat) : Fld := ⟨Reg.OBE_NMI_CAUSE core, 0, 1⟩
def F.OBE_NMI_CAUSE_CLKFAIL (core : Nat) : Fld := ⟨Reg.OBE_NMI_CAUSE core, 1, 1⟩
def F.OBE_NMI_CAUSE_STACK (core : Nat) : Fld := ⟨Reg.OBE_NMI_CAUSE core, 2, 1⟩
def F.OBE_NMI_CAUSE_ILLEGAL (core : Nat) : Fld := ⟨Reg.OBE_NMI_CAUSE core, 3, 1⟩
def F.OBE_NMI_CAUSE_FAULT_HALT (core : Nat) : Fld := ⟨Reg.OBE_NMI_CAUSE core, 4, 1⟩
def F.OBE_NMI_CAUSE_PC (core : Nat) : Fld := ⟨Reg.OBE_NMI_CAUSE core, 5, 13⟩
/-- OBE_WDOG (spec/08_oboe_core.md). -/
def Reg.OBE_WDOG (core : Nat) : Nat := 0x200007 + 0x10000 * core
def F.OBE_WDOG_PERIOD (core : Nat) : Fld := ⟨Reg.OBE_WDOG core, 0, 16⟩
def F.OBE_WDOG_EN (core : Nat) : Fld := ⟨Reg.OBE_WDOG core, 16, 1⟩
def F.OBE_WDOG_KICK (core : Nat) : Fld := ⟨Reg.OBE_WDOG core, 17, 1⟩
def F.OBE_WDOG_COUNT (core : Nat) : Fld := ⟨Reg.OBE_WDOG core, 18, 16⟩
/-- OBE_TIMER (spec/08_oboe_core.md). -/
def Reg.OBE_TIMER (core : Nat) : Nat := 0x200008 + 0x10000 * core
def F.OBE_TIMER_PERIOD (core : Nat) : Fld := ⟨Reg.OBE_TIMER core, 0, 24⟩
def F.OBE_TIMER_EN (core : Nat) : Fld := ⟨Reg.OBE_TIMER core, 24, 1⟩
/-- OBE_TRAP (spec/08_oboe_core.md). -/
def Reg.OBE_TRAP (core : Nat) : Nat := 0x200009 + 0x10000 * core
def F.OBE_TRAP_PC (core : Nat) : Fld := ⟨Reg.OBE_TRAP core, 0, 13⟩
def F.OBE_TRAP_ADDR (core : Nat) : Fld := ⟨Reg.OBE_TRAP core, 13, 13⟩
def F.OBE_TRAP_MEM (core : Nat) : Fld := ⟨Reg.OBE_TRAP core, 26, 2⟩
def F.OBE_TRAP_STORED (core : Nat) : Fld := ⟨Reg.OBE_TRAP core, 28, 1⟩
def F.OBE_TRAP_SEEN (core : Nat) : Fld := ⟨Reg.OBE_TRAP core, 29, 1⟩
/-- OBE_MEM_STATUS (spec/08_oboe_core.md). -/
def Reg.OBE_MEM_STATUS (core : Nat) : Nat := 0x20000A + 0x10000 * core
def F.OBE_MEM_STATUS_CHECK_SEEN (core : Nat) : Fld := ⟨Reg.OBE_MEM_STATUS core, 0, 1⟩
def F.OBE_MEM_STATUS_MEM (core : Nat) : Fld := ⟨Reg.OBE_MEM_STATUS core, 1, 2⟩
def F.OBE_MEM_STATUS_ADDR (core : Nat) : Fld := ⟨Reg.OBE_MEM_STATUS core, 3, 13⟩
def F.OBE_MEM_STATUS_COUNT (core : Nat) : Fld := ⟨Reg.OBE_MEM_STATUS core, 16, 8⟩
/-- OBE_INBOX (spec/08_oboe_core.md). -/
def Reg.OBE_INBOX (core : Nat) : Nat := 0x20000B + 0x10000 * core
def F.OBE_INBOX_BASE (core : Nat) : Fld := ⟨Reg.OBE_INBOX core, 0, 13⟩
def F.OBE_INBOX_LEN (core : Nat) : Fld := ⟨Reg.OBE_INBOX core, 13, 4⟩
def F.OBE_INBOX_EN (core : Nat) : Fld := ⟨Reg.OBE_INBOX core, 17, 1⟩
/-- OBE_INBOX_PTR (spec/08_oboe_core.md). -/
def Reg.OBE_INBOX_PTR (core : Nat) : Nat := 0x20000C + 0x10000 * core
def F.OBE_INBOX_PTR_WR (core : Nat) : Fld := ⟨Reg.OBE_INBOX_PTR core, 0, 13⟩
def F.OBE_INBOX_PTR_RD (core : Nat) : Fld := ⟨Reg.OBE_INBOX_PTR core, 13, 13⟩
/-- OBE_DMA_c_CTRL (spec/08_oboe_core.md). -/
def Reg.OBE_DMA_CTRL (core c : Nat) : Nat := 0x200040 + 0x10000 * core + 0x8 * c
def F.OBE_DMA_CTRL_START (core c : Nat) : Fld := ⟨Reg.OBE_DMA_CTRL core c, 0, 1⟩
def F.OBE_DMA_CTRL_DIR (core c : Nat) : Fld := ⟨Reg.OBE_DMA_CTRL core c, 1, 1⟩
def F.OBE_DMA_CTRL_MEM (core c : Nat) : Fld := ⟨Reg.OBE_DMA_CTRL core c, 2, 2⟩
def F.OBE_DMA_CTRL_MODE (core c : Nat) : Fld := ⟨Reg.OBE_DMA_CTRL core c, 4, 2⟩
def F.OBE_DMA_CTRL_SX (core c : Nat) : Fld := ⟨Reg.OBE_DMA_CTRL core c, 6, 1⟩
def F.OBE_DMA_CTRL_SH (core c : Nat) : Fld := ⟨Reg.OBE_DMA_CTRL core c, 7, 4⟩
def F.OBE_DMA_CTRL_BURST (core c : Nat) : Fld := ⟨Reg.OBE_DMA_CTRL core c, 11, 6⟩
/-- OBE_DMA_c_LOCAL (spec/08_oboe_core.md). -/
def Reg.OBE_DMA_LOCAL (core c : Nat) : Nat := 0x200041 + 0x10000 * core + 0x8 * c
def F.OBE_DMA_LOCAL_LADDR (core c : Nat) : Fld := ⟨Reg.OBE_DMA_LOCAL core c, 0, 13⟩
def F.OBE_DMA_LOCAL_LSTEP (core c : Nat) : Fld := ⟨Reg.OBE_DMA_LOCAL core c, 13, 13⟩
def F.OBE_DMA_LOCAL_FLOW (core c : Nat) : Fld := ⟨Reg.OBE_DMA_LOCAL core c, 26, 10⟩
/-- OBE_DMA_c_GHI (spec/08_oboe_core.md). -/
def Reg.OBE_DMA_GHI (core c : Nat) : Nat := 0x200042 + 0x10000 * core + 0x8 * c
def F.OBE_DMA_GHI_GADDR_HI (core c : Nat) : Fld := ⟨Reg.OBE_DMA_GHI core c, 0, 22⟩
/-- OBE_DMA_c_GLO (spec/08_oboe_core.md). -/
def Reg.OBE_DMA_GLO (core c : Nat) : Nat := 0x200043 + 0x10000 * core + 0x8 * c
def F.OBE_DMA_GLO_GADDR_LO (core c : Nat) : Fld := ⟨Reg.OBE_DMA_GLO core c, 0, 36⟩
/-- OBE_DMA_c_COUNT (spec/08_oboe_core.md). -/
def Reg.OBE_DMA_COUNT (core c : Nat) : Nat := 0x200044 + 0x10000 * core + 0x8 * c
def F.OBE_DMA_COUNT_WORDS (core c : Nat) : Fld := ⟨Reg.OBE_DMA_COUNT core c, 0, 16⟩
/-- OBE_DMA_c_STATUS (spec/08_oboe_core.md). -/
def Reg.OBE_DMA_STATUS (core c : Nat) : Nat := 0x200045 + 0x10000 * core + 0x8 * c
def F.OBE_DMA_STATUS_BUSY (core c : Nat) : Fld := ⟨Reg.OBE_DMA_STATUS core c, 0, 1⟩
def F.OBE_DMA_STATUS_DONE (core c : Nat) : Fld := ⟨Reg.OBE_DMA_STATUS core c, 1, 1⟩
def F.OBE_DMA_STATUS_ERR (core c : Nat) : Fld := ⟨Reg.OBE_DMA_STATUS core c, 2, 1⟩
def F.OBE_DMA_STATUS_OVF (core c : Nat) : Fld := ⟨Reg.OBE_DMA_STATUS core c, 3, 1⟩
def F.OBE_DMA_STATUS_POISON_SEEN (core c : Nat) : Fld := ⟨Reg.OBE_DMA_STATUS core c, 4, 1⟩
def F.OBE_DMA_STATUS_REMAIN (core c : Nat) : Fld := ⟨Reg.OBE_DMA_STATUS core c, 5, 17⟩
/-- BLW_CTRL (spec/10_bellows_task_scheduler.md). -/
def Reg.BLW_CTRL : Nat := 0x060000
def F.BLW_CTRL_RUN : Fld := ⟨Reg.BLW_CTRL, 0, 1⟩
def F.BLW_CTRL_DEBUG_STEAL : Fld := ⟨Reg.BLW_CTRL, 1, 1⟩
def F.BLW_CTRL_HIST_CLR : Fld := ⟨Reg.BLW_CTRL, 2, 1⟩
/-- BLW_STATUS (spec/10_bellows_task_scheduler.md). -/
def Reg.BLW_STATUS : Nat := 0x060001
def F.BLW_STATUS_STORE_USED : Fld := ⟨Reg.BLW_STATUS, 0, 15⟩
def F.BLW_STATUS_STORE_HIGH : Fld := ⟨Reg.BLW_STATUS, 15, 15⟩
def F.BLW_STATUS_REFUSED : Fld := ⟨Reg.BLW_STATUS, 30, 1⟩
/-- BLW_RESULT_POP (spec/10_bellows_task_scheduler.md). -/
def Reg.BLW_RESULT_POP : Nat := 0x060002
def F.BLW_RESULT_POP_SEQUENCE : Fld := ⟨Reg.BLW_RESULT_POP, 0, 20⟩
def F.BLW_RESULT_POP_FLOW : Fld := ⟨Reg.BLW_RESULT_POP, 20, 10⟩
def F.BLW_RESULT_POP_COUNT : Fld := ⟨Reg.BLW_RESULT_POP, 30, 2⟩
def F.BLW_RESULT_POP_REF : Fld := ⟨Reg.BLW_RESULT_POP, 32, 1⟩
def F.BLW_RESULT_POP_ERROR : Fld := ⟨Reg.BLW_RESULT_POP, 33, 1⟩
def F.BLW_RESULT_POP_EMPTY : Fld := ⟨Reg.BLW_RESULT_POP, 35, 1⟩
/-- BLW_RESULT_PEEK (spec/10_bellows_task_scheduler.md). -/
def Reg.BLW_RESULT_PEEK : Nat := 0x060003
def F.BLW_RESULT_PEEK_HEAD : Fld := ⟨Reg.BLW_RESULT_PEEK, 0, 36⟩
/-- BLW_RESULT_DATA_i (spec/10_bellows_task_scheduler.md). -/
def Reg.BLW_RESULT_DATA (i : Nat) : Nat := 0x060004 + i
def F.BLW_RESULT_DATA_DATA (i : Nat) : Fld := ⟨Reg.BLW_RESULT_DATA i, 0, 36⟩
/-- BLW_RQ (spec/10_bellows_task_scheduler.md). -/
def Reg.BLW_RQ : Nat := 0x060007
def F.BLW_RQ_LEVEL : Fld := ⟨Reg.BLW_RQ, 0, 10⟩
def F.BLW_RQ_FULL_SEEN : Fld := ⟨Reg.BLW_RQ, 10, 1⟩
/-- BLW_FAULT (spec/10_bellows_task_scheduler.md). -/
def Reg.BLW_FAULT : Nat := 0x060008
def F.BLW_FAULT_FLOW : Fld := ⟨Reg.BLW_FAULT, 0, 10⟩
def F.BLW_FAULT_SEQUENCE : Fld := ⟨Reg.BLW_FAULT, 10, 20⟩
def F.BLW_FAULT_CAUSE : Fld := ⟨Reg.BLW_FAULT, 30, 4⟩
def F.BLW_FAULT_SEEN : Fld := ⟨Reg.BLW_FAULT, 34, 1⟩
/-- BLW_STAT_n (spec/10_bellows_task_scheduler.md). -/
def Reg.BLW_STAT (n : Nat) : Nat := 0x060010 + n
def F.BLW_STAT_COUNT (n : Nat) : Fld := ⟨Reg.BLW_STAT n, 0, 36⟩
/-- BLW_TPL_t_A (spec/10_bellows_task_scheduler.md). -/
def Reg.BLW_TPL_A (t : Nat) : Nat := 0x060100 + 0x2 * t
def F.BLW_TPL_A_ARITY_M1 (t : Nat) : Fld := ⟨Reg.BLW_TPL_A t, 0, 2⟩
def F.BLW_TPL_A_CLASS (t : Nat) : Fld := ⟨Reg.BLW_TPL_A t, 2, 4⟩
def F.BLW_TPL_A_PRIORITY (t : Nat) : Fld := ⟨Reg.BLW_TPL_A t, 6, 3⟩
def F.BLW_TPL_A_RETRY_MAX (t : Nat) : Fld := ⟨Reg.BLW_TPL_A t, 9, 3⟩
def F.BLW_TPL_A_GATE (t : Nat) : Fld := ⟨Reg.BLW_TPL_A t, 12, 1⟩
def F.BLW_TPL_A_VALID (t : Nat) : Fld := ⟨Reg.BLW_TPL_A t, 13, 1⟩
def F.BLW_TPL_A_FORWARD (t : Nat) : Fld := ⟨Reg.BLW_TPL_A t, 14, 1⟩
def F.BLW_TPL_A_HOME (t : Nat) : Fld := ⟨Reg.BLW_TPL_A t, 15, 2⟩
def F.BLW_TPL_A_REMOTE (t : Nat) : Fld := ⟨Reg.BLW_TPL_A t, 17, 8⟩
/-- BLW_TPL_t_B (spec/10_bellows_task_scheduler.md). -/
def Reg.BLW_TPL_B (t : Nat) : Nat := 0x060101 + 0x2 * t
def F.BLW_TPL_B_TIMEOUT (t : Nat) : Fld := ⟨Reg.BLW_TPL_B t, 0, 12⟩
def F.BLW_TPL_B_REL_KIND (t : Nat) : Fld := ⟨Reg.BLW_TPL_B t, 12, 2⟩
def F.BLW_TPL_B_REL_TPL (t : Nat) : Fld := ⟨Reg.BLW_TPL_B t, 14, 8⟩
def F.BLW_TPL_B_REL_SLOT (t : Nat) : Fld := ⟨Reg.BLW_TPL_B t, 22, 2⟩
def F.BLW_TPL_B_FREE_TPL (t : Nat) : Fld := ⟨Reg.BLW_TPL_B t, 24, 8⟩
/-- BLW_WORKER_w (spec/10_bellows_task_scheduler.md). -/
def Reg.BLW_WORKER (w : Nat) : Nat := 0x060400 + w
def F.BLW_WORKER_ROUTER (w : Nat) : Fld := ⟨Reg.BLW_WORKER w, 0, 8⟩
def F.BLW_WORKER_PORT (w : Nat) : Fld := ⟨Reg.BLW_WORKER w, 8, 2⟩
def F.BLW_WORKER_CLASS (w : Nat) : Fld := ⟨Reg.BLW_WORKER w, 10, 4⟩
def F.BLW_WORKER_DEPTH_M1 (w : Nat) : Fld := ⟨Reg.BLW_WORKER w, 14, 2⟩
def F.BLW_WORKER_EN (w : Nat) : Fld := ⟨Reg.BLW_WORKER w, 16, 1⟩
/-- BLW_WSTAT_w (spec/10_bellows_task_scheduler.md). -/
def Reg.BLW_WSTAT (w : Nat) : Nat := 0x060500 + w
def F.BLW_WSTAT_STATE (w : Nat) : Fld := ⟨Reg.BLW_WSTAT w, 0, 3⟩
def F.BLW_WSTAT_TASKS (w : Nat) : Fld := ⟨Reg.BLW_WSTAT w, 3, 3⟩
def F.BLW_WSTAT_STALE (w : Nat) : Fld := ⟨Reg.BLW_WSTAT w, 6, 4⟩
def F.BLW_WSTAT_BUSY (w : Nat) : Fld := ⟨Reg.BLW_WSTAT w, 10, 10⟩
/-- BLW_FLOW_f (spec/10_bellows_task_scheduler.md). -/
def Reg.BLW_FLOW (f : Nat) : Nat := 0x060800 + 0x2 * f
def F.BLW_FLOW_BASE (f : Nat) : Fld := ⟨Reg.BLW_FLOW f, 0, 20⟩
def F.BLW_FLOW_EN (f : Nat) : Fld := ⟨Reg.BLW_FLOW f, 20, 1⟩
def F.BLW_FLOW_FAIL_HEAD (f : Nat) : Fld := ⟨Reg.BLW_FLOW f, 21, 1⟩
/-- BLW_FLOW_f_STATUS (spec/10_bellows_task_scheduler.md). -/
def Reg.BLW_FLOW_STATUS (f : Nat) : Nat := 0x060801 + 0x2 * f
def F.BLW_FLOW_STATUS_ITEMS (f : Nat) : Fld := ⟨Reg.BLW_FLOW_STATUS f, 0, 9⟩
def F.BLW_FLOW_STATUS_AGE (f : Nat) : Fld := ⟨Reg.BLW_FLOW_STATUS f, 9, 16⟩
def F.BLW_FLOW_STATUS_RETRY_HOLD (f : Nat) : Fld := ⟨Reg.BLW_FLOW_STATUS f, 25, 1⟩
def F.BLW_FLOW_STATUS_ERR_SEEN (f : Nat) : Fld := ⟨Reg.BLW_FLOW_STATUS f, 26, 1⟩
/-- BLW_FABPORT_q (spec/10_bellows_task_scheduler.md). -/
def Reg.BLW_FABPORT (q : Nat) : Nat := 0x061000 + q
def F.BLW_FABPORT_EN (q : Nat) : Fld := ⟨Reg.BLW_FABPORT q, 0, 1⟩
def F.BLW_FABPORT_RX_NEXT (q : Nat) : Fld := ⟨Reg.BLW_FABPORT q, 1, 6⟩
def F.BLW_FABPORT_TX_NEXT (q : Nat) : Fld := ⟨Reg.BLW_FABPORT q, 7, 6⟩
def F.BLW_FABPORT_RX_LAP (q : Nat) : Fld := ⟨Reg.BLW_FABPORT q, 13, 1⟩
def F.BLW_FABPORT_TX_LAP (q : Nat) : Fld := ⟨Reg.BLW_FABPORT q, 14, 1⟩
def F.BLW_FABPORT_CHECK_SEEN (q : Nat) : Fld := ⟨Reg.BLW_FABPORT q, 15, 1⟩
/-- BLW_DEPTH_c_p (spec/10_bellows_task_scheduler.md). -/
def Reg.BLW_DEPTH (c p : Nat) : Nat := 0x061100 + 0x8 * c + p
def F.BLW_DEPTH_READY (c p : Nat) : Fld := ⟨Reg.BLW_DEPTH c p, 0, 15⟩
def F.BLW_DEPTH_HELD (c p : Nat) : Fld := ⟨Reg.BLW_DEPTH c p, 15, 15⟩
/-- BLW_WAIT_c_b (spec/10_bellows_task_scheduler.md). -/
def Reg.BLW_WAIT (c b : Nat) : Nat := 0x061200 + 0x10 * c + b
def F.BLW_WAIT_COUNT (c b : Nat) : Fld := ⟨Reg.BLW_WAIT c b, 0, 36⟩
/-- CHN_TIME_LO (spec/11_chanter_position_timebase.md). -/
def Reg.CHN_TIME_LO : Nat := 0x050000
def F.CHN_TIME_LO_TIME : Fld := ⟨Reg.CHN_TIME_LO, 0, 36⟩
/-- CHN_TIME_HI (spec/11_chanter_position_timebase.md). -/
def Reg.CHN_TIME_HI : Nat := 0x050001
def F.CHN_TIME_HI_TIME : Fld := ⟨Reg.CHN_TIME_HI, 0, 28⟩
/-- CHN_TIME_STATUS (spec/11_chanter_position_timebase.md). -/
def Reg.CHN_TIME_STATUS : Nat := 0x050002
def F.CHN_TIME_STATUS_MASTER : Fld := ⟨Reg.CHN_TIME_STATUS, 0, 2⟩
def F.CHN_TIME_STATUS_IS_MASTER : Fld := ⟨Reg.CHN_TIME_STATUS, 2, 1⟩
def F.CHN_TIME_STATUS_TIME_OK : Fld := ⟨Reg.CHN_TIME_STATUS, 3, 1⟩
def F.CHN_TIME_STATUS_STEPPED : Fld := ⟨Reg.CHN_TIME_STATUS, 4, 1⟩
def F.CHN_TIME_STATUS_REFUSED : Fld := ⟨Reg.CHN_TIME_STATUS, 5, 1⟩
def F.CHN_TIME_STATUS_LAST_ERR : Fld := ⟨Reg.CHN_TIME_STATUS, 6, 20⟩
/-- CHN_TIME_RATE (spec/11_chanter_position_timebase.md). -/
def Reg.CHN_TIME_RATE : Nat := 0x050003
def F.CHN_TIME_RATE_RATE : Fld := ⟨Reg.CHN_TIME_RATE, 0, 24⟩
/-- CHN_TIME_STEP (spec/11_chanter_position_timebase.md). -/
def Reg.CHN_TIME_STEP : Nat := 0x050004
def F.CHN_TIME_STEP_STEP : Fld := ⟨Reg.CHN_TIME_STEP, 0, 36⟩
/-- CHN_AGREE (spec/11_chanter_position_timebase.md). -/
def Reg.CHN_AGREE : Nat := 0x050005
def F.CHN_AGREE_SEEN : Fld := ⟨Reg.CHN_AGREE, 0, 1⟩
def F.CHN_AGREE_CH : Fld := ⟨Reg.CHN_AGREE, 1, 1⟩
def F.CHN_AGREE_DIE : Fld := ⟨Reg.CHN_AGREE, 2, 2⟩
def F.CHN_AGREE_DELTA : Fld := ⟨Reg.CHN_AGREE, 4, 20⟩
def F.CHN_AGREE_COUNT : Fld := ⟨Reg.CHN_AGREE, 24, 8⟩
def F.CHN_AGREE_NOMAJ : Fld := ⟨Reg.CHN_AGREE, 32, 1⟩
/-- CHN_CH_c_CFG (spec/11_chanter_position_timebase.md). -/
def Reg.CHN_CH_CFG (c : Nat) : Nat := 0x050010 + 0x10 * c
def F.CHN_CH_CFG_EN (c : Nat) : Fld := ⟨Reg.CHN_CH_CFG c, 0, 1⟩
def F.CHN_CH_CFG_DIR_INV (c : Nat) : Fld := ⟨Reg.CHN_CH_CFG c, 1, 1⟩
def F.CHN_CH_CFG_FILTER (c : Nat) : Fld := ⟨Reg.CHN_CH_CFG c, 2, 4⟩
def F.CHN_CH_CFG_ON_FAULT (c : Nat) : Fld := ⟨Reg.CHN_CH_CFG c, 6, 1⟩
def F.CHN_CH_CFG_AUTO_REV (c : Nat) : Fld := ⟨Reg.CHN_CH_CFG c, 7, 1⟩
def F.CHN_CH_CFG_REV_LIMIT (c : Nat) : Fld := ⟨Reg.CHN_CH_CFG c, 8, 8⟩
def F.CHN_CH_CFG_COAST_MAX (c : Nat) : Fld := ⟨Reg.CHN_CH_CFG c, 16, 8⟩
/-- CHN_CH_c_STATUS (spec/11_chanter_position_timebase.md). -/
def Reg.CHN_CH_STATUS (c : Nat) : Nat := 0x050011 + 0x10 * c
def F.CHN_CH_STATUS_VALID (c : Nat) : Fld := ⟨Reg.CHN_CH_STATUS c, 0, 1⟩
def F.CHN_CH_STATUS_LOADING (c : Nat) : Fld := ⟨Reg.CHN_CH_STATUS c, 1, 1⟩
def F.CHN_CH_STATUS_OPEN (c : Nat) : Fld := ⟨Reg.CHN_CH_STATUS c, 2, 3⟩
def F.CHN_CH_STATUS_SHORT (c : Nat) : Fld := ⟨Reg.CHN_CH_STATUS c, 5, 3⟩
def F.CHN_CH_STATUS_FAULTED (c : Nat) : Fld := ⟨Reg.CHN_CH_STATUS c, 8, 1⟩
def F.CHN_CH_STATUS_COASTING (c : Nat) : Fld := ⟨Reg.CHN_CH_STATUS c, 9, 1⟩
def F.CHN_CH_STATUS_REVERSED (c : Nat) : Fld := ⟨Reg.CHN_CH_STATUS c, 10, 1⟩
def F.CHN_CH_STATUS_REV_CORRECTED (c : Nat) : Fld := ⟨Reg.CHN_CH_STATUS c, 11, 1⟩
def F.CHN_CH_STATUS_SPLIT (c : Nat) : Fld := ⟨Reg.CHN_CH_STATUS c, 12, 1⟩
def F.CHN_CH_STATUS_PENDING (c : Nat) : Fld := ⟨Reg.CHN_CH_STATUS c, 13, 1⟩
def F.CHN_CH_STATUS_REFUSED (c : Nat) : Fld := ⟨Reg.CHN_CH_STATUS c, 14, 1⟩
def F.CHN_CH_STATUS_QERR (c : Nat) : Fld := ⟨Reg.CHN_CH_STATUS c, 15, 8⟩
/-- CHN_CH_c_POS_LO (spec/11_chanter_position_timebase.md). -/
def Reg.CHN_CH_POS_LO (c : Nat) : Nat := 0x050012 + 0x10 * c
def F.CHN_CH_POS_LO_Q (c : Nat) : Fld := ⟨Reg.CHN_CH_POS_LO c, 0, 36⟩
/-- CHN_CH_c_POS_HI (spec/11_chanter_position_timebase.md). -/
def Reg.CHN_CH_POS_HI (c : Nat) : Nat := 0x050013 + 0x10 * c
def F.CHN_CH_POS_HI_Q (c : Nat) : Fld := ⟨Reg.CHN_CH_POS_HI c, 0, 20⟩
/-- CHN_CH_c_ZLAT_LO (spec/11_chanter_position_timebase.md). -/
def Reg.CHN_CH_ZLAT_LO (c : Nat) : Nat := 0x050014 + 0x10 * c
def F.CHN_CH_ZLAT_LO_Q (c : Nat) : Fld := ⟨Reg.CHN_CH_ZLAT_LO c, 0, 36⟩
/-- CHN_CH_c_ZLAT_HI (spec/11_chanter_position_timebase.md). -/
def Reg.CHN_CH_ZLAT_HI (c : Nat) : Nat := 0x050015 + 0x10 * c
def F.CHN_CH_ZLAT_HI_Q (c : Nat) : Fld := ⟨Reg.CHN_CH_ZLAT_HI c, 0, 20⟩
def F.CHN_CH_ZLAT_HI_SEEN (c : Nat) : Fld := ⟨Reg.CHN_CH_ZLAT_HI c, 20, 1⟩
/-- CHN_CH_c_PRESET_LO (spec/11_chanter_position_timebase.md). -/
def Reg.CHN_CH_PRESET_LO (c : Nat) : Nat := 0x050016 + 0x10 * c
def F.CHN_CH_PRESET_LO_Q (c : Nat) : Fld := ⟨Reg.CHN_CH_PRESET_LO c, 0, 36⟩
/-- CHN_CH_c_PRESET_HI (spec/11_chanter_position_timebase.md). -/
def Reg.CHN_CH_PRESET_HI (c : Nat) : Nat := 0x050017 + 0x10 * c
def F.CHN_CH_PRESET_HI_Q (c : Nat) : Fld := ⟨Reg.CHN_CH_PRESET_HI c, 0, 20⟩
def F.CHN_CH_PRESET_HI_GO (c : Nat) : Fld := ⟨Reg.CHN_CH_PRESET_HI c, 20, 1⟩
/-- CHN_CUE_CFG_k (spec/11_chanter_position_timebase.md). -/
def Reg.CHN_CUE_CFG (k : Nat) : Nat := 0x050100 + 0x2 * k
def F.CHN_CUE_CFG_EN (k : Nat) : Fld := ⟨Reg.CHN_CUE_CFG k, 0, 1⟩
def F.CHN_CUE_CFG_CHANNEL (k : Nat) : Fld := ⟨Reg.CHN_CUE_CFG k, 1, 1⟩
def F.CHN_CUE_CFG_IDLE (k : Nat) : Fld := ⟨Reg.CHN_CUE_CFG k, 2, 1⟩
def F.CHN_CUE_CFG_LATE_POLICY (k : Nat) : Fld := ⟨Reg.CHN_CUE_CFG k, 3, 1⟩
def F.CHN_CUE_CFG_WAKE_EN (k : Nat) : Fld := ⟨Reg.CHN_CUE_CFG k, 4, 1⟩
def F.CHN_CUE_CFG_WAKE_DOM (k : Nat) : Fld := ⟨Reg.CHN_CUE_CFG k, 5, 6⟩
def F.CHN_CUE_CFG_LEAD (k : Nat) : Fld := ⟨Reg.CHN_CUE_CFG k, 11, 16⟩
def F.CHN_CUE_CFG_FLUSH (k : Nat) : Fld := ⟨Reg.CHN_CUE_CFG k, 27, 1⟩
/-- CHN_CUE_STAT_k (spec/11_chanter_position_timebase.md). -/
def Reg.CHN_CUE_STAT (k : Nat) : Nat := 0x050101 + 0x2 * k
def F.CHN_CUE_STAT_LEVEL (k : Nat) : Fld := ⟨Reg.CHN_CUE_STAT k, 0, 7⟩
def F.CHN_CUE_STAT_REPS_LEFT (k : Nat) : Fld := ⟨Reg.CHN_CUE_STAT k, 7, 12⟩
def F.CHN_CUE_STAT_SENDING (k : Nat) : Fld := ⟨Reg.CHN_CUE_STAT k, 19, 1⟩
def F.CHN_CUE_STAT_LATE_COUNT (k : Nat) : Fld := ⟨Reg.CHN_CUE_STAT k, 20, 8⟩
def F.CHN_CUE_STAT_OVERRUN_SEEN (k : Nat) : Fld := ⟨Reg.CHN_CUE_STAT k, 28, 1⟩
def F.CHN_CUE_STAT_CHECK_SEEN (k : Nat) : Fld := ⟨Reg.CHN_CUE_STAT k, 29, 1⟩
def F.CHN_CUE_STAT_MASKED_SEEN (k : Nat) : Fld := ⟨Reg.CHN_CUE_STAT k, 30, 1⟩
/-- UIO_BANK_CFG_b (spec/12_user_io_and_pad_ring.md). -/
def Reg.UIO_BANK_CFG (b : Nat) : Nat := 0x100000 + 0x10 * b
def F.UIO_BANK_CFG_LEVEL (b : Nat) : Fld := ⟨Reg.UIO_BANK_CFG b, 0, 2⟩
def F.UIO_BANK_CFG_PULL (b : Nat) : Fld := ⟨Reg.UIO_BANK_CFG b, 2, 2⟩
def F.UIO_BANK_CFG_SYNTH (b : Nat) : Fld := ⟨Reg.UIO_BANK_CFG b, 4, 3⟩
def F.UIO_BANK_CFG_RATIO (b : Nat) : Fld := ⟨Reg.UIO_BANK_CFG b, 7, 1⟩
def F.UIO_BANK_CFG_POS_CH (b : Nat) : Fld := ⟨Reg.UIO_BANK_CFG b, 8, 1⟩
def F.UIO_BANK_CFG_SHORT_LIMIT (b : Nat) : Fld := ⟨Reg.UIO_BANK_CFG b, 9, 8⟩
/-- UIO_BANK_STATUS_b (spec/12_user_io_and_pad_ring.md). -/
def Reg.UIO_BANK_STATUS (b : Nat) : Nat := 0x100001 + 0x10 * b
def F.UIO_BANK_STATUS_MODE (b : Nat) : Fld := ⟨Reg.UIO_BANK_STATUS b, 0, 2⟩
def F.UIO_BANK_STATUS_LATCH_CAUSE (b : Nat) : Fld := ⟨Reg.UIO_BANK_STATUS b, 2, 2⟩
def F.UIO_BANK_STATUS_REFUSED (b : Nat) : Fld := ⟨Reg.UIO_BANK_STATUS b, 4, 1⟩
def F.UIO_BANK_STATUS_SHORT_SEEN (b : Nat) : Fld := ⟨Reg.UIO_BANK_STATUS b, 5, 1⟩
def F.UIO_BANK_STATUS_CLK_OK (b : Nat) : Fld := ⟨Reg.UIO_BANK_STATUS b, 6, 1⟩
/-- UIO_BANK_CTRL_b (spec/12_user_io_and_pad_ring.md). -/
def Reg.UIO_BANK_CTRL (b : Nat) : Nat := 0x100002 + 0x10 * b
def F.UIO_BANK_CTRL_RELEASE (b : Nat) : Fld := ⟨Reg.UIO_BANK_CTRL b, 0, 1⟩
/-- UIO_IN_LO_b (spec/12_user_io_and_pad_ring.md). -/
def Reg.UIO_IN_LO (b : Nat) : Nat := 0x100003 + 0x10 * b
def F.UIO_IN_LO_LEVEL (b : Nat) : Fld := ⟨Reg.UIO_IN_LO b, 0, 36⟩
/-- UIO_IN_HI_b (spec/12_user_io_and_pad_ring.md). -/
def Reg.UIO_IN_HI (b : Nat) : Nat := 0x100004 + 0x10 * b
def F.UIO_IN_HI_LEVEL (b : Nat) : Fld := ⟨Reg.UIO_IN_HI b, 0, 12⟩
/-- UIO_SHORT_LO_b (spec/12_user_io_and_pad_ring.md). -/
def Reg.UIO_SHORT_LO (b : Nat) : Nat := 0x100005 + 0x10 * b
def F.UIO_SHORT_LO_OFF (b : Nat) : Fld := ⟨Reg.UIO_SHORT_LO b, 0, 36⟩
/-- UIO_SHORT_HI_b (spec/12_user_io_and_pad_ring.md). -/
def Reg.UIO_SHORT_HI (b : Nat) : Nat := 0x100006 + 0x10 * b
def F.UIO_SHORT_HI_OFF (b : Nat) : Fld := ⟨Reg.UIO_SHORT_HI b, 0, 12⟩
/-- UIO_PAT_ADDR_b (spec/12_user_io_and_pad_ring.md). -/
def Reg.UIO_PAT_ADDR (b : Nat) : Nat := 0x100007 + 0x10 * b
def F.UIO_PAT_ADDR_ADDR (b : Nat) : Fld := ⟨Reg.UIO_PAT_ADDR b, 0, 16⟩
/-- UIO_PAT_DATA_b (spec/12_user_io_and_pad_ring.md). -/
def Reg.UIO_PAT_DATA (b : Nat) : Nat := 0x100008 + 0x10 * b
def F.UIO_PAT_DATA_DATA (b : Nat) : Fld := ⟨Reg.UIO_PAT_DATA b, 0, 36⟩
/-- UIO_PAIR_k (spec/12_user_io_and_pad_ring.md). -/
def Reg.UIO_PAIR (k : Nat) : Nat := 0x100100 + 0x2 * k
def F.UIO_PAIR_DIFF (k : Nat) : Fld := ⟨Reg.UIO_PAIR k, 0, 1⟩
def F.UIO_PAIR_FUNC_P (k : Nat) : Fld := ⟨Reg.UIO_PAIR k, 1, 2⟩
def F.UIO_PAIR_FUNC_N (k : Nat) : Fld := ⟨Reg.UIO_PAIR k, 3, 2⟩
def F.UIO_PAIR_TERM (k : Nat) : Fld := ⟨Reg.UIO_PAIR k, 5, 1⟩
def F.UIO_PAIR_FENCE (k : Nat) : Fld := ⟨Reg.UIO_PAIR k, 6, 1⟩
def F.UIO_PAIR_HM_EN (k : Nat) : Fld := ⟨Reg.UIO_PAIR k, 7, 1⟩
/-- UIO_PAIR_STAT_k (spec/12_user_io_and_pad_ring.md). -/
def Reg.UIO_PAIR_STAT (k : Nat) : Nat := 0x100101 + 0x2 * k
def F.UIO_PAIR_STAT_OFF_P (k : Nat) : Fld := ⟨Reg.UIO_PAIR_STAT k, 0, 1⟩
def F.UIO_PAIR_STAT_OFF_N (k : Nat) : Fld := ⟨Reg.UIO_PAIR_STAT k, 1, 1⟩
def F.UIO_PAIR_STAT_PEAK_P (k : Nat) : Fld := ⟨Reg.UIO_PAIR_STAT k, 2, 9⟩
def F.UIO_PAIR_STAT_PEAK_N (k : Nat) : Fld := ⟨Reg.UIO_PAIR_STAT k, 11, 9⟩
/-- UIO_CUE_PUSH_k (spec/12_user_io_and_pad_ring.md). -/
def Reg.UIO_CUE_PUSH (k : Nat) : Nat := 0x100200 + k
def F.UIO_CUE_PUSH_WORD (k : Nat) : Fld := ⟨Reg.UIO_CUE_PUSH k, 0, 36⟩
/-- XCV_QUAD_CFG (spec/13_transceivers_and_ethernet.md). -/
def Reg.XCV_QUAD_CFG (q : Nat) : Nat := 0x0D0000 + 0x1000 * q
def F.XCV_QUAD_CFG_PLL_EN (q : Nat) : Fld := ⟨Reg.XCV_QUAD_CFG q, 0, 1⟩
def F.XCV_QUAD_CFG_NX2 (q : Nat) : Fld := ⟨Reg.XCV_QUAD_CFG q, 1, 9⟩
def F.XCV_QUAD_CFG_FCLK (q : Nat) : Fld := ⟨Reg.XCV_QUAD_CFG q, 10, 3⟩
def F.XCV_QUAD_CFG_GROUP (q : Nat) : Fld := ⟨Reg.XCV_QUAD_CFG q, 13, 2⟩
def F.XCV_QUAD_CFG_KARN (q : Nat) : Fld := ⟨Reg.XCV_QUAD_CFG q, 15, 1⟩
/-- XCV_QUAD_STATUS (spec/13_transceivers_and_ethernet.md). -/
def Reg.XCV_QUAD_STATUS (q : Nat) : Nat := 0x0D0001 + 0x1000 * q
def F.XCV_QUAD_STATUS_PLL_LOCK (q : Nat) : Fld := ⟨Reg.XCV_QUAD_STATUS q, 0, 1⟩
def F.XCV_QUAD_STATUS_REF_OK (q : Nat) : Fld := ⟨Reg.XCV_QUAD_STATUS q, 1, 1⟩
def F.XCV_QUAD_STATUS_PLL_LOST (q : Nat) : Fld := ⟨Reg.XCV_QUAD_STATUS q, 2, 1⟩
def F.XCV_QUAD_STATUS_REFUSED (q : Nat) : Fld := ⟨Reg.XCV_QUAD_STATUS q, 3, 1⟩
def F.XCV_QUAD_STATUS_REVERSED (q : Nat) : Fld := ⟨Reg.XCV_QUAD_STATUS q, 4, 2⟩
/-- XCV_QUAD_TIMER (spec/13_transceivers_and_ethernet.md). -/
def Reg.XCV_QUAD_TIMER (q : Nat) : Nat := 0x0D0002 + 0x1000 * q
def F.XCV_QUAD_TIMER_TRAIN_TIMEOUT (q : Nat) : Fld := ⟨Reg.XCV_QUAD_TIMER q, 0, 12⟩
def F.XCV_QUAD_TIMER_LOCK_TIMEOUT (q : Nat) : Fld := ⟨Reg.XCV_QUAD_TIMER q, 12, 12⟩
def F.XCV_QUAD_TIMER_RETRY_WAIT (q : Nat) : Fld := ⟨Reg.XCV_QUAD_TIMER q, 24, 8⟩
/-- XCV_LANE_l_CFG (spec/13_transceivers_and_ethernet.md). -/
def Reg.XCV_LANE_CFG (q l : Nat) : Nat := 0x0D0010 + 0x1000 * q + 0x8 * l
def F.XCV_LANE_CFG_EN (q l : Nat) : Fld := ⟨Reg.XCV_LANE_CFG q l, 0, 1⟩
def F.XCV_LANE_CFG_DIV (q l : Nat) : Fld := ⟨Reg.XCV_LANE_CFG q l, 1, 3⟩
def F.XCV_LANE_CFG_PCS (q l : Nat) : Fld := ⟨Reg.XCV_LANE_CFG q l, 4, 2⟩
def F.XCV_LANE_CFG_WIDTH (q l : Nat) : Fld := ⟨Reg.XCV_LANE_CFG q l, 6, 2⟩
def F.XCV_LANE_CFG_SCRAMBLE (q l : Nat) : Fld := ⟨Reg.XCV_LANE_CFG q l, 8, 1⟩
def F.XCV_LANE_CFG_ALIGN (q l : Nat) : Fld := ⟨Reg.XCV_LANE_CFG q l, 9, 1⟩
def F.XCV_LANE_CFG_TX_INV (q l : Nat) : Fld := ⟨Reg.XCV_LANE_CFG q l, 10, 1⟩
def F.XCV_LANE_CFG_RX_INV (q l : Nat) : Fld := ⟨Reg.XCV_LANE_CFG q l, 11, 1⟩
def F.XCV_LANE_CFG_POL_AUTO (q l : Nat) : Fld := ⟨Reg.XCV_LANE_CFG q l, 12, 1⟩
def F.XCV_LANE_CFG_TX_OFF (q l : Nat) : Fld := ⟨Reg.XCV_LANE_CFG q l, 13, 1⟩
def F.XCV_LANE_CFG_DETECT_KIND (q l : Nat) : Fld := ⟨Reg.XCV_LANE_CFG q l, 14, 2⟩
def F.XCV_LANE_CFG_TRAIN_KIND (q l : Nat) : Fld := ⟨Reg.XCV_LANE_CFG q l, 16, 2⟩
def F.XCV_LANE_CFG_EXCH_KIND (q l : Nat) : Fld := ⟨Reg.XCV_LANE_CFG q l, 18, 1⟩
def F.XCV_LANE_CFG_LOOP (q l : Nat) : Fld := ⟨Reg.XCV_LANE_CFG q l, 19, 2⟩
def F.XCV_LANE_CFG_PRBS (q l : Nat) : Fld := ⟨Reg.XCV_LANE_CFG q l, 21, 3⟩
/-- XCV_LANE_l_PROBE (spec/13_transceivers_and_ethernet.md). -/
def Reg.XCV_LANE_PROBE (q l : Nat) : Nat := 0x0D0011 + 0x1000 * q + 0x8 * l
def F.XCV_LANE_PROBE_OCTET (q l : Nat) : Fld := ⟨Reg.XCV_LANE_PROBE q l, 0, 8⟩
def F.XCV_LANE_PROBE_K (q l : Nat) : Fld := ⟨Reg.XCV_LANE_PROBE q l, 8, 1⟩
def F.XCV_LANE_PROBE_POS (q l : Nat) : Fld := ⟨Reg.XCV_LANE_PROBE q l, 9, 2⟩
/-- XCV_LANE_l_CTRL (spec/13_transceivers_and_ethernet.md). -/
def Reg.XCV_LANE_CTRL (q l : Nat) : Nat := 0x0D0012 + 0x1000 * q + 0x8 * l
def F.XCV_LANE_CTRL_BITSLIP (q l : Nat) : Fld := ⟨Reg.XCV_LANE_CTRL q l, 0, 1⟩
def F.XCV_LANE_CTRL_RETRAIN (q l : Nat) : Fld := ⟨Reg.XCV_LANE_CTRL q l, 1, 1⟩
/-- XCV_LANE_l_STATUS (spec/13_transceivers_and_ethernet.md). -/
def Reg.XCV_LANE_STATUS (q l : Nat) : Nat := 0x0D0013 + 0x1000 * q + 0x8 * l
def F.XCV_LANE_STATUS_STATE (q l : Nat) : Fld := ⟨Reg.XCV_LANE_STATUS q l, 0, 3⟩
def F.XCV_LANE_STATUS_CDR_LOCK (q l : Nat) : Fld := ⟨Reg.XCV_LANE_STATUS q l, 3, 1⟩
def F.XCV_LANE_STATUS_WORD_LOCK (q l : Nat) : Fld := ⟨Reg.XCV_LANE_STATUS q l, 4, 1⟩
def F.XCV_LANE_STATUS_LAST_FAIL (q l : Nat) : Fld := ⟨Reg.XCV_LANE_STATUS q l, 5, 3⟩
def F.XCV_LANE_STATUS_FAILS (q l : Nat) : Fld := ⟨Reg.XCV_LANE_STATUS q l, 8, 12⟩
def F.XCV_LANE_STATUS_SLIP (q l : Nat) : Fld := ⟨Reg.XCV_LANE_STATUS q l, 20, 7⟩
/-- XCV_LANE_l_ERR (spec/13_transceivers_and_ethernet.md). -/
def Reg.XCV_LANE_ERR (q l : Nat) : Nat := 0x0D0014 + 0x1000 * q + 0x8 * l
def F.XCV_LANE_ERR_CODE_ERR (q l : Nat) : Fld := ⟨Reg.XCV_LANE_ERR q l, 0, 24⟩
def F.XCV_LANE_ERR_TX_UNDER (q l : Nat) : Fld := ⟨Reg.XCV_LANE_ERR q l, 24, 12⟩
/-- XCV_LANE_l_PRBS (spec/13_transceivers_and_ethernet.md). -/
def Reg.XCV_LANE_PRBS (q l : Nat) : Nat := 0x0D0015 + 0x1000 * q + 0x8 * l
def F.XCV_LANE_PRBS_ERRORS (q l : Nat) : Fld := ⟨Reg.XCV_LANE_PRBS q l, 0, 35⟩
def F.XCV_LANE_PRBS_LOCKED (q l : Nat) : Fld := ⟨Reg.XCV_LANE_PRBS q l, 35, 1⟩
/-- XCV_LANE_l_TXEQ (spec/13_transceivers_and_ethernet.md). -/
def Reg.XCV_LANE_TXEQ (q l : Nat) : Nat := 0x0D0016 + 0x1000 * q + 0x8 * l
def F.XCV_LANE_TXEQ_PRE (q l : Nat) : Fld := ⟨Reg.XCV_LANE_TXEQ q l, 0, 5⟩
def F.XCV_LANE_TXEQ_POST (q l : Nat) : Fld := ⟨Reg.XCV_LANE_TXEQ q l, 5, 6⟩
def F.XCV_LANE_TXEQ_AMP (q l : Nat) : Fld := ⟨Reg.XCV_LANE_TXEQ q l, 11, 6⟩
def F.XCV_LANE_TXEQ_RX_ADAPT (q l : Nat) : Fld := ⟨Reg.XCV_LANE_TXEQ q l, 17, 1⟩
/-- ETH_m_CFG (spec/13_transceivers_and_ethernet.md). -/
def Reg.ETH_CFG (m : Nat) : Nat := 0x0E0000 + 0x100 * m
def F.ETH_CFG_MODE (m : Nat) : Fld := ⟨Reg.ETH_CFG m, 0, 2⟩
def F.ETH_CFG_SUB_EN (m : Nat) : Fld := ⟨Reg.ETH_CFG m, 2, 4⟩
def F.ETH_CFG_FEC (m : Nat) : Fld := ⟨Reg.ETH_CFG m, 6, 4⟩
def F.ETH_CFG_MAXLEN (m : Nat) : Fld := ⟨Reg.ETH_CFG m, 10, 14⟩
def F.ETH_CFG_FCS_STRIP (m : Nat) : Fld := ⟨Reg.ETH_CFG m, 24, 1⟩
def F.ETH_CFG_TX_FCS_PASS (m : Nat) : Fld := ⟨Reg.ETH_CFG m, 25, 1⟩
def F.ETH_CFG_DROP_BAD (m : Nat) : Fld := ⟨Reg.ETH_CFG m, 26, 1⟩
def F.ETH_CFG_PAUSE_EN (m : Nat) : Fld := ⟨Reg.ETH_CFG m, 27, 1⟩
def F.ETH_CFG_CCLK (m : Nat) : Fld := ⟨Reg.ETH_CFG m, 28, 3⟩
def F.ETH_CFG_START_THR (m : Nat) : Fld := ⟨Reg.ETH_CFG m, 31, 4⟩
/-- ETH_m_STATUS (spec/13_transceivers_and_ethernet.md). -/
def Reg.ETH_STATUS (m : Nat) : Nat := 0x0E0001 + 0x100 * m
def F.ETH_STATUS_LINK (m : Nat) : Fld := ⟨Reg.ETH_STATUS m, 0, 4⟩
def F.ETH_STATUS_LOCAL_FAULT (m : Nat) : Fld := ⟨Reg.ETH_STATUS m, 4, 4⟩
def F.ETH_STATUS_REMOTE_FAULT (m : Nat) : Fld := ⟨Reg.ETH_STATUS m, 8, 4⟩
def F.ETH_STATUS_PAUSED (m : Nat) : Fld := ⟨Reg.ETH_STATUS m, 12, 4⟩
def F.ETH_STATUS_REFUSED (m : Nat) : Fld := ⟨Reg.ETH_STATUS m, 16, 1⟩
def F.ETH_STATUS_LINK_DOWN_SEEN (m : Nat) : Fld := ⟨Reg.ETH_STATUS m, 17, 1⟩
/-- ETH_m_TS_ADJ (spec/13_transceivers_and_ethernet.md). -/
def Reg.ETH_TS_ADJ (m : Nat) : Nat := 0x0E0002 + 0x100 * m
def F.ETH_TS_ADJ_TX (m : Nat) : Fld := ⟨Reg.ETH_TS_ADJ m, 0, 16⟩
def F.ETH_TS_ADJ_RX (m : Nat) : Fld := ⟨Reg.ETH_TS_ADJ m, 16, 16⟩
/-- ETH_m_s_STAT_n (spec/13_transceivers_and_ethernet.md). -/
def Reg.ETH_STAT (m s n : Nat) : Nat := 0x0E0010 + 0x100 * m + 0x10 * s + n
def F.ETH_STAT_COUNT (m s n : Nat) : Fld := ⟨Reg.ETH_STAT m s n, 0, 36⟩
/-- KRN_DEVNUM (spec/14_karn_link_and_multi_device_systems.md). -/
def Reg.KRN_DEVNUM : Nat := 0x0F0000
def F.KRN_DEVNUM_NUM : Fld := ⟨Reg.KRN_DEVNUM, 0, 11⟩
def F.KRN_DEVNUM_UNNUMBERED : Fld := ⟨Reg.KRN_DEVNUM, 11, 1⟩
def F.KRN_DEVNUM_LOADED : Fld := ⟨Reg.KRN_DEVNUM, 12, 12⟩
def F.KRN_DEVNUM_REFUSED : Fld := ⟨Reg.KRN_DEVNUM, 24, 1⟩
/-- KRN_SYS (spec/14_karn_link_and_multi_device_systems.md). -/
def Reg.KRN_SYS : Nat := 0x0F0001
def F.KRN_SYS_EXPECT : Fld := ⟨Reg.KRN_SYS, 0, 12⟩
def F.KRN_SYS_TIME_EN : Fld := ⟨Reg.KRN_SYS, 12, 1⟩
def F.KRN_SYS_TIME_LINK : Fld := ⟨Reg.KRN_SYS, 13, 4⟩
def F.KRN_SYS_POS_EN_0 : Fld := ⟨Reg.KRN_SYS, 17, 1⟩
def F.KRN_SYS_POS_EN_1 : Fld := ⟨Reg.KRN_SYS, 18, 1⟩
def F.KRN_SYS_POS_LINK : Fld := ⟨Reg.KRN_SYS, 19, 4⟩
def F.KRN_SYS_FOLLOW_DELAY : Fld := ⟨Reg.KRN_SYS, 23, 12⟩
/-- KRN_LINK_k_CFG (spec/14_karn_link_and_multi_device_systems.md). -/
def Reg.KRN_LINK_CFG (k : Nat) : Nat := 0x0F0010 + 0x8 * k
def F.KRN_LINK_CFG_EN (k : Nat) : Fld := ⟨Reg.KRN_LINK_CFG k, 0, 1⟩
def F.KRN_LINK_CFG_REFSEL (k : Nat) : Fld := ⟨Reg.KRN_LINK_CFG k, 1, 1⟩
def F.KRN_LINK_CFG_ENC (k : Nat) : Fld := ⟨Reg.KRN_LINK_CFG k, 2, 1⟩
def F.KRN_LINK_CFG_BOOT_SERVE (k : Nat) : Fld := ⟨Reg.KRN_LINK_CFG k, 3, 1⟩
def F.KRN_LINK_CFG_TIME_TX (k : Nat) : Fld := ⟨Reg.KRN_LINK_CFG k, 4, 1⟩
def F.KRN_LINK_CFG_POS_TX (k : Nat) : Fld := ⟨Reg.KRN_LINK_CFG k, 5, 1⟩
def F.KRN_LINK_CFG_PEER_NUM (k : Nat) : Fld := ⟨Reg.KRN_LINK_CFG k, 6, 11⟩
def F.KRN_LINK_CFG_KEY_SWITCH (k : Nat) : Fld := ⟨Reg.KRN_LINK_CFG k, 17, 1⟩
/-- KRN_LINK_k_STATUS (spec/14_karn_link_and_multi_device_systems.md). -/
def Reg.KRN_LINK_STATUS (k : Nat) : Nat := 0x0F0011 + 0x8 * k
def F.KRN_LINK_STATUS_STATE (k : Nat) : Fld := ⟨Reg.KRN_LINK_STATUS k, 0, 3⟩
def F.KRN_LINK_STATUS_PEER_DEV (k : Nat) : Fld := ⟨Reg.KRN_LINK_STATUS k, 3, 11⟩
def F.KRN_LINK_STATUS_PEER_LINK (k : Nat) : Fld := ⟨Reg.KRN_LINK_STATUS k, 14, 4⟩
def F.KRN_LINK_STATUS_LAT (k : Nat) : Fld := ⟨Reg.KRN_LINK_STATUS k, 18, 10⟩
def F.KRN_LINK_STATUS_KEY_PHASE (k : Nat) : Fld := ⟨Reg.KRN_LINK_STATUS k, 28, 1⟩
def F.KRN_LINK_STATUS_KEY_OK (k : Nat) : Fld := ⟨Reg.KRN_LINK_STATUS k, 29, 1⟩
/-- KRN_LINK_k_BOOT_A (spec/14_karn_link_and_multi_device_systems.md). -/
def Reg.KRN_LINK_BOOT_A (k : Nat) : Nat := 0x0F0012 + 0x8 * k
def F.KRN_LINK_BOOT_A_ADDR (k : Nat) : Fld := ⟨Reg.KRN_LINK_BOOT_A k, 0, 32⟩
/-- KRN_LINK_k_BOOT_B (spec/14_karn_link_and_multi_device_systems.md). -/
def Reg.KRN_LINK_BOOT_B (k : Nat) : Nat := 0x0F0013 + 0x8 * k
def F.KRN_LINK_BOOT_B_ADDR (k : Nat) : Fld := ⟨Reg.KRN_LINK_BOOT_B k, 0, 32⟩
/-- KRN_LINK_k_STAT_n (spec/14_karn_link_and_multi_device_systems.md). -/
def Reg.KRN_LINK_STAT (k n : Nat) : Nat := 0x0F0014 + 0x8 * k + n
def F.KRN_LINK_STAT_COUNT (k n : Nat) : Fld := ⟨Reg.KRN_LINK_STAT k n, 0, 36⟩
/-- KRN_ROUTE_n (spec/14_karn_link_and_multi_device_systems.md). -/
def Reg.KRN_ROUTE (n : Nat) : Nat := 0x0F1000 + n
def F.KRN_ROUTE_EN (n : Nat) : Fld := ⟨Reg.KRN_ROUTE n, 0, 1⟩
def F.KRN_ROUTE_LINK (n : Nat) : Fld := ⟨Reg.KRN_ROUTE n, 1, 4⟩
def F.KRN_ROUTE_ALT_EN (n : Nat) : Fld := ⟨Reg.KRN_ROUTE n, 5, 1⟩
def F.KRN_ROUTE_ALT_LINK (n : Nat) : Fld := ⟨Reg.KRN_ROUTE n, 6, 4⟩
/-- DDR_CFG (spec/15_ddr5_controllers.md). -/
def Reg.DDR_CFG (ch : Nat) : Nat := 0x0A0000 + 0x10000 * ch
def F.DDR_CFG_EN (ch : Nat) : Fld := ⟨Reg.DDR_CFG ch, 0, 1⟩
def F.DDR_CFG_RATE (ch : Nat) : Fld := ⟨Reg.DDR_CFG ch, 1, 4⟩
def F.DDR_CFG_DIMMS (ch : Nat) : Fld := ⟨Reg.DDR_CFG ch, 5, 1⟩
def F.DDR_CFG_MODULE (ch : Nat) : Fld := ⟨Reg.DDR_CFG ch, 6, 2⟩
def F.DDR_CFG_DEV_X8 (ch : Nat) : Fld := ⟨Reg.DDR_CFG ch, 8, 1⟩
def F.DDR_CFG_RANKS_M1 (ch : Nat) : Fld := ⟨Reg.DDR_CFG ch, 9, 2⟩
def F.DDR_CFG_LRANKS_M1 (ch : Nat) : Fld := ⟨Reg.DDR_CFG ch, 11, 2⟩
def F.DDR_CFG_ORDER (ch : Nat) : Fld := ⟨Reg.DDR_CFG ch, 13, 2⟩
def F.DDR_CFG_SPARE_EN (ch : Nat) : Fld := ⟨Reg.DDR_CFG ch, 15, 1⟩
def F.DDR_CFG_SPARE_RANK (ch : Nat) : Fld := ⟨Reg.DDR_CFG ch, 16, 2⟩
def F.DDR_CFG_REF_MODE (ch : Nat) : Fld := ⟨Reg.DDR_CFG ch, 18, 1⟩
def F.DDR_CFG_REINIT (ch : Nat) : Fld := ⟨Reg.DDR_CFG ch, 19, 1⟩
/-- DDR_GEOM (spec/15_ddr5_controllers.md). -/
def Reg.DDR_GEOM (ch : Nat) : Nat := 0x0A0001 + 0x10000 * ch
def F.DDR_GEOM_ROWBITS (ch : Nat) : Fld := ⟨Reg.DDR_GEOM ch, 0, 5⟩
def F.DDR_GEOM_COLBITS (ch : Nat) : Fld := ⟨Reg.DDR_GEOM ch, 5, 3⟩
def F.DDR_GEOM_BGBITS (ch : Nat) : Fld := ⟨Reg.DDR_GEOM ch, 8, 2⟩
def F.DDR_GEOM_BABITS (ch : Nat) : Fld := ⟨Reg.DDR_GEOM ch, 10, 2⟩
/-- DDR_TIMING (spec/15_ddr5_controllers.md). -/
def Reg.DDR_TIMING (ch : Nat) : Nat := 0x0A0002 + 0x10000 * ch
def F.DDR_TIMING_CL (ch : Nat) : Fld := ⟨Reg.DDR_TIMING ch, 0, 7⟩
def F.DDR_TIMING_RCD (ch : Nat) : Fld := ⟨Reg.DDR_TIMING ch, 7, 7⟩
def F.DDR_TIMING_RP (ch : Nat) : Fld := ⟨Reg.DDR_TIMING ch, 14, 7⟩
def F.DDR_TIMING_RAS (ch : Nat) : Fld := ⟨Reg.DDR_TIMING ch, 21, 8⟩
/-- DDR_STATUS (spec/15_ddr5_controllers.md). -/
def Reg.DDR_STATUS (ch : Nat) : Nat := 0x0A0003 + 0x10000 * ch
def F.DDR_STATUS_STATE (ch : Nat) : Fld := ⟨Reg.DDR_STATUS ch, 0, 3⟩
def F.DDR_STATUS_READ_ONLY (ch : Nat) : Fld := ⟨Reg.DDR_STATUS ch, 3, 1⟩
def F.DDR_STATUS_MIGRATING (ch : Nat) : Fld := ⟨Reg.DDR_STATUS ch, 4, 1⟩
def F.DDR_STATUS_KEPT (ch : Nat) : Fld := ⟨Reg.DDR_STATUS ch, 5, 1⟩
def F.DDR_STATUS_REFUSED (ch : Nat) : Fld := ⟨Reg.DDR_STATUS ch, 6, 1⟩
def F.DDR_STATUS_RANGE_SEEN (ch : Nat) : Fld := ⟨Reg.DDR_STATUS ch, 7, 1⟩
def F.DDR_STATUS_TRAIN_FAIL (ch : Nat) : Fld := ⟨Reg.DDR_STATUS ch, 8, 4⟩
/-- DDR_RANK_MAP (spec/15_ddr5_controllers.md). -/
def Reg.DDR_RANK_MAP (ch : Nat) : Nat := 0x0A0004 + 0x10000 * ch
def F.DDR_RANK_MAP_MAP (ch : Nat) : Fld := ⟨Reg.DDR_RANK_MAP ch, 0, 8⟩
def F.DDR_RANK_MAP_RETIRED (ch : Nat) : Fld := ⟨Reg.DDR_RANK_MAP ch, 8, 4⟩
def F.DDR_RANK_MAP_SPARE_FREE (ch : Nat) : Fld := ⟨Reg.DDR_RANK_MAP ch, 12, 1⟩
/-- DDR_RAS_CFG (spec/15_ddr5_controllers.md). -/
def Reg.DDR_RAS_CFG (ch : Nat) : Nat := 0x0A0005 + 0x10000 * ch
def F.DDR_RAS_CFG_READ_RETRY (ch : Nat) : Fld := ⟨Reg.DDR_RAS_CFG ch, 0, 2⟩
def F.DDR_RAS_CFG_CA_RETRY (ch : Nat) : Fld := ⟨Reg.DDR_RAS_CFG ch, 2, 2⟩
def F.DDR_RAS_CFG_RETIRE_THR (ch : Nat) : Fld := ⟨Reg.DDR_RAS_CFG ch, 4, 12⟩
def F.DDR_RAS_CFG_RETIRE_AUTO (ch : Nat) : Fld := ⟨Reg.DDR_RAS_CFG ch, 16, 1⟩
def F.DDR_RAS_CFG_MIG_GAP (ch : Nat) : Fld := ⟨Reg.DDR_RAS_CFG ch, 17, 8⟩
/-- DDR_MIG (spec/15_ddr5_controllers.md). -/
def Reg.DDR_MIG (ch : Nat) : Nat := 0x0A0006 + 0x10000 * ch
def F.DDR_MIG_CP (ch : Nat) : Fld := ⟨Reg.DDR_MIG ch, 0, 32⟩
def F.DDR_MIG_FROM (ch : Nat) : Fld := ⟨Reg.DDR_MIG ch, 32, 2⟩
def F.DDR_MIG_DONE (ch : Nat) : Fld := ⟨Reg.DDR_MIG ch, 34, 1⟩
/-- DDR_MIG_CTRL (spec/15_ddr5_controllers.md). -/
def Reg.DDR_MIG_CTRL (ch : Nat) : Nat := 0x0A0007 + 0x10000 * ch
def F.DDR_MIG_CTRL_RANK (ch : Nat) : Fld := ⟨Reg.DDR_MIG_CTRL ch, 0, 2⟩
def F.DDR_MIG_CTRL_START (ch : Nat) : Fld := ⟨Reg.DDR_MIG_CTRL ch, 2, 1⟩
/-- DDR_ERRQ (spec/15_ddr5_controllers.md). -/
def Reg.DDR_ERRQ (ch : Nat) : Nat := 0x0A0008 + 0x10000 * ch
def F.DDR_ERRQ_LINE (ch : Nat) : Fld := ⟨Reg.DDR_ERRQ ch, 0, 32⟩
def F.DDR_ERRQ_KIND (ch : Nat) : Fld := ⟨Reg.DDR_ERRQ ch, 32, 3⟩
def F.DDR_ERRQ_EMPTY (ch : Nat) : Fld := ⟨Reg.DDR_ERRQ ch, 35, 1⟩
/-- DDR_ERRQ_STATUS (spec/15_ddr5_controllers.md). -/
def Reg.DDR_ERRQ_STATUS (ch : Nat) : Nat := 0x0A0009 + 0x10000 * ch
def F.DDR_ERRQ_STATUS_LEVEL (ch : Nat) : Fld := ⟨Reg.DDR_ERRQ_STATUS ch, 0, 7⟩
def F.DDR_ERRQ_STATUS_OVERFLOW (ch : Nat) : Fld := ⟨Reg.DDR_ERRQ_STATUS ch, 7, 1⟩
/-- DDR_RANK_ERR_p (spec/15_ddr5_controllers.md). -/
def Reg.DDR_RANK_ERR (ch p : Nat) : Nat := 0x0A0010 + 0x10000 * ch + p
def F.DDR_RANK_ERR_PERSIST (ch p : Nat) : Fld := ⟨Reg.DDR_RANK_ERR ch p, 0, 12⟩
def F.DDR_RANK_ERR_TRANSIENT (ch p : Nat) : Fld := ⟨Reg.DDR_RANK_ERR ch p, 12, 12⟩
def F.DDR_RANK_ERR_CA (ch p : Nat) : Fld := ⟨Reg.DDR_RANK_ERR ch p, 24, 12⟩
/-- MIE_CTRL (spec/16_memory_integrity_and_encryption.md). -/
def Reg.MIE_CTRL : Nat := 0x0C0000
def F.MIE_CTRL_TEST_EN : Fld := ⟨Reg.MIE_CTRL, 0, 1⟩
/-- MIE_STATUS (spec/16_memory_integrity_and_encryption.md). -/
def Reg.MIE_STATUS : Nat := 0x0C0001
def F.MIE_STATUS_REFUSED : Fld := ⟨Reg.MIE_STATUS, 0, 1⟩
/-- MIE_FLIP_SEL (spec/16_memory_integrity_and_encryption.md). -/
def Reg.MIE_FLIP_SEL : Nat := 0x0C0002
def F.MIE_FLIP_SEL_KIND : Fld := ⟨Reg.MIE_FLIP_SEL, 0, 4⟩
def F.MIE_FLIP_SEL_INDEX : Fld := ⟨Reg.MIE_FLIP_SEL, 4, 12⟩
def F.MIE_FLIP_SEL_WORD : Fld := ⟨Reg.MIE_FLIP_SEL, 16, 4⟩
def F.MIE_FLIP_SEL_ARM : Fld := ⟨Reg.MIE_FLIP_SEL, 20, 1⟩
def F.MIE_FLIP_SEL_DONE : Fld := ⟨Reg.MIE_FLIP_SEL, 21, 1⟩
def F.MIE_FLIP_SEL_REGION : Fld := ⟨Reg.MIE_FLIP_SEL, 22, 4⟩
def F.MIE_FLIP_SEL_CELL : Fld := ⟨Reg.MIE_FLIP_SEL, 26, 6⟩
/-- MIE_FLIPMASK (spec/16_memory_integrity_and_encryption.md). -/
def Reg.MIE_FLIPMASK : Nat := 0x0C0003
def F.MIE_FLIPMASK_MASK : Fld := ⟨Reg.MIE_FLIPMASK, 0, 36⟩
/-- MIE_FLIP_CHK (spec/16_memory_integrity_and_encryption.md). -/
def Reg.MIE_FLIP_CHK : Nat := 0x0C0004
def F.MIE_FLIP_CHK_CHK : Fld := ⟨Reg.MIE_FLIP_CHK, 0, 4⟩
/-- MIE_HALT_INFO (spec/16_memory_integrity_and_encryption.md). -/
def Reg.MIE_HALT_INFO : Nat := 0x0C0005
def F.MIE_HALT_INFO_LINE : Fld := ⟨Reg.MIE_HALT_INFO, 0, 32⟩
def F.MIE_HALT_INFO_CH : Fld := ⟨Reg.MIE_HALT_INFO, 32, 1⟩
def F.MIE_HALT_INFO_CAUSE : Fld := ⟨Reg.MIE_HALT_INFO, 33, 3⟩
/-- MIE_CH_c_CFG (spec/16_memory_integrity_and_encryption.md). -/
def Reg.MIE_CH_CFG (c : Nat) : Nat := 0x0C0100 + 0x40 * c
def F.MIE_CH_CFG_MODE (c : Nat) : Fld := ⟨Reg.MIE_CH_CFG c, 0, 2⟩
def F.MIE_CH_CFG_INIT (c : Nat) : Fld := ⟨Reg.MIE_CH_CFG c, 2, 1⟩
/-- MIE_CH_c_STATUS (spec/16_memory_integrity_and_encryption.md). -/
def Reg.MIE_CH_STATUS (c : Nat) : Nat := 0x0C0101 + 0x40 * c
def F.MIE_CH_STATUS_INIT_BUSY (c : Nat) : Fld := ⟨Reg.MIE_CH_STATUS c, 0, 1⟩
def F.MIE_CH_STATUS_READ_ONLY (c : Nat) : Fld := ⟨Reg.MIE_CH_STATUS c, 1, 1⟩
def F.MIE_CH_STATUS_REKEY_BUSY (c : Nat) : Fld := ⟨Reg.MIE_CH_STATUS c, 2, 1⟩
def F.MIE_CH_STATUS_LOST (c : Nat) : Fld := ⟨Reg.MIE_CH_STATUS c, 3, 1⟩
def F.MIE_CH_STATUS_REFUSED (c : Nat) : Fld := ⟨Reg.MIE_CH_STATUS c, 4, 1⟩
def F.MIE_CH_STATUS_LEVELS (c : Nat) : Fld := ⟨Reg.MIE_CH_STATUS c, 5, 4⟩
/-- MIE_CH_c_PTR (spec/16_memory_integrity_and_encryption.md). -/
def Reg.MIE_CH_PTR (c : Nat) : Nat := 0x0C0102 + 0x40 * c
def F.MIE_CH_PTR_PTR (c : Nat) : Fld := ⟨Reg.MIE_CH_PTR c, 0, 32⟩
/-- MIE_CH_c_STAT_n (spec/16_memory_integrity_and_encryption.md). -/
def Reg.MIE_CH_STAT (c n : Nat) : Nat := 0x0C0110 + 0x40 * c + n
def F.MIE_CH_STAT_COUNT (c n : Nat) : Fld := ⟨Reg.MIE_CH_STAT c n, 0, 36⟩
/-- PWR_RAIL (spec/17_power_and_clocks.md). -/
def Reg.PWR_RAIL : Nat := 0x030000
def F.PWR_RAIL_VCCINT_OK : Fld := ⟨Reg.PWR_RAIL, 0, 1⟩
def F.PWR_RAIL_VCCAUX_OK : Fld := ⟨Reg.PWR_RAIL, 1, 1⟩
def F.PWR_RAIL_VTT_XCV_OK : Fld := ⟨Reg.PWR_RAIL, 2, 1⟩
def F.PWR_RAIL_VCCA_PLL_OK : Fld := ⟨Reg.PWR_RAIL, 3, 1⟩
def F.PWR_RAIL_VCCIO_OK : Fld := ⟨Reg.PWR_RAIL, 4, 2⟩
def F.PWR_RAIL_VDDQ_OK : Fld := ⟨Reg.PWR_RAIL, 6, 1⟩
def F.PWR_RAIL_SEQ_ERR : Fld := ⟨Reg.PWR_RAIL, 7, 1⟩
/-- PWR_TIMER_t (spec/17_power_and_clocks.md). -/
def Reg.PWR_TIMER (t : Nat) : Nat := 0x030010 + t
def F.PWR_TIMER_DOM (t : Nat) : Fld := ⟨Reg.PWR_TIMER t, 0, 6⟩
def F.PWR_TIMER_EN (t : Nat) : Fld := ⟨Reg.PWR_TIMER t, 6, 1⟩
def F.PWR_TIMER_DELAY (t : Nat) : Fld := ⟨Reg.PWR_TIMER t, 7, 29⟩
/-- PWR_PINWAKE_n (spec/17_power_and_clocks.md). -/
def Reg.PWR_PINWAKE (n : Nat) : Nat := 0x030020 + n
def F.PWR_PINWAKE_BANK (n : Nat) : Fld := ⟨Reg.PWR_PINWAKE n, 0, 1⟩
def F.PWR_PINWAKE_PIN (n : Nat) : Fld := ⟨Reg.PWR_PINWAKE n, 1, 6⟩
def F.PWR_PINWAKE_EDGE (n : Nat) : Fld := ⟨Reg.PWR_PINWAKE n, 7, 2⟩
def F.PWR_PINWAKE_DOM (n : Nat) : Fld := ⟨Reg.PWR_PINWAKE n, 9, 6⟩
def F.PWR_PINWAKE_SEEN (n : Nat) : Fld := ⟨Reg.PWR_PINWAKE n, 15, 1⟩
/-- PWR_DOM_d_CFG (spec/17_power_and_clocks.md). -/
def Reg.PWR_DOM_CFG (d : Nat) : Nat := 0x030100 + 0x4 * d
def F.PWR_DOM_CFG_REG_REQ (d : Nat) : Fld := ⟨Reg.PWR_DOM_CFG d, 0, 1⟩
def F.PWR_DOM_CFG_AUTO_SLEEP (d : Nat) : Fld := ⟨Reg.PWR_DOM_CFG d, 1, 2⟩
def F.PWR_DOM_CFG_AUTO_RESTORE (d : Nat) : Fld := ⟨Reg.PWR_DOM_CFG d, 3, 1⟩
def F.PWR_DOM_CFG_QUIESCE (d : Nat) : Fld := ⟨Reg.PWR_DOM_CFG d, 4, 12⟩
/-- PWR_DOM_d_REQ (spec/17_power_and_clocks.md). -/
def Reg.PWR_DOM_REQ (d : Nat) : Nat := 0x030101 + 0x4 * d
def F.PWR_DOM_REQ_TARGET (d : Nat) : Fld := ⟨Reg.PWR_DOM_REQ d, 0, 2⟩
def F.PWR_DOM_REQ_GO (d : Nat) : Fld := ⟨Reg.PWR_DOM_REQ d, 2, 1⟩
def F.PWR_DOM_REQ_PERF (d : Nat) : Fld := ⟨Reg.PWR_DOM_REQ d, 3, 2⟩
def F.PWR_DOM_REQ_PERF_GO (d : Nat) : Fld := ⟨Reg.PWR_DOM_REQ d, 5, 1⟩
def F.PWR_DOM_REQ_RESTORE (d : Nat) : Fld := ⟨Reg.PWR_DOM_REQ d, 6, 1⟩
/-- PWR_DOM_d_STATUS (spec/17_power_and_clocks.md). -/
def Reg.PWR_DOM_STATUS (d : Nat) : Nat := 0x030102 + 0x4 * d
def F.PWR_DOM_STATUS_STATE (d : Nat) : Fld := ⟨Reg.PWR_DOM_STATUS d, 0, 2⟩
def F.PWR_DOM_STATUS_PHASE (d : Nat) : Fld := ⟨Reg.PWR_DOM_STATUS d, 2, 2⟩
def F.PWR_DOM_STATUS_LEVEL (d : Nat) : Fld := ⟨Reg.PWR_DOM_STATUS d, 4, 2⟩
def F.PWR_DOM_STATUS_ON_OSC (d : Nat) : Fld := ⟨Reg.PWR_DOM_STATUS d, 6, 1⟩
def F.PWR_DOM_STATUS_LAST_REFUSER (d : Nat) : Fld := ⟨Reg.PWR_DOM_STATUS d, 7, 4⟩
def F.PWR_DOM_STATUS_LAST_WAKE (d : Nat) : Fld := ⟨Reg.PWR_DOM_STATUS d, 11, 3⟩
def F.PWR_DOM_STATUS_WAKE_PENDING (d : Nat) : Fld := ⟨Reg.PWR_DOM_STATUS d, 14, 1⟩
/-- PWR_DOM_d_COUNT (spec/17_power_and_clocks.md). -/
def Reg.PWR_DOM_COUNT (d : Nat) : Nat := 0x030103 + 0x4 * d
def F.PWR_DOM_COUNT_REFUSALS (d : Nat) : Fld := ⟨Reg.PWR_DOM_COUNT d, 0, 16⟩
def F.PWR_DOM_COUNT_ABORTS (d : Nat) : Fld := ⟨Reg.PWR_DOM_COUNT d, 16, 16⟩
/-- CKM_XIN (spec/17_power_and_clocks.md). -/
def Reg.CKM_XIN : Nat := 0x040000
def F.CKM_XIN_MODE : Fld := ⟨Reg.CKM_XIN, 0, 2⟩
def F.CKM_XIN_FREQ : Fld := ⟨Reg.CKM_XIN, 2, 18⟩
def F.CKM_XIN_TOL : Fld := ⟨Reg.CKM_XIN, 20, 4⟩
/-- CKM_MON (spec/17_power_and_clocks.md). -/
def Reg.CKM_MON : Nat := 0x040001
def F.CKM_MON_COUNT : Fld := ⟨Reg.CKM_MON, 0, 11⟩
def F.CKM_MON_EXPECT : Fld := ⟨Reg.CKM_MON, 11, 11⟩
def F.CKM_MON_ACTIVE : Fld := ⟨Reg.CKM_MON, 22, 1⟩
def F.CKM_MON_FAILED : Fld := ⟨Reg.CKM_MON, 23, 1⟩
def F.CKM_MON_FAIL_SEEN : Fld := ⟨Reg.CKM_MON, 24, 1⟩
def F.CKM_MON_RESTORE : Fld := ⟨Reg.CKM_MON, 25, 1⟩
/-- CKM_SYS (spec/17_power_and_clocks.md). -/
def Reg.CKM_SYS : Nat := 0x040002
def F.CKM_SYS_REF : Fld := ⟨Reg.CKM_SYS, 0, 1⟩
def F.CKM_SYS_LOCK : Fld := ⟨Reg.CKM_SYS, 1, 1⟩
def F.CKM_SYS_ON_OSC : Fld := ⟨Reg.CKM_SYS, 2, 1⟩
/-- CKM_SYN_s_CFG (spec/17_power_and_clocks.md). -/
def Reg.CKM_SYN_CFG (s : Nat) : Nat := 0x040010 + 0x2 * s
def F.CKM_SYN_CFG_EN (s : Nat) : Fld := ⟨Reg.CKM_SYN_CFG s, 0, 1⟩
def F.CKM_SYN_CFG_REF (s : Nat) : Fld := ⟨Reg.CKM_SYN_CFG s, 1, 1⟩
def F.CKM_SYN_CFG_MULT (s : Nat) : Fld := ⟨Reg.CKM_SYN_CFG s, 2, 8⟩
def F.CKM_SYN_CFG_PDIV (s : Nat) : Fld := ⟨Reg.CKM_SYN_CFG s, 10, 4⟩
def F.CKM_SYN_CFG_ODIV (s : Nat) : Fld := ⟨Reg.CKM_SYN_CFG s, 14, 7⟩
/-- CKM_SYN_s_STATUS (spec/17_power_and_clocks.md). -/
def Reg.CKM_SYN_STATUS (s : Nat) : Nat := 0x040011 + 0x2 * s
def F.CKM_SYN_STATUS_LOCK (s : Nat) : Fld := ⟨Reg.CKM_SYN_STATUS s, 0, 1⟩
def F.CKM_SYN_STATUS_UNLOCK_SEEN (s : Nat) : Fld := ⟨Reg.CKM_SYN_STATUS s, 1, 1⟩
def F.CKM_SYN_STATUS_FAILED_OVER (s : Nat) : Fld := ⟨Reg.CKM_SYN_STATUS s, 2, 1⟩
def F.CKM_SYN_STATUS_REFUSED (s : Nat) : Fld := ⟨Reg.CKM_SYN_STATUS s, 3, 1⟩
/-- DRN_CMD (spec/18_drone_command_interface.md). -/
def Reg.DRN_CMD : Nat := 0x000000
def F.DRN_CMD_WORD : Fld := ⟨Reg.DRN_CMD, 0, 36⟩
/-- DRN_REPLY (spec/18_drone_command_interface.md). -/
def Reg.DRN_REPLY : Nat := 0x000001
def F.DRN_REPLY_WORD : Fld := ⟨Reg.DRN_REPLY, 0, 36⟩
/-- DRN_MBOX_STATUS (spec/18_drone_command_interface.md). -/
def Reg.DRN_MBOX_STATUS : Nat := 0x000002
def F.DRN_MBOX_STATUS_READY : Fld := ⟨Reg.DRN_MBOX_STATUS, 0, 1⟩
def F.DRN_MBOX_STATUS_RUNNING : Fld := ⟨Reg.DRN_MBOX_STATUS, 1, 1⟩
def F.DRN_MBOX_STATUS_OVERRUN : Fld := ⟨Reg.DRN_MBOX_STATUS, 2, 1⟩
def F.DRN_MBOX_STATUS_TAG : Fld := ⟨Reg.DRN_MBOX_STATUS, 3, 6⟩
def F.DRN_MBOX_STATUS_WORDS : Fld := ⟨Reg.DRN_MBOX_STATUS, 9, 8⟩
/-- DRN_PORT_AUTH (spec/18_drone_command_interface.md). -/
def Reg.DRN_PORT_AUTH : Nat := 0x000003
def F.DRN_PORT_AUTH_AUTH : Fld := ⟨Reg.DRN_PORT_AUTH, 0, 10⟩
/-- DRN_EVENT_CFG (spec/18_drone_command_interface.md). -/
def Reg.DRN_EVENT_CFG : Nat := 0x000004
def F.DRN_EVENT_CFG_DEST_ROUTER : Fld := ⟨Reg.DRN_EVENT_CFG, 0, 8⟩
def F.DRN_EVENT_CFG_DEST_PORT : Fld := ⟨Reg.DRN_EVENT_CFG, 8, 3⟩
def F.DRN_EVENT_CFG_EN : Fld := ⟨Reg.DRN_EVENT_CFG, 11, 1⟩
def F.DRN_EVENT_CFG_SEV : Fld := ⟨Reg.DRN_EVENT_CFG, 12, 2⟩
def F.DRN_EVENT_CFG_IRQ_SEV : Fld := ⟨Reg.DRN_EVENT_CFG, 14, 2⟩
/-- DRN_LOG_STATUS (spec/18_drone_command_interface.md). -/
def Reg.DRN_LOG_STATUS : Nat := 0x000005
def F.DRN_LOG_STATUS_NEWEST : Fld := ⟨Reg.DRN_LOG_STATUS, 0, 20⟩
def F.DRN_LOG_STATUS_LEVEL : Fld := ⟨Reg.DRN_LOG_STATUS, 20, 13⟩
def F.DRN_LOG_STATUS_WRAPPED : Fld := ⟨Reg.DRN_LOG_STATUS, 33, 1⟩
/-- DRN_FW (spec/18_drone_command_interface.md). -/
def Reg.DRN_FW : Nat := 0x000006
def F.DRN_FW_VERSION : Fld := ⟨Reg.DRN_FW, 0, 24⟩
/-- HMN_TEMP (spec/18_drone_command_interface.md). -/
def Reg.HMN_TEMP : Nat := 0x110000
def F.HMN_TEMP_TEMP : Fld := ⟨Reg.HMN_TEMP, 0, 36⟩
/-- HMN_RAIL_r (spec/18_drone_command_interface.md). -/
def Reg.HMN_RAIL (r : Nat) : Nat := 0x110001 + r
def F.HMN_RAIL_MV (r : Nat) : Fld := ⟨Reg.HMN_RAIL r, 0, 12⟩
def F.HMN_RAIL_MIN (r : Nat) : Fld := ⟨Reg.HMN_RAIL r, 12, 12⟩
def F.HMN_RAIL_MAX (r : Nat) : Fld := ⟨Reg.HMN_RAIL r, 24, 12⟩
/-- HMN_CFG (spec/18_drone_command_interface.md). -/
def Reg.HMN_CFG : Nat := 0x110008
def F.HMN_CFG_TWARN : Fld := ⟨Reg.HMN_CFG, 0, 9⟩
def F.HMN_CFG_TCRIT : Fld := ⟨Reg.HMN_CFG, 9, 9⟩
def F.HMN_CFG_THROTTLE : Fld := ⟨Reg.HMN_CFG, 18, 1⟩
def F.HMN_CFG_RAIL_TOL : Fld := ⟨Reg.HMN_CFG, 19, 4⟩
/-- HMN_STATUS (spec/18_drone_command_interface.md). -/
def Reg.HMN_STATUS : Nat := 0x110009
def F.HMN_STATUS_WARN : Fld := ⟨Reg.HMN_STATUS, 0, 4⟩
def F.HMN_STATUS_CRIT : Fld := ⟨Reg.HMN_STATUS, 4, 4⟩
def F.HMN_STATUS_RAIL : Fld := ⟨Reg.HMN_STATUS, 8, 7⟩
def F.HMN_STATUS_ALERT : Fld := ⟨Reg.HMN_STATUS, 15, 1⟩
def F.HMN_STATUS_SEEN : Fld := ⟨Reg.HMN_STATUS, 16, 1⟩
/-- SEC_STATUS (spec/19_security_lifecycle.md). -/
def Reg.SEC_STATUS : Nat := 0x020000
def F.SEC_STATUS_LEVEL : Fld := ⟨Reg.SEC_STATUS, 0, 2⟩
def F.SEC_STATUS_NEXT_LEVEL : Fld := ⟨Reg.SEC_STATUS, 2, 2⟩
def F.SEC_STATUS_OWNER_SET : Fld := ⟨Reg.SEC_STATUS, 4, 1⟩
def F.SEC_STATUS_DEVKEY_SET : Fld := ⟨Reg.SEC_STATUS, 5, 1⟩
def F.SEC_STATUS_UNLOCKED : Fld := ⟨Reg.SEC_STATUS, 6, 1⟩
def F.SEC_STATUS_EPOCH_FUSE : Fld := ⟨Reg.SEC_STATUS, 7, 7⟩
def F.SEC_STATUS_IMAGE_EPOCH : Fld := ⟨Reg.SEC_STATUS, 14, 7⟩
def F.SEC_STATUS_DEBUG : Fld := ⟨Reg.SEC_STATUS, 21, 2⟩
/-- SEC_AUTH_FUSE (spec/19_security_lifecycle.md). -/
def Reg.SEC_AUTH_FUSE : Nat := 0x020001
def F.SEC_AUTH_FUSE_LOCKED : Fld := ⟨Reg.SEC_AUTH_FUSE, 0, 10⟩
def F.SEC_AUTH_FUSE_SEALED : Fld := ⟨Reg.SEC_AUTH_FUSE, 10, 10⟩
/-- SEC_UID_LO (spec/19_security_lifecycle.md). -/
def Reg.SEC_UID_LO : Nat := 0x020002
def F.SEC_UID_LO_UID : Fld := ⟨Reg.SEC_UID_LO, 0, 36⟩
/-- SEC_UID_HI (spec/19_security_lifecycle.md). -/
def Reg.SEC_UID_HI : Nat := 0x020003
def F.SEC_UID_HI_UID : Fld := ⟨Reg.SEC_UID_HI, 0, 36⟩
/-- SEC_UNLOCK (spec/19_security_lifecycle.md). -/
def Reg.SEC_UNLOCK : Nat := 0x020004
def F.SEC_UNLOCK_FAILS : Fld := ⟨Reg.SEC_UNLOCK, 0, 8⟩
def F.SEC_UNLOCK_LOCKOUT : Fld := ⟨Reg.SEC_UNLOCK, 8, 1⟩
def F.SEC_UNLOCK_NONCE_VALID : Fld := ⟨Reg.SEC_UNLOCK, 9, 1⟩
/-- OBE_PMC_CFG (spec/20_debug_and_performance_counters.md). -/
def Reg.OBE_PMC_CFG (core : Nat) : Nat := 0x200100 + 0x10000 * core
def F.OBE_PMC_CFG_MODE (core : Nat) : Fld := ⟨Reg.OBE_PMC_CFG core, 0, 1⟩
def F.OBE_PMC_CFG_EN (core : Nat) : Fld := ⟨Reg.OBE_PMC_CFG core, 1, 1⟩
def F.OBE_PMC_CFG_CLEAR (core : Nat) : Fld := ⟨Reg.OBE_PMC_CFG core, 2, 1⟩
def F.OBE_PMC_CFG_REFUSED (core : Nat) : Fld := ⟨Reg.OBE_PMC_CFG core, 3, 1⟩
/-- OBE_PMC_USER (spec/20_debug_and_performance_counters.md). -/
def Reg.OBE_PMC_USER (core : Nat) : Nat := 0x200101 + 0x10000 * core
def F.OBE_PMC_USER_READ (core : Nat) : Fld := ⟨Reg.OBE_PMC_USER core, 0, 1⟩
def F.OBE_PMC_USER_WRITE (core : Nat) : Fld := ⟨Reg.OBE_PMC_USER core, 1, 1⟩
/-- OBE_PMC_HI (spec/20_debug_and_performance_counters.md). -/
def Reg.OBE_PMC_HI (core : Nat) : Nat := 0x200102 + 0x10000 * core
def F.OBE_PMC_HI_HI (core : Nat) : Fld := ⟨Reg.OBE_PMC_HI core, 0, 28⟩
/-- OBE_PMC_OVF (spec/20_debug_and_performance_counters.md). -/
def Reg.OBE_PMC_OVF (core : Nat) : Nat := 0x200103 + 0x10000 * core
def F.OBE_PMC_OVF_CNT (core : Nat) : Fld := ⟨Reg.OBE_PMC_OVF core, 0, 8⟩
def F.OBE_PMC_OVF_CYC (core : Nat) : Fld := ⟨Reg.OBE_PMC_OVF core, 8, 1⟩
/-- OBE_PMC_INV_LO (spec/20_debug_and_performance_counters.md). -/
def Reg.OBE_PMC_INV_LO (core : Nat) : Nat := 0x200104 + 0x10000 * core
def F.OBE_PMC_INV_LO_INVALID (core : Nat) : Fld := ⟨Reg.OBE_PMC_INV_LO core, 0, 36⟩
/-- OBE_PMC_INV_HI (spec/20_debug_and_performance_counters.md). -/
def Reg.OBE_PMC_INV_HI (core : Nat) : Nat := 0x200105 + 0x10000 * core
def F.OBE_PMC_INV_HI_INVALID (core : Nat) : Fld := ⟨Reg.OBE_PMC_INV_HI core, 0, 12⟩
/-- OBE_PMC_CYC (spec/20_debug_and_performance_counters.md). -/
def Reg.OBE_PMC_CYC (core : Nat) : Nat := 0x200108 + 0x10000 * core
def F.OBE_PMC_CYC_COUNT (core : Nat) : Fld := ⟨Reg.OBE_PMC_CYC core, 0, 36⟩
/-- OBE_PMC_SEL_i (spec/20_debug_and_performance_counters.md). -/
def Reg.OBE_PMC_SEL (core i : Nat) : Nat := 0x200110 + 0x10000 * core + 0x2 * i
def F.OBE_PMC_SEL_EVENT (core i : Nat) : Fld := ⟨Reg.OBE_PMC_SEL core i, 0, 6⟩
def F.OBE_PMC_SEL_EN (core i : Nat) : Fld := ⟨Reg.OBE_PMC_SEL core i, 6, 1⟩
def F.OBE_PMC_SEL_OVF_IRQ (core i : Nat) : Fld := ⟨Reg.OBE_PMC_SEL core i, 7, 1⟩
/-- OBE_PMC_CNT_i (spec/20_debug_and_performance_counters.md). -/
def Reg.OBE_PMC_CNT (core i : Nat) : Nat := 0x200111 + 0x10000 * core + 0x2 * i
def F.OBE_PMC_CNT_COUNT (core i : Nat) : Fld := ⟨Reg.OBE_PMC_CNT core i, 0, 36⟩
/-- OBE_PMC_EV_n (spec/20_debug_and_performance_counters.md). -/
def Reg.OBE_PMC_EV (core n : Nat) : Nat := 0x200140 + 0x10000 * core + n
def F.OBE_PMC_EV_COUNT (core n : Nat) : Fld := ⟨Reg.OBE_PMC_EV core n, 0, 36⟩
/-- PMC_CFG (spec/20_debug_and_performance_counters.md). -/
def Reg.PMC_CFG : Nat := 0x120000
def F.PMC_CFG_MODE : Fld := ⟨Reg.PMC_CFG, 0, 1⟩
def F.PMC_CFG_EN : Fld := ⟨Reg.PMC_CFG, 1, 1⟩
def F.PMC_CFG_CLEAR : Fld := ⟨Reg.PMC_CFG, 2, 1⟩
def F.PMC_CFG_DDR_SEL : Fld := ⟨Reg.PMC_CFG, 4, 2⟩
def F.PMC_CFG_EDGE_SEL : Fld := ⟨Reg.PMC_CFG, 6, 2⟩
/-- PMC_HI (spec/20_debug_and_performance_counters.md). -/
def Reg.PMC_HI : Nat := 0x120002
def F.PMC_HI_HI : Fld := ⟨Reg.PMC_HI, 0, 28⟩
/-- PMC_OVF (spec/20_debug_and_performance_counters.md). -/
def Reg.PMC_OVF : Nat := 0x120003
def F.PMC_OVF_CNT : Fld := ⟨Reg.PMC_OVF, 0, 8⟩
def F.PMC_OVF_CYC : Fld := ⟨Reg.PMC_OVF, 8, 1⟩
/-- PMC_INV_LO (spec/20_debug_and_performance_counters.md). -/
def Reg.PMC_INV_LO : Nat := 0x120004
def F.PMC_INV_LO_INVALID : Fld := ⟨Reg.PMC_INV_LO, 0, 36⟩
/-- PMC_INV_HI (spec/20_debug_and_performance_counters.md). -/
def Reg.PMC_INV_HI : Nat := 0x120005
def F.PMC_INV_HI_INVALID : Fld := ⟨Reg.PMC_INV_HI, 0, 12⟩
/-- PMC_CYC (spec/20_debug_and_performance_counters.md). -/
def Reg.PMC_CYC : Nat := 0x120008
def F.PMC_CYC_COUNT : Fld := ⟨Reg.PMC_CYC, 0, 36⟩
/-- PMC_SEL_i (spec/20_debug_and_performance_counters.md). -/
def Reg.PMC_SEL (i : Nat) : Nat := 0x120010 + 0x2 * i
def F.PMC_SEL_EVENT (i : Nat) : Fld := ⟨Reg.PMC_SEL i, 0, 6⟩
def F.PMC_SEL_EN (i : Nat) : Fld := ⟨Reg.PMC_SEL i, 6, 1⟩
/-- PMC_CNT_i (spec/20_debug_and_performance_counters.md). -/
def Reg.PMC_CNT (i : Nat) : Nat := 0x120011 + 0x2 * i
def F.PMC_CNT_COUNT (i : Nat) : Fld := ⟨Reg.PMC_CNT i, 0, 36⟩
/-- PMC_EV_n (spec/20_debug_and_performance_counters.md). -/
def Reg.PMC_EV (n : Nat) : Nat := 0x120040 + n
def F.PMC_EV_COUNT (n : Nat) : Fld := ⟨Reg.PMC_EV n, 0, 36⟩

/-- The CFG_ registers. -/
def regRowsCFG : List RegRow := [
  ⟨0x010800, [], [⟨0, 11, .wo, 0⟩, ⟨11, 1, .wo, 0⟩, ⟨12, 1, .wo, 0⟩]⟩,
  ⟨0x010801, [], [⟨0, 1, .ro, 0⟩, ⟨1, 1, .w1c, 0⟩, ⟨2, 1, .w1c, 0⟩, ⟨3, 11, .ro, 0⟩, ⟨14, 10, .ro, 0⟩, ⟨24, 8, .ro, 0⟩]⟩,
  ⟨0x010802, [], [⟨0, 11, .rw, 0⟩, ⟨11, 3, .rw, 0⟩]⟩,
  ⟨0x010803, [], [⟨0, 1, .ro, 0⟩, ⟨1, 1, .ro, 0⟩, ⟨2, 10, .ro, 0⟩, ⟨12, 4, .ro, 0⟩]⟩,
  ⟨0x010804, [], [⟨0, 1, .w1c, 0⟩, ⟨1, 4, .ro, 0⟩, ⟨5, 12, .ro, 0⟩, ⟨17, 6, .ro, 0⟩, ⟨23, 8, .ro, 0⟩]⟩,
  ⟨0x010100, [(16, 1)], [⟨0, 3, .ro, 0⟩, ⟨3, 2, .ro, 0⟩, ⟨5, 1, .ro, 0⟩, ⟨6, 1, .w1c, 0⟩, ⟨7, 3, .ro, 0⟩, ⟨10, 16, .ro, 0⟩]⟩,
  ⟨0x010110, [(16, 1)], [⟨0, 16, .rw, 64⟩, ⟨16, 1, .rw, 1⟩, ⟨17, 1, .rw, 1⟩, ⟨18, 1, .rw, 1⟩]⟩,
  ⟨0x010120, [], [⟨0, 1, .w1c, 0⟩, ⟨1, 4, .ro, 0⟩, ⟨5, 2, .ro, 0⟩, ⟨7, 13, .ro, 0⟩, ⟨20, 8, .ro, 0⟩]⟩,
  ⟨0x010121, [], [⟨0, 4, .rw, 0⟩, ⟨4, 2, .rw, 0⟩, ⟨6, 13, .rw, 0⟩]⟩,
  ⟨0x010122, [], [⟨0, 1, .ro, 0⟩, ⟨1, 1, .ro, 0⟩, ⟨2, 1, .ro, 0⟩]⟩,
  ⟨0x010000, [], [⟨0, 4, .ro, 1⟩, ⟨4, 2, .ro, 0⟩, ⟨6, 1, .ro, 0⟩, ⟨7, 2, .ro, 0⟩, ⟨9, 1, .ro, 0⟩, ⟨10, 1, .ro, 0⟩, ⟨11, 3, .ro, 0⟩]⟩,
  ⟨0x010001, [], [⟨0, 24, .ro, 0⟩, ⟨24, 4, .ro, 0⟩]⟩,
  ⟨0x010002, [], [⟨0, 8, .ro, 0⟩, ⟨8, 4, .ro, 0⟩, ⟨12, 1, .ro, 0⟩]⟩,
  ⟨0x010003, [], [⟨0, 25, .ro, 0⟩]⟩,
  ⟨0x010004, [], [⟨0, 16, .rw, 64⟩, ⟨16, 2, .rw, 0⟩, ⟨18, 14, .rw, 1000⟩]⟩,
  ⟨0x010010, [], [⟨0, 1, .ro, 0⟩, ⟨1, 1, .ro, 0⟩, ⟨2, 1, .ro, 0⟩, ⟨3, 1, .ro, 0⟩, ⟨4, 1, .ro, 0⟩, ⟨5, 5, .ro, 0⟩, ⟨10, 5, .ro, 0⟩, ⟨15, 16, .ro, 0⟩]⟩]

/-- The CKM_ registers. -/
def regRowsCKM : List RegRow := [
  ⟨0x040100, [(24, 1)], [⟨0, 4, .rw, 8⟩, ⟨4, 1, .rw, 0⟩, ⟨5, 1, .ro, 0⟩]⟩,
  ⟨0x040180, [], [⟨0, 1, .w1c, 0⟩, ⟨1, 1, .w1c, 0⟩, ⟨2, 4, .ro, 0⟩, ⟨6, 2, .ro, 0⟩, ⟨8, 5, .ro, 0⟩, ⟨13, 8, .ro, 0⟩]⟩,
  ⟨0x040000, [], [⟨0, 2, .rw, 0⟩, ⟨2, 18, .rw, 25000⟩, ⟨20, 4, .rw, 4⟩]⟩,
  ⟨0x040001, [], [⟨0, 11, .ro, 0⟩, ⟨11, 11, .ro, 0⟩, ⟨22, 1, .ro, 0⟩, ⟨23, 1, .ro, 0⟩, ⟨24, 1, .w1c, 0⟩, ⟨25, 1, .wo, 0⟩]⟩,
  ⟨0x040002, [], [⟨0, 1, .rw, 0⟩, ⟨1, 1, .ro, 0⟩, ⟨2, 1, .ro, 1⟩]⟩,
  ⟨0x040010, [(8, 2)], [⟨0, 1, .rw, 0⟩, ⟨1, 1, .rw, 0⟩, ⟨2, 8, .rw, 24⟩, ⟨10, 4, .rw, 2⟩, ⟨14, 7, .rw, 4⟩]⟩,
  ⟨0x040011, [(8, 2)], [⟨0, 1, .ro, 0⟩, ⟨1, 1, .w1c, 0⟩, ⟨2, 1, .ro, 0⟩, ⟨3, 1, .w1c, 0⟩]⟩]

/-- The NOC_ registers. -/
def regRowsNOC : List RegRow := [
  ⟨0x080000, [], [⟨0, 4, .ro, 0⟩, ⟨4, 16, .ro, 0⟩, ⟨20, 16, .ro, 0⟩]⟩,
  ⟨0x080001, [], [⟨0, 16, .rw, 150⟩, ⟨16, 4, .rw, 7⟩, ⟨20, 4, .rw, 15⟩]⟩,
  ⟨0x080002, [], [⟨0, 11, .rw, 32⟩, ⟨11, 11, .rw, 48⟩, ⟨22, 11, .rw, 96⟩]⟩,
  ⟨0x080003, [], [⟨0, 8, .ro, 0⟩, ⟨8, 3, .ro, 0⟩, ⟨11, 1, .ro, 0⟩, ⟨12, 4, .ro, 0⟩, ⟨16, 1, .w1c, 0⟩]⟩,
  ⟨0x080010, [(13, 1)], [⟨0, 36, .rw, 0⟩]⟩,
  ⟨0x080100, [(64, 4), (4, 1)], [⟨0, 5, .rw, 7⟩, ⟨5, 1, .rw, 1⟩, ⟨6, 1, .w1c, 0⟩]⟩]

/-- The CRL_ registers. -/
def regRowsCRL : List RegRow := [
  ⟨0x090000, [(2, 8), (8, 1)], [⟨0, 3, .ro, 0⟩, ⟨3, 2, .ro, 0⟩, ⟨5, 2, .ro, 2⟩, ⟨7, 2, .ro, 0⟩, ⟨9, 2, .ro, 0⟩, ⟨11, 3, .ro, 0⟩, ⟨14, 4, .ro, 0⟩, ⟨18, 1, .ro, 0⟩, ⟨19, 2, .ro, 0⟩, ⟨21, 1, .w1c, 0⟩]⟩,
  ⟨0x090010, [(2, 8), (8, 1)], [⟨0, 36, .ro, 0⟩]⟩,
  ⟨0x090020, [(2, 8), (8, 1)], [⟨0, 1, .wo, 0⟩, ⟨1, 1, .wo, 0⟩, ⟨2, 1, .wo, 0⟩]⟩,
  ⟨0x090030, [(2, 8), (8, 1)], [⟨0, 24, .rw, 0⟩, ⟨24, 12, .ro, 0⟩]⟩,
  ⟨0x090040, [], [⟨0, 16, .rw, 64⟩, ⟨16, 8, .rw, 20⟩]⟩,
  ⟨0x090041, [], [⟨0, 2, .ro, 0⟩, ⟨2, 2, .ro, 0⟩, ⟨4, 2, .ro, 0⟩, ⟨6, 2, .ro, 0⟩, ⟨8, 2, .w1c, 0⟩]⟩]

/-- The OBE_ registers. -/
def regRowsOBE : List RegRow := [
  ⟨0x200000, [(64, 65536)], [⟨0, 1, .rw, 0⟩, ⟨1, 1, .rw, 0⟩, ⟨2, 1, .rw, 0⟩, ⟨3, 1, .wo, 0⟩, ⟨4, 1, .wo, 0⟩, ⟨5, 1, .wo, 0⟩]⟩,
  ⟨0x200001, [(64, 65536)], [⟨0, 3, .ro, 0⟩, ⟨3, 1, .ro, 0⟩, ⟨4, 1, .ro, 0⟩, ⟨5, 1, .ro, 0⟩, ⟨6, 1, .w1c, 0⟩, ⟨7, 13, .ro, 0⟩]⟩,
  ⟨0x200002, [(64, 65536)], [⟨0, 13, .rw, 0⟩]⟩,
  ⟨0x200003, [(64, 65536)], [⟨0, 13, .rw, 8176⟩]⟩,
  ⟨0x200004, [(64, 65536)], [⟨0, 24, .rw, 0⟩, ⟨24, 8, .rw, 0⟩]⟩,
  ⟨0x200005, [(64, 65536)], [⟨0, 8, .w1c, 0⟩, ⟨8, 1, .wo, 0⟩]⟩,
  ⟨0x200006, [(64, 65536)], [⟨0, 1, .w1c, 0⟩, ⟨1, 1, .w1c, 0⟩, ⟨2, 1, .w1c, 0⟩, ⟨3, 1, .w1c, 0⟩, ⟨4, 1, .w1c, 0⟩, ⟨5, 13, .ro, 0⟩]⟩,
  ⟨0x200007, [(64, 65536)], [⟨0, 16, .rw, 1000⟩, ⟨16, 1, .rw, 0⟩, ⟨17, 1, .wo, 0⟩, ⟨18, 16, .ro, 0⟩]⟩,
  ⟨0x200008, [(64, 65536)], [⟨0, 24, .rw, 0⟩, ⟨24, 1, .rw, 0⟩]⟩,
  ⟨0x200009, [(64, 65536)], [⟨0, 13, .ro, 0⟩, ⟨13, 13, .ro, 0⟩, ⟨26, 2, .ro, 0⟩, ⟨28, 1, .ro, 0⟩, ⟨29, 1, .w1c, 0⟩]⟩,
  ⟨0x20000A, [(64, 65536)], [⟨0, 1, .w1c, 0⟩, ⟨1, 2, .ro, 0⟩, ⟨3, 13, .ro, 0⟩, ⟨16, 8, .ro, 0⟩]⟩,
  ⟨0x20000B, [(64, 65536)], [⟨0, 13, .rw, 0⟩, ⟨13, 4, .rw, 2⟩, ⟨17, 1, .rw, 0⟩]⟩,
  ⟨0x20000C, [(64, 65536)], [⟨0, 13, .ro, 0⟩, ⟨13, 13, .rw, 0⟩]⟩,
  ⟨0x200040, [(64, 65536), (4, 8)], [⟨0, 1, .wo, 0⟩, ⟨1, 1, .rw, 0⟩, ⟨2, 2, .rw, 1⟩, ⟨4, 2, .rw, 0⟩, ⟨6, 1, .rw, 0⟩, ⟨7, 4, .rw, 0⟩, ⟨11, 6, .rw, 63⟩]⟩,
  ⟨0x200041, [(64, 65536), (4, 8)], [⟨0, 13, .rw, 0⟩, ⟨13, 13, .rw, 1⟩, ⟨26, 10, .rw, 0⟩]⟩,
  ⟨0x200042, [(64, 65536), (4, 8)], [⟨0, 22, .rw, 0⟩]⟩,
  ⟨0x200043, [(64, 65536), (4, 8)], [⟨0, 36, .rw, 0⟩]⟩,
  ⟨0x200044, [(64, 65536), (4, 8)], [⟨0, 16, .rw, 0⟩]⟩,
  ⟨0x200045, [(64, 65536), (4, 8)], [⟨0, 1, .ro, 0⟩, ⟨1, 1, .w1c, 0⟩, ⟨2, 1, .w1c, 0⟩, ⟨3, 1, .w1c, 0⟩, ⟨4, 1, .w1c, 0⟩, ⟨5, 17, .ro, 0⟩]⟩,
  ⟨0x200100, [(64, 65536)], [⟨0, 1, .rw, 0⟩, ⟨1, 1, .rw, 0⟩, ⟨2, 1, .wo, 0⟩, ⟨3, 1, .w1c, 0⟩]⟩,
  ⟨0x200101, [(64, 65536)], [⟨0, 1, .rw, 0⟩, ⟨1, 1, .rw, 0⟩]⟩,
  ⟨0x200102, [(64, 65536)], [⟨0, 28, .rw, 0⟩]⟩,
  ⟨0x200103, [(64, 65536)], [⟨0, 8, .w1c, 0⟩, ⟨8, 1, .w1c, 0⟩]⟩,
  ⟨0x200104, [(64, 65536)], [⟨0, 36, .w1c, 0⟩]⟩,
  ⟨0x200105, [(64, 65536)], [⟨0, 12, .w1c, 0⟩]⟩,
  ⟨0x200108, [(64, 65536)], [⟨0, 36, .rx, 0⟩]⟩,
  ⟨0x200110, [(64, 65536), (8, 2)], [⟨0, 6, .rw, 0⟩, ⟨6, 1, .rw, 0⟩, ⟨7, 1, .rw, 0⟩]⟩,
  ⟨0x200111, [(64, 65536), (8, 2)], [⟨0, 36, .rx, 0⟩]⟩,
  ⟨0x200140, [(64, 65536), (48, 1)], [⟨0, 36, .rx, 0⟩]⟩]

/-- The BLW_ registers. -/
def regRowsBLW : List RegRow := [
  ⟨0x060000, [], [⟨0, 1, .rw, 0⟩, ⟨1, 1, .rw, 0⟩, ⟨2, 1, .wo, 0⟩]⟩,
  ⟨0x060001, [], [⟨0, 15, .ro, 0⟩, ⟨15, 15, .rw, 0⟩, ⟨30, 1, .w1c, 0⟩]⟩,
  ⟨0x060002, [], [⟨0, 20, .rp, 0⟩, ⟨20, 10, .rp, 0⟩, ⟨30, 2, .rp, 0⟩, ⟨32, 1, .rp, 0⟩, ⟨33, 1, .rp, 0⟩, ⟨35, 1, .rp, 1⟩]⟩,
  ⟨0x060003, [], [⟨0, 36, .ro, 34359738368⟩]⟩,
  ⟨0x060004, [(3, 1)], [⟨0, 36, .ro, 0⟩]⟩,
  ⟨0x060007, [], [⟨0, 10, .ro, 0⟩, ⟨10, 1, .w1c, 0⟩]⟩,
  ⟨0x060008, [], [⟨0, 10, .ro, 0⟩, ⟨10, 20, .ro, 0⟩, ⟨30, 4, .ro, 0⟩, ⟨34, 1, .w1c, 0⟩]⟩,
  ⟨0x060010, [(10, 1)], [⟨0, 36, .rw, 0⟩]⟩,
  ⟨0x060100, [(256, 2)], [⟨0, 2, .rw, 0⟩, ⟨2, 4, .rw, 0⟩, ⟨6, 3, .rw, 0⟩, ⟨9, 3, .rw, 0⟩, ⟨12, 1, .rw, 0⟩, ⟨13, 1, .rw, 0⟩, ⟨14, 1, .rw, 0⟩, ⟨15, 2, .rw, 0⟩, ⟨17, 8, .rw, 0⟩]⟩,
  ⟨0x060101, [(256, 2)], [⟨0, 12, .rw, 0⟩, ⟨12, 2, .rw, 0⟩, ⟨14, 8, .rw, 0⟩, ⟨22, 2, .rw, 0⟩, ⟨24, 8, .rw, 255⟩]⟩,
  ⟨0x060400, [(192, 1)], [⟨0, 8, .rw, 0⟩, ⟨8, 2, .rw, 0⟩, ⟨10, 4, .rw, 0⟩, ⟨14, 2, .rw, 0⟩, ⟨16, 1, .rw, 0⟩]⟩,
  ⟨0x060500, [(192, 1)], [⟨0, 3, .ro, 0⟩, ⟨3, 3, .ro, 0⟩, ⟨6, 4, .ro, 0⟩, ⟨10, 10, .ro, 0⟩]⟩,
  ⟨0x060800, [(1024, 2)], [⟨0, 20, .rw, 0⟩, ⟨20, 1, .rw, 0⟩, ⟨21, 1, .wo, 0⟩]⟩,
  ⟨0x060801, [(1024, 2)], [⟨0, 9, .ro, 0⟩, ⟨9, 16, .ro, 0⟩, ⟨25, 1, .ro, 0⟩, ⟨26, 1, .w1c, 0⟩]⟩,
  ⟨0x061000, [(128, 1)], [⟨0, 1, .rw, 0⟩, ⟨1, 6, .ro, 0⟩, ⟨7, 6, .ro, 0⟩, ⟨13, 1, .ro, 0⟩, ⟨14, 1, .ro, 0⟩, ⟨15, 1, .w1c, 0⟩]⟩,
  ⟨0x061100, [(16, 8), (8, 1)], [⟨0, 15, .ro, 0⟩, ⟨15, 15, .ro, 0⟩]⟩,
  ⟨0x061200, [(16, 16), (16, 1)], [⟨0, 36, .rw, 0⟩]⟩]

/-- The CHN_ registers. -/
def regRowsCHN : List RegRow := [
  ⟨0x050000, [], [⟨0, 36, .rx, 0⟩]⟩,
  ⟨0x050001, [], [⟨0, 28, .ro, 0⟩]⟩,
  ⟨0x050002, [], [⟨0, 2, .ro, 0⟩, ⟨2, 1, .ro, 0⟩, ⟨3, 1, .ro, 0⟩, ⟨4, 1, .w1c, 0⟩, ⟨5, 1, .w1c, 0⟩, ⟨6, 20, .ro, 0⟩]⟩,
  ⟨0x050003, [], [⟨0, 24, .rw, 0⟩]⟩,
  ⟨0x050004, [], [⟨0, 36, .wo, 0⟩]⟩,
  ⟨0x050005, [], [⟨0, 1, .w1c, 0⟩, ⟨1, 1, .ro, 0⟩, ⟨2, 2, .ro, 0⟩, ⟨4, 20, .ro, 0⟩, ⟨24, 8, .ro, 0⟩, ⟨32, 1, .w1c, 0⟩]⟩,
  ⟨0x050010, [(2, 16)], [⟨0, 1, .rw, 1⟩, ⟨1, 1, .rw, 0⟩, ⟨2, 4, .rw, 4⟩, ⟨6, 1, .rw, 0⟩, ⟨7, 1, .rw, 0⟩, ⟨8, 8, .rw, 64⟩, ⟨16, 8, .rw, 20⟩]⟩,
  ⟨0x050011, [(2, 16)], [⟨0, 1, .ro, 1⟩, ⟨1, 1, .ro, 0⟩, ⟨2, 3, .ro, 0⟩, ⟨5, 3, .ro, 0⟩, ⟨8, 1, .ro, 0⟩, ⟨9, 1, .ro, 0⟩, ⟨10, 1, .w1c, 0⟩, ⟨11, 1, .w1c, 0⟩, ⟨12, 1, .ro, 0⟩, ⟨13, 1, .ro, 0⟩, ⟨14, 1, .w1c, 0⟩, ⟨15, 8, .rw, 0⟩]⟩,
  ⟨0x050012, [(2, 16)], [⟨0, 36, .rx, 0⟩]⟩,
  ⟨0x050013, [(2, 16)], [⟨0, 20, .ro, 0⟩]⟩,
  ⟨0x050014, [(2, 16)], [⟨0, 36, .rx, 0⟩]⟩,
  ⟨0x050015, [(2, 16)], [⟨0, 20, .ro, 0⟩, ⟨20, 1, .ro, 0⟩]⟩,
  ⟨0x050016, [(2, 16)], [⟨0, 36, .rw, 0⟩]⟩,
  ⟨0x050017, [(2, 16)], [⟨0, 20, .rw, 0⟩, ⟨20, 1, .wo, 0⟩]⟩,
  ⟨0x050100, [(48, 2)], [⟨0, 1, .rw, 0⟩, ⟨1, 1, .rw, 0⟩, ⟨2, 1, .rw, 0⟩, ⟨3, 1, .rw, 0⟩, ⟨4, 1, .rw, 0⟩, ⟨5, 6, .rw, 0⟩, ⟨11, 16, .rw, 0⟩, ⟨27, 1, .wo, 0⟩]⟩,
  ⟨0x050101, [(48, 2)], [⟨0, 7, .ro, 0⟩, ⟨7, 12, .ro, 0⟩, ⟨19, 1, .ro, 0⟩, ⟨20, 8, .rw, 0⟩, ⟨28, 1, .w1c, 0⟩, ⟨29, 1, .w1c, 0⟩, ⟨30, 1, .w1c, 0⟩]⟩]

/-- The UIO_ registers. -/
def regRowsUIO : List RegRow := [
  ⟨0x100000, [(2, 16)], [⟨0, 2, .rw, 0⟩, ⟨2, 2, .rw, 2⟩, ⟨4, 3, .rw, 0⟩, ⟨7, 1, .rw, 0⟩, ⟨8, 1, .rw, 0⟩, ⟨9, 8, .rw, 16⟩]⟩,
  ⟨0x100001, [(2, 16)], [⟨0, 2, .ro, 0⟩, ⟨2, 2, .ro, 0⟩, ⟨4, 1, .w1c, 0⟩, ⟨5, 1, .w1c, 0⟩, ⟨6, 1, .ro, 0⟩]⟩,
  ⟨0x100002, [(2, 16)], [⟨0, 1, .wo, 0⟩]⟩,
  ⟨0x100003, [(2, 16)], [⟨0, 36, .ro, 0⟩]⟩,
  ⟨0x100004, [(2, 16)], [⟨0, 12, .ro, 0⟩]⟩,
  ⟨0x100005, [(2, 16)], [⟨0, 36, .w1c, 0⟩]⟩,
  ⟨0x100006, [(2, 16)], [⟨0, 12, .w1c, 0⟩]⟩,
  ⟨0x100007, [(2, 16)], [⟨0, 16, .rw, 0⟩]⟩,
  ⟨0x100008, [(2, 16)], [⟨0, 36, .wo, 0⟩]⟩,
  ⟨0x100100, [(48, 2)], [⟨0, 1, .rw, 0⟩, ⟨1, 2, .rw, 0⟩, ⟨3, 2, .rw, 0⟩, ⟨5, 1, .rw, 0⟩, ⟨6, 1, .rw, 0⟩, ⟨7, 1, .rw, 1⟩]⟩,
  ⟨0x100101, [(48, 2)], [⟨0, 1, .ro, 0⟩, ⟨1, 1, .ro, 0⟩, ⟨2, 9, .rw, 0⟩, ⟨11, 9, .rw, 0⟩]⟩,
  ⟨0x100200, [(48, 1)], [⟨0, 36, .wo, 0⟩]⟩]

/-- The XCV_ registers. -/
def regRowsXCV : List RegRow := [
  ⟨0x0D0000, [(8, 4096)], [⟨0, 1, .rw, 0⟩, ⟨1, 9, .rw, 160⟩, ⟨10, 3, .rw, 0⟩, ⟨13, 2, .rw, 0⟩, ⟨15, 1, .ro, 0⟩]⟩,
  ⟨0x0D0001, [(8, 4096)], [⟨0, 1, .ro, 0⟩, ⟨1, 1, .ro, 0⟩, ⟨2, 1, .w1c, 0⟩, ⟨3, 1, .w1c, 0⟩, ⟨4, 2, .ro, 0⟩]⟩,
  ⟨0x0D0002, [(8, 4096)], [⟨0, 12, .rw, 500⟩, ⟨12, 12, .rw, 100⟩, ⟨24, 8, .rw, 1⟩]⟩,
  ⟨0x0D0010, [(8, 4096), (4, 8)], [⟨0, 1, .rw, 0⟩, ⟨1, 3, .rw, 1⟩, ⟨4, 2, .rw, 0⟩, ⟨6, 2, .rw, 0⟩, ⟨8, 1, .rw, 1⟩, ⟨9, 1, .rw, 0⟩, ⟨10, 1, .rw, 0⟩, ⟨11, 1, .rw, 0⟩, ⟨12, 1, .rw, 0⟩, ⟨13, 1, .rw, 0⟩, ⟨14, 2, .rw, 0⟩, ⟨16, 2, .rw, 0⟩, ⟨18, 1, .rw, 0⟩, ⟨19, 2, .rw, 0⟩, ⟨21, 3, .rw, 0⟩]⟩,
  ⟨0x0D0011, [(8, 4096), (4, 8)], [⟨0, 8, .rw, 0⟩, ⟨8, 1, .rw, 0⟩, ⟨9, 2, .rw, 0⟩]⟩,
  ⟨0x0D0012, [(8, 4096), (4, 8)], [⟨0, 1, .wo, 0⟩, ⟨1, 1, .wo, 0⟩]⟩,
  ⟨0x0D0013, [(8, 4096), (4, 8)], [⟨0, 3, .ro, 0⟩, ⟨3, 1, .ro, 0⟩, ⟨4, 1, .ro, 0⟩, ⟨5, 3, .ro, 0⟩, ⟨8, 12, .ro, 0⟩, ⟨20, 7, .ro, 0⟩]⟩,
  ⟨0x0D0014, [(8, 4096), (4, 8)], [⟨0, 24, .rw, 0⟩, ⟨24, 12, .rw, 0⟩]⟩,
  ⟨0x0D0015, [(8, 4096), (4, 8)], [⟨0, 35, .rw, 0⟩, ⟨35, 1, .ro, 0⟩]⟩,
  ⟨0x0D0016, [(8, 4096), (4, 8)], [⟨0, 5, .rw, 0⟩, ⟨5, 6, .rw, 0⟩, ⟨11, 6, .rw, 48⟩, ⟨17, 1, .rw, 1⟩]⟩]

/-- The ETH_ registers. -/
def regRowsETH : List RegRow := [
  ⟨0x0E0000, [(2, 256)], [⟨0, 2, .rw, 0⟩, ⟨2, 4, .rw, 15⟩, ⟨6, 4, .rw, 0⟩, ⟨10, 14, .rw, 1518⟩, ⟨24, 1, .rw, 1⟩, ⟨25, 1, .rw, 0⟩, ⟨26, 1, .rw, 0⟩, ⟨27, 1, .rw, 1⟩, ⟨28, 3, .rw, 0⟩, ⟨31, 4, .rw, 4⟩]⟩,
  ⟨0x0E0001, [(2, 256)], [⟨0, 4, .ro, 0⟩, ⟨4, 4, .ro, 0⟩, ⟨8, 4, .ro, 0⟩, ⟨12, 4, .ro, 0⟩, ⟨16, 1, .w1c, 0⟩, ⟨17, 1, .w1c, 0⟩]⟩,
  ⟨0x0E0002, [(2, 256)], [⟨0, 16, .rw, 0⟩, ⟨16, 16, .rw, 0⟩]⟩,
  ⟨0x0E0010, [(2, 256), (4, 16), (14, 1)], [⟨0, 36, .rw, 0⟩]⟩]

/-- The KRN_ registers. -/
def regRowsKRN : List RegRow := [
  ⟨0x0F0000, [], [⟨0, 11, .rw, 0⟩, ⟨11, 1, .ro, 0⟩, ⟨12, 12, .ro, 0⟩, ⟨24, 1, .w1c, 0⟩]⟩,
  ⟨0x0F0001, [], [⟨0, 12, .rw, 1⟩, ⟨12, 1, .rw, 0⟩, ⟨13, 4, .rw, 0⟩, ⟨17, 1, .rw, 0⟩, ⟨18, 1, .rw, 0⟩, ⟨19, 4, .rw, 0⟩, ⟨23, 12, .rw, 300⟩]⟩,
  ⟨0x0F0010, [(4, 8)], [⟨0, 1, .rw, 0⟩, ⟨1, 1, .rw, 0⟩, ⟨2, 1, .rw, 0⟩, ⟨3, 1, .rw, 0⟩, ⟨4, 1, .rw, 0⟩, ⟨5, 1, .rw, 0⟩, ⟨6, 11, .rw, 0⟩, ⟨17, 1, .wo, 0⟩]⟩,
  ⟨0x0F0011, [(4, 8)], [⟨0, 3, .ro, 0⟩, ⟨3, 11, .ro, 0⟩, ⟨14, 4, .ro, 0⟩, ⟨18, 10, .ro, 0⟩, ⟨28, 1, .ro, 0⟩, ⟨29, 1, .ro, 0⟩]⟩,
  ⟨0x0F0012, [(4, 8)], [⟨0, 32, .rw, 0⟩]⟩,
  ⟨0x0F0013, [(4, 8)], [⟨0, 32, .rw, 0⟩]⟩,
  ⟨0x0F0014, [(4, 8), (4, 1)], [⟨0, 36, .rw, 0⟩]⟩,
  ⟨0x0F1000, [(2048, 1)], [⟨0, 1, .rw, 0⟩, ⟨1, 4, .rw, 0⟩, ⟨5, 1, .rw, 0⟩, ⟨6, 4, .rw, 0⟩]⟩]

/-- The DDR_ registers. -/
def regRowsDDR : List RegRow := [
  ⟨0x0A0000, [(2, 65536)], [⟨0, 1, .rw, 0⟩, ⟨1, 4, .rw, 15⟩, ⟨5, 1, .rw, 0⟩, ⟨6, 2, .rw, 0⟩, ⟨8, 1, .rw, 0⟩, ⟨9, 2, .rw, 0⟩, ⟨11, 2, .rw, 0⟩, ⟨13, 2, .rw, 0⟩, ⟨15, 1, .rw, 0⟩, ⟨16, 2, .rw, 3⟩, ⟨18, 1, .rw, 0⟩, ⟨19, 1, .wo, 0⟩]⟩,
  ⟨0x0A0001, [(2, 65536)], [⟨0, 5, .rw, 16⟩, ⟨5, 3, .rw, 6⟩, ⟨8, 2, .rw, 3⟩, ⟨10, 2, .rw, 2⟩]⟩,
  ⟨0x0A0002, [(2, 65536)], [⟨0, 7, .rw, 52⟩, ⟨7, 7, .rw, 52⟩, ⟨14, 7, .rw, 52⟩, ⟨21, 8, .rw, 103⟩]⟩,
  ⟨0x0A0003, [(2, 65536)], [⟨0, 3, .ro, 0⟩, ⟨3, 1, .ro, 0⟩, ⟨4, 1, .ro, 0⟩, ⟨5, 1, .ro, 0⟩, ⟨6, 1, .w1c, 0⟩, ⟨7, 1, .w1c, 0⟩, ⟨8, 4, .ro, 0⟩]⟩,
  ⟨0x0A0004, [(2, 65536)], [⟨0, 8, .rw, 228⟩, ⟨8, 4, .ro, 0⟩, ⟨12, 1, .ro, 0⟩]⟩,
  ⟨0x0A0005, [(2, 65536)], [⟨0, 2, .rw, 3⟩, ⟨2, 2, .rw, 3⟩, ⟨4, 12, .rw, 16⟩, ⟨16, 1, .rw, 1⟩, ⟨17, 8, .rw, 16⟩]⟩,
  ⟨0x0A0006, [(2, 65536)], [⟨0, 32, .ro, 0⟩, ⟨32, 2, .ro, 0⟩, ⟨34, 1, .w1c, 0⟩]⟩,
  ⟨0x0A0007, [(2, 65536)], [⟨0, 2, .wo, 0⟩, ⟨2, 1, .wo, 0⟩]⟩,
  ⟨0x0A0008, [(2, 65536)], [⟨0, 32, .rp, 0⟩, ⟨32, 3, .rp, 0⟩, ⟨35, 1, .rp, 1⟩]⟩,
  ⟨0x0A0009, [(2, 65536)], [⟨0, 7, .ro, 0⟩, ⟨7, 1, .w1c, 0⟩]⟩,
  ⟨0x0A0010, [(2, 65536), (4, 1)], [⟨0, 12, .rw, 0⟩, ⟨12, 12, .rw, 0⟩, ⟨24, 12, .rw, 0⟩]⟩]

/-- The MIE_ registers. -/
def regRowsMIE : List RegRow := [
  ⟨0x0C0000, [], [⟨0, 1, .rw, 0⟩]⟩,
  ⟨0x0C0001, [], [⟨0, 1, .w1c, 0⟩]⟩,
  ⟨0x0C0002, [], [⟨0, 4, .rw, 0⟩, ⟨4, 12, .rw, 0⟩, ⟨16, 4, .rw, 0⟩, ⟨20, 1, .rw, 0⟩, ⟨21, 1, .w1c, 0⟩, ⟨22, 4, .rw, 0⟩, ⟨26, 6, .rw, 0⟩]⟩,
  ⟨0x0C0003, [], [⟨0, 36, .rw, 0⟩]⟩,
  ⟨0x0C0004, [], [⟨0, 4, .rw, 0⟩]⟩,
  ⟨0x0C0005, [], [⟨0, 32, .ro, 0⟩, ⟨32, 1, .ro, 0⟩, ⟨33, 3, .ro, 0⟩]⟩,
  ⟨0x0C0100, [(2, 64)], [⟨0, 2, .rw, 0⟩, ⟨2, 1, .rw, 0⟩]⟩,
  ⟨0x0C0101, [(2, 64)], [⟨0, 1, .ro, 0⟩, ⟨1, 1, .ro, 0⟩, ⟨2, 1, .ro, 0⟩, ⟨3, 1, .w1c, 0⟩, ⟨4, 1, .w1c, 0⟩, ⟨5, 4, .ro, 0⟩]⟩,
  ⟨0x0C0102, [(2, 64)], [⟨0, 32, .ro, 0⟩]⟩,
  ⟨0x0C0110, [(2, 64), (6, 1)], [⟨0, 36, .rw, 0⟩]⟩]

/-- The PWR_ registers. -/
def regRowsPWR : List RegRow := [
  ⟨0x030000, [], [⟨0, 1, .ro, 1⟩, ⟨1, 1, .ro, 1⟩, ⟨2, 1, .ro, 0⟩, ⟨3, 1, .ro, 1⟩, ⟨4, 2, .ro, 0⟩, ⟨6, 1, .ro, 0⟩, ⟨7, 1, .w1c, 0⟩]⟩,
  ⟨0x030010, [(8, 1)], [⟨0, 6, .rw, 0⟩, ⟨6, 1, .rw, 0⟩, ⟨7, 29, .rw, 0⟩]⟩,
  ⟨0x030020, [(8, 1)], [⟨0, 1, .rw, 0⟩, ⟨1, 6, .rw, 0⟩, ⟨7, 2, .rw, 0⟩, ⟨9, 6, .rw, 0⟩, ⟨15, 1, .w1c, 0⟩]⟩,
  ⟨0x030100, [(47, 4)], [⟨0, 1, .rw, 0⟩, ⟨1, 2, .rw, 0⟩, ⟨3, 1, .rw, 1⟩, ⟨4, 12, .rw, 10⟩]⟩,
  ⟨0x030101, [(47, 4)], [⟨0, 2, .wo, 0⟩, ⟨2, 1, .wo, 0⟩, ⟨3, 2, .wo, 0⟩, ⟨5, 1, .wo, 0⟩, ⟨6, 1, .wo, 0⟩]⟩,
  ⟨0x030102, [(47, 4)], [⟨0, 2, .ro, 0⟩, ⟨2, 2, .ro, 0⟩, ⟨4, 2, .ro, 0⟩, ⟨6, 1, .ro, 0⟩, ⟨7, 4, .ro, 0⟩, ⟨11, 3, .ro, 0⟩, ⟨14, 1, .ro, 0⟩]⟩,
  ⟨0x030103, [(47, 4)], [⟨0, 16, .rw, 0⟩, ⟨16, 16, .rw, 0⟩]⟩]

/-- The DRN_ registers. -/
def regRowsDRN : List RegRow := [
  ⟨0x000000, [], [⟨0, 36, .wo, 0⟩]⟩,
  ⟨0x000001, [], [⟨0, 36, .rx, 268435456⟩]⟩,
  ⟨0x000002, [], [⟨0, 1, .ro, 0⟩, ⟨1, 1, .ro, 0⟩, ⟨2, 1, .w1c, 0⟩, ⟨3, 6, .ro, 0⟩, ⟨9, 8, .ro, 0⟩]⟩,
  ⟨0x000003, [], [⟨0, 10, .ro, 0⟩]⟩,
  ⟨0x000004, [], [⟨0, 8, .rw, 0⟩, ⟨8, 3, .rw, 0⟩, ⟨11, 1, .rw, 0⟩, ⟨12, 2, .rw, 2⟩, ⟨14, 2, .rw, 2⟩]⟩,
  ⟨0x000005, [], [⟨0, 20, .ro, 0⟩, ⟨20, 13, .ro, 0⟩, ⟨33, 1, .w1c, 0⟩]⟩,
  ⟨0x000006, [], [⟨0, 24, .ro, 0⟩]⟩]

/-- The HMN_ registers. -/
def regRowsHMN : List RegRow := [
  ⟨0x110000, [], [⟨0, 36, .ro, 0⟩]⟩,
  ⟨0x110001, [(7, 1)], [⟨0, 12, .ro, 0⟩, ⟨12, 12, .rw, 4095⟩, ⟨24, 12, .rw, 0⟩]⟩,
  ⟨0x110008, [], [⟨0, 9, .rw, 95⟩, ⟨9, 9, .rw, 100⟩, ⟨18, 1, .rw, 0⟩, ⟨19, 4, .rw, 5⟩]⟩,
  ⟨0x110009, [], [⟨0, 4, .ro, 0⟩, ⟨4, 4, .ro, 0⟩, ⟨8, 7, .ro, 0⟩, ⟨15, 1, .ro, 0⟩, ⟨16, 1, .w1c, 0⟩]⟩]

/-- The SEC_ registers. -/
def regRowsSEC : List RegRow := [
  ⟨0x020000, [], [⟨0, 2, .ro, 0⟩, ⟨2, 2, .ro, 0⟩, ⟨4, 1, .ro, 0⟩, ⟨5, 1, .ro, 0⟩, ⟨6, 1, .ro, 0⟩, ⟨7, 7, .ro, 0⟩, ⟨14, 7, .ro, 0⟩, ⟨21, 2, .ro, 0⟩]⟩,
  ⟨0x020001, [], [⟨0, 10, .ro, 0⟩, ⟨10, 10, .ro, 0⟩]⟩,
  ⟨0x020002, [], [⟨0, 36, .ro, 0⟩]⟩,
  ⟨0x020003, [], [⟨0, 36, .ro, 0⟩]⟩,
  ⟨0x020004, [], [⟨0, 8, .ro, 0⟩, ⟨8, 1, .ro, 0⟩, ⟨9, 1, .ro, 0⟩]⟩]

/-- The PMC_ registers. -/
def regRowsPMC : List RegRow := [
  ⟨0x120000, [], [⟨0, 1, .rw, 0⟩, ⟨1, 1, .rw, 0⟩, ⟨2, 1, .wo, 0⟩, ⟨4, 2, .rw, 0⟩, ⟨6, 2, .rw, 0⟩]⟩,
  ⟨0x120002, [], [⟨0, 28, .rw, 0⟩]⟩,
  ⟨0x120003, [], [⟨0, 8, .w1c, 0⟩, ⟨8, 1, .w1c, 0⟩]⟩,
  ⟨0x120004, [], [⟨0, 36, .w1c, 0⟩]⟩,
  ⟨0x120005, [], [⟨0, 12, .w1c, 0⟩]⟩,
  ⟨0x120008, [], [⟨0, 36, .rx, 0⟩]⟩,
  ⟨0x120010, [(8, 2)], [⟨0, 6, .rw, 0⟩, ⟨6, 1, .rw, 0⟩]⟩,
  ⟨0x120011, [(8, 2)], [⟨0, 36, .rx, 0⟩]⟩,
  ⟨0x120040, [(48, 1)], [⟨0, 36, .rx, 0⟩]⟩]

/-- Every register row of the die's register space. -/
def regRows : List RegRow :=
  regRowsCFG ++ regRowsCKM ++ regRowsNOC ++ regRowsCRL ++ regRowsOBE ++ regRowsBLW ++ regRowsCHN ++ regRowsUIO ++ regRowsXCV ++ regRowsETH ++ regRowsKRN ++ regRowsDDR ++ regRowsMIE ++ regRowsPWR ++ regRowsDRN ++ regRowsHMN ++ regRowsSEC ++ regRowsPMC

end Sys2Proof.Machine
end

