-- ==== Sys2Proof/Machine/State.lean ====
section
/-! DEFINITION. The state of the VL9440: every register, memory, queue, counter, mode and pin the spec names, as plain
data. Registers are held by die and word offset; structured units have a record each. Where a map's key is said to be
built from indices, the widest index comes first. -/

namespace Sys2Proof.Machine

/-- The ten device states (R154). -/
inductive DevState where
  | off | por | selftest | safeTalk | blank | loading | backoff | releasing | user | secureHalt
deriving DecidableEq, Repr, Inhabited

/-- The fuse groups of the device (R594). -/
structure Fuses where
  level : Nat := 0
  nextLevel : Nat := 0
  ownerHash : BitVec 384 := 0
  deviceKey : BitVec 256 := 0
  authLocked : BitVec 10 := 0
  authSealed : BitVec 10 := 0
  epoch : Nat := 0
  uid : BitVec 72 := 0
deriving DecidableEq, Repr, Inhabited

/-! ### Network on chip (chapter 6) -/

/-- A flit's six words and 24 check bits, four per word from word 0 up (R193). -/
structure Flit where
  w0 : W36 := 0
  w1 : W36 := 0
  w2 : W36 := 0
  w3 : W36 := 0
  w4 : W36 := 0
  w5 : W36 := 0
  chk : BitVec 24 := 0
deriving DecidableEq, Repr, Inhabited

/-- A flit in the network: the router it reaches next, the port it arrives by (0 N, 1 E, 2 S, 3 W; 4 to 7 a local port,
8 made by the router itself), and its age (R196). -/
structure Flight where
  flit : Flit := {}
  router : Nat := 0
  inPort : Nat := 0
  age : Nat := 0
deriving DecidableEq, Repr, Inhabited

/-- Who submitted a packet, so that its failure and its responses reach the right engine. -/
inductive Origin where
  | plain
  | dma (chan : Nat)
  | fabSlot (q slot : Nat)
  | drone (port : Nat)
  | forward (home tpl : Nat)
  | dispatch (worker : Nat)
  | emit (serial : Nat)
deriving DecidableEq, Repr, Inhabited

/-- The four payload words of a flit and its POISON bit. -/
structure Payload where
  w2 : W36 := 0
  w3 : W36 := 0
  w4 : W36 := 0
  w5 : W36 := 0
  poison : Bool := false
deriving DecidableEq, Repr, Inhabited

/-- A packet submitted by an endpoint and not yet sent: destination device, router and port, type, flow, payloads, and the
number of response flits it will bring back (R202). -/
structure Packet where
  dev : Nat := 0
  router : Nat := 0
  port : Nat := 0
  typ : Nat := 0
  flow : Nat := 0
  body : List Payload := []
  resp : Nat := 0
  origin : Origin := .plain
deriving DecidableEq, Repr, Inhabited

/-- A sent packet whose confirmation is outstanding; `old` marks one that a deferred port setting waits for (R202, R216, R219,
R225). -/
structure SentPacket where
  flits : List Flit := []
  unsent : Nat := 0
  key : Nat := 0
  resp : Nat := 0
  got : Nat := 0
  rseq : Nat := 0
  origin : Origin := .plain
  retries : Nat := 0
  wakes : Nat := 0
  refused : Bool := false
  old : Bool := false
deriving DecidableEq, Repr, Inhabited

/-- A stream a port sends on: whether it is open, the next sequence, the time of its last confirmation, and whether a failure
makes it open again before it carries more (R209, R216, R220). -/
structure TxStream where
  opened : Bool := false
  next : Nat := 0
  lastConf : Nat := 0
  everConf : Bool := false
  broken : Bool := false
deriving DecidableEq, Repr, Inhabited

/-- A delivered request packet as the stream table records it (R210, R217): first and last sequence, confirmation status. -/
structure Delivered where
  first : Nat := 0
  last : Nat := 0
  status : Nat := 0
  confirmed : Bool := false
deriving DecidableEq, Repr, Inhabited

/-- An entry of an ejection port's stream table (R210); key is the stream's key at this port, `advanced` when its expected sequence
last changed, `bad` whether it fails its check (R496). -/
structure RxEntry where
  key : Nat := 0
  expect : Nat := 0
  lastArr : Nat := 0
  advanced : Nat := 0
  start : Nat := 0
  recent : List Delivered := []
  bad : Bool := false
deriving DecidableEq, Repr, Inhabited

/-- A flit in a reorder buffer, with its stream's key and arrival time (R211). -/
structure Held where
  key : Nat := 0
  seq : Nat := 0
  flit : Flit := {}
  since : Nat := 0
deriving DecidableEq, Repr, Inhabited

/-- The interface of one local port (router, port): what it sends, receives and remembers (R192, R202 to R219); at a gateway,
the words of CMD packets whose last flit is still to come, by stream (R569). -/
structure NocPort where
  waiting : List Packet := []
  refusedOwn : List Packet := []
  sent : List SentPacket := []
  out : List Flit := []
  tx : SMap TxStream := []
  rseq : SMap Nat := []
  table : List RxEntry := []
  held : List Held := []
  delivered : List Flit := []
  again : List Flit := []
  answers : List Flit := []
  replay : List (Flit × W36) := []
  deferred : Option W36 := none
  parts : SMap (List W36) := []
deriving DecidableEq, Repr, Inhabited

/-- A router's present nc: its number, the neighbour ports and the local ports that have taken a flit in it, and the local ports
that have had their turn to inject (R190, R198, R201). -/
structure NcUse where
  nc : Nat := 0
  ports : List Nat := []
  locals : List Nat := []
  turns : List Nat := []
deriving DecidableEq, Repr, Inhabited

/-! ### Fabric (chapters 2 to 4) -/

/-- A stored reservoir RAM word: data, check bits, valid bit (R64, R66). -/
structure RamWord where
  data : W36 := 0
  chk : BitVec 4 := 0
  valid : Bool := false
deriving DecidableEq, Repr, Inhabited

/-- The outputs of one RAM port and what its output register holds next (R62, R63, R68). -/
structure RamOut where
  dout : W36 := 0
  err : Bool := false
  coll : Bool := false
  nextDout : W36 := 0
  nextErr : Bool := false
deriving DecidableEq, Repr, Inhabited

/-- A remap entry: the word address replaced, and whether field detection filled it (R77 to R79). -/
structure RemapEntry where
  addr : Nat := 0
  field : Bool := false
deriving DecidableEq, Repr, Inhabited

/-- One reservoir RAM macro beside its words. -/
structure RamMacro where
  portA : RamOut := {}
  portB : RamOut := {}
  remap : List RemapEntry := []
  lastFail : Option Nat := none
  sweeping : Bool := false
deriving DecidableEq, Repr, Inhabited

/-- A LUT RAM that has been written since its configuration: 16 bits and 4 check bits (R54, R57). -/
structure LutRam where
  written : Bool := false
  data : BitVec 16 := 0
  chk : BitVec 4 := 0
deriving DecidableEq, Repr, Inhabited

/-- An entry of a handshake gate: data, check bits, and whether it has crossed to the read side (R122, R124). -/
structure GateEntry where
  data : W36 := 0
  chk : BitVec 4 := 0
  visible : Bool := false
  logged : Bool := false
deriving DecidableEq, Repr, Inhabited

/-- A handshake gate: entries oldest first, and removed entries whose slots are not yet free (R121, R122). -/
structure Gate where
  entries : List GateEntry := []
  freeing : Nat := 0
deriving DecidableEq, Repr, Inhabited

/-- The divider of a regional clock: rising edges and edges of its source since it last rose, and whether it is high (R112, R113). -/
structure Divider where
  rises : Nat := 0
  halves : Nat := 0
  high : Bool := false
deriving DecidableEq, Repr, Inhabited

/-- A pending activation window (R151). -/
structure ActWindow where
  chan : Nat := 0
  lo : Nat := 0
  hi : Nat := 0
deriving DecidableEq, Repr, Inhabited

/-- What a region holds beside its registers: its pending window, whether an activation has been accepted since LOADING,
whether it slept from ACTIVE, release steps still to come, the load it belongs to, the frame that faulted, the source its
image came from, and a REGION_ISOLATE taken in STAGING (R130, R149 to R151). -/
structure RegionRec where
  act : Option ActWindow := none
  accepted : Bool := false
  wasActive : Bool := false
  stepping : Bool := false
  load : Nat := 0
  faultFrame : Nat := 0
  deviceRelease : Bool := false
deriving DecidableEq, Repr, Inhabited

/-- The claims on one boundary wire by its name: recorded and enabled, here and across the side (R142, R144, R672). -/
structure Claim where
  here : Bool := false
  nbr : Bool := false
  hereOn : Bool := false
  nbrOn : Bool := false
deriving DecidableEq, Repr, Inhabited

/-! ### Crelink (chapter 7) -/

/-- A fence notice: the die whose side it concerns, package edge, bundle, and whether the side has become ACTIVE (R239). -/
structure FenceNotice where
  src : Nat := 0
  edge : Nat := 0
  bundle : Nat := 0
  live : Bool := false
deriving DecidableEq, Repr, Inhabited

/-- One side of a bundle beside its registers: training (R240 to R243); whether the other side counts as ACTIVE (R238); the
receive mask that the other side advertises and the wires of the logical lanes in each direction (R237); flits waiting for a
frame, frames sent, and the last frame sent (R232). -/
structure CrlSide where
  cap : Nat := 0
  peerCap : Option Nat := none
  peerFloor : Option Nat := none
  echo : Nat := 0
  propose : Nat := 0
  agreeing : Nat := 0
  alignOk : Bool := false
  peerRxOk : Bool := false
  askedAt : Option Nat := none
  lastGood : Option Nat := none
  errWindow : Nat := 0
  winStart : Nat := 0
  rxCount : Nat := 0
  phase : Nat := 0
  peerUp : Bool := false
  peerMask : BitVec 40 := 0
  txLanes : List Nat := []
  rxLanes : List Nat := []
  wire : List Flight := []
  txCount : Nat := 0
  sentFrame : Option (BitVec 760) := none
  advert : Option (W36 × W36 × BitVec 8) := none
deriving DecidableEq, Repr, Inhabited

/-! ### Loading (chapter 5) -/

/-- Where an image comes from (R162, R165, R459). -/
inductive ImageSource where
  | flash (cs byte : Nat)
  | host (port : Nat)
  | karn (link slot : Nat)
deriving DecidableEq, Repr, Inhabited

/-- What a load is for: a full image, a partial image (REGION_LOAD with its ISOLATE flag), or a verify pass only. -/
inductive LoadKind where
  | full
  | part (isolate : Bool)
  | verify
deriving DecidableEq, Repr, Inhabited

/-- The decompressor of a pool (R174): words put out (latest first), literal words still to come, and whether a rule has been
broken. -/
structure Inflate where
  out : List W36 := []
  literal : Nat := 0
  broken : Bool := false
deriving DecidableEq, Repr, Inhabited

/-- A load in progress: what it is for and where its image comes from; its pass, the image words taken in this pass (latest
first) and how many; words streamed to it and not yet taken; what the verify pass kept: the header, directory and claim table,
and the two hashes; its decompressor; directory entries written; the port whose command waits for it, and the port that streams
it; whether UPDATE_APPLY started it; the regions it declares; and the slot it comes from, coded as CFG_STATUS.SLOT. -/
structure Loader where
  kind : LoadKind := .full
  src : ImageSource := .flash 0 0
  writing : Bool := false
  taken : List W36 := []
  count : Nat := 0
  queue : List W36 := []
  head : List W36 := []
  claimHash : BitVec 384 := 0
  imageHash : BitVec 384 := 0
  inflate : Inflate := {}
  entries : Nat := 0
  port : Option Nat := none
  stream : Option Nat := none
  update : Bool := false
  regions : BitVec 64 := 0
  slot : Nat := 0
deriving DecidableEq, Repr, Inhabited

/-- The UPDATE_APPLY service (R585): the port it answers, the channel and window, the images still to load as flash chip
select and byte (the present one first), the present index, the regions of it that are to become ACTIVE, and the AUTO_ACT
settings to restore. -/
structure UpdateRec where
  port : Option Nat := none
  chan : Nat := 0
  step : Nat := 0
  lo : Nat := 0
  hi : Nat := 0
  images : List (Nat × Nat) := []
  index : Nat := 0
  waiting : List Nat := []
  savedAuto : List (Nat × Bool) := []
deriving DecidableEq, Repr, Inhabited

/-- Configuration and start-up of the whole device beside its registers (chapter 5): its state; MODE as latched; PORST_N low;
the POR sequence running, and since when; whether DONE_WAIT_LONG has been logged in this wait; a full load waiting for its synthesisers (R179);
the release running (R187); the last slot tried (R164) and the slot of the running image (R583); headers of the slots as a Karn
source sends them (R163), while they are being asked for; a die reset pending (R643); system done, and the devices whose
KRN_LOADED has been counted (R460); dies that have returned from a reset since the release began, and count as past its stages
(R644). -/
structure ConfigRec where
  dev : DevState := .selftest
  mode : BitVec 3 := 0
  porstLow : Bool := false
  sequencing : Bool := false
  porAt : Nat := 0
  doneWaitLogged : Bool := false
  clockWait : Bool := false
  releasing : Bool := false
  lastSlot : Option Nat := none
  runningSlot : Option Nat := none
  probe : Option (List (List W36)) := none
  resetPending : Bool := false
  systemDone : Bool := false
  loadedFrom : List Nat := []
  ahead : BitVec 4 := 0
deriving DecidableEq, Repr, Inhabited

/-! ### Drone and security (chapters 18 and 19) -/

/-- Where a CMD packet's reply goes: the gateway that took it, and its source device, router, port and flow (R569). -/
structure ReplyPath where
  gateway : Nat
  dev : Nat
  router : Nat
  port : Nat
  flow : Nat
deriving DecidableEq, Repr, Inhabited

/-- One command port (R575 to R577, R671): the packet being assembled; the packet buffered and the packet running, each with
the path of its reply if it came as a CMD packet, and whether the running one has begun to be carried out; the reply held, the
word of it read next, whether it is unread and whether it is shown with REPEAT; by die the log entry up to which this port has
read; and when a refusal for want of authority was last logged. -/
structure CmdPort where
  partWords : List W36 := []
  buffered : Option (List W36) := none
  bufferedFrom : Option ReplyPath := none
  running : Option (List W36) := none
  runningFrom : Option ReplyPath := none
  begun : Bool := false
  reply : Option (List W36) := none
  readPos : Nat := 0
  unread : Bool := false
  repeatMark : Bool := false
  ackSeq : SMap Nat := []
  lastRefused : Option Nat := none
deriving DecidableEq, Repr, Inhabited

/-- A log entry: its three words (R588). -/
structure LogEntry where
  w0 : W36 := 0
  w1 : W36 := 0
  w2 : W36 := 0
deriving DecidableEq, Repr, Inhabited

/-- The time service (R591). -/
structure TimeService where
  mode : Nat := 0
  kp : Nat := 0
  ki : Nat := 0
  stepThr : Nat := 0
  first : Bool := true
  acc : Int := 0
  lastTime : Nat := 0
deriving DecidableEq, Repr, Inhabited

/-- Security in force since POR: latched level and port authorities, the unlock, the nonce, failures (R562, R600 to R603). -/
structure SecurityRec where
  level : Nat := 0
  auth : Nat := 0x3FF
  unlocked : Bool := false
  nonce : Option (BitVec 256) := none
  fails : Nat := 0
deriving DecidableEq, Repr, Inhabited

/-! ### Power and clocks (chapter 17) -/

/-- A domain beside its registers: the entry's target and whether it has committed, why it wakes, when the wake will be
complete, the level it changes to (R540 to R550). -/
structure DomRec where
  target : Nat := 0
  committed : Bool := false
  wakeCause : Nat := 0
  wakeEnd : Nat := 0
  queued : Bool := false
  levelTo : Nat := 0
  levelBusy : Bool := false
  levelSteps : Nat := 0
deriving DecidableEq, Repr, Inhabited

/-- Clocking of one die beside its registers: domains being raised and waiting to be raised (R546), bad and good windows
in a row (R557, R559). -/
structure DieClock where
  raising : List Nat := []
  waiting : List Nat := []
  badRun : Nat := 0
  goodRun : Nat := 0
deriving DecidableEq, Repr, Inhabited

/-- A divider ramp: the step of R556 it stands at (0 none), and the source it goes to. -/
structure Ramp where
  step : Nat := 0
  src : Nat := 0
deriving DecidableEq, Repr, Inhabited

/-! ### Karn links (chapter 14) and performance counters (chapter 20) -/

/-- A link key slot: key, salt, key identifier, frames sent since it took effect, and frames received under it (R463). -/
structure KarnKey where
  key : BitVec 256 := 0
  salt : BitVec 32 := 0
  id : Nat := 0
  tx : Nat := 0
  rx : Nat := 0
deriving DecidableEq, Repr, Inhabited

/-- A message that a link engine sends (R459, R461): a request for image words of slot A or B, image words, device time, and
positions (channel, integer, latest stamp, P). -/
inductive KarnMsg where
  | bootReq (slotB : Bool) (first count : Nat)
  | imageData (first : Nat) (words : List W36)
  | time (t : Nat)
  | pos (chans : List (Nat × Nat × Nat × Nat))
deriving DecidableEq, Repr, Inhabited

/-- A Karn link beside its registers (R452, R453, R461 to R464): buffers, credits held and to be returned, frame counts, the
two key slots, times of the last tag failures, line time in use, the last frame sent and the blocks sent since the link became
ACTIVE, messages waiting and the last one sent, the difference of local from far device time, and what this side sends in EXCHANGE:
device number, link number, ENC, key identifier and ASSIGN (R448, R450); and whether it waits, since its die returned from a reset,
for LINK_KEY and for the route table (R645). -/
structure KarnLink where
  rxBuf : List Flight := []
  txBuf : List Flight := []
  credits : Nat := 0
  freed : Nat := 0
  txSeq : Nat := 0
  lastSeq : Option Nat := none
  active : Option KarnKey := none
  pending : Option KarnKey := none
  rxPhase : Nat := 0
  tagFails : List Nat := []
  busyTo : Nat := 0
  lastFrame : Option KarnFrame := none
  msgs : List KarnMsg := []
  lastMsg : Option KarnMsg := none
  timeOff : Int := 0
  blocks : Nat := 0
  offer : Option (Nat × Nat × Bool × Nat × Nat) := none
  needKey : Bool := false
  needRoute : Bool := false
deriving DecidableEq, Repr, Inhabited

/-- A counter block (R634 to R640): the cycle counter, SELECT counters by index, EVERY words and fast counters by event,
events whose word fails its check, SELECT counters (8 for the cycle counter) that have wrapped and are to be reported. -/
structure Pmc where
  cyc : Nat := 0
  cnt : SMap Nat := []
  words : SMap Nat := []
  fast : SMap Nat := []
  bad : List Nat := []
  wrapped : List Nat := []
deriving DecidableEq, Repr, Inhabited
/-! ### Oboe cores (chapters 8 and 9) -/

/-- How a write in the pipeline changes a register: a field replaced, or BEX lowered (R259). -/
inductive WriteOp where
  | put (lo width value : Nat)
  | minBex (r : Nat)
deriving DecidableEq, Repr

/-- A register write on its way: the oc at whose end it lands, the register by its R280 code, whether a following operation
on the same accumulator sees it forwarded (R255). -/
structure CoreWrite where
  land : Nat
  code : Nat
  fwd : Bool := false
  op : WriteOp
deriving DecidableEq, Repr

/-- A sample stored by the core on its way to memory 1 X or 2 Y: the oc at whose end it lands (R255). -/
structure CoreStore where
  land : Nat
  mem : Nat
  addr : Nat
  value : Nat
deriving DecidableEq, Repr

/-- A loop-stack entry (R262): the previous LC, the start and end addresses, the count. -/
structure LoopRec where
  prev : Nat
  start : Nat
  fin : Nat
  count : Nat
deriving DecidableEq, Repr

/-- The task a core's interface holds: flow, sequence and attempt (R273). -/
structure HeldTask where
  flow : Nat
  seq : Nat
  attempt : Nat
deriving DecidableEq, Repr

/-- A DMA channel's transfer: its registers as started, the next word to request or send, words done (R276, R277). -/
structure DmaChan where
  ctrl : W36 := 0
  localReg : W36 := 0
  ghi : Nat := 0
  glo : Nat := 0
  words : Nat := 0
  next : Nat := 0
  done : Nat := 0
deriving DecidableEq, Repr, Inhabited

/-- A DMA read on its way: channel, next word index, words still to come, and its destination and flow as a key. -/
structure DmaRead where
  chan : Nat
  word : Nat
  left : Nat
  key : Nat
deriving DecidableEq, Repr

/-- One Oboe core beside its OBE_ registers and memories (R245 to R273). `file` is the register file by R280 code, the
accumulators whole under 4 and 5. -/
structure Core where
  file : SMap Nat := []
  pend : List CoreWrite := []
  stores : List CoreStore := []
  /-- The oc at which the next instruction enters AG. -/
  cycle : Nat := 4
  /-- The address of that instruction, and of the one last in AG. -/
  pc : Nat := 0
  agPc : Nat := 0
  /-- Delay slots still to run, and where a taken branch goes after them. -/
  slots : Nat := 0
  target : Option Nat := none
  /-- Repetitions of the next instruction still to run (0: none in progress). -/
  rep : Nat := 0
  /-- Instructions of a LOCK sequence still to run. -/
  lock : Nat := 0
  sys : List (Nat × Nat) := []
  loops : List LoopRec := []
  hlatch : Nat := 0
  /-- NMI causes recorded and not yet taken, and whether a watchdog expiry belongs to the NMI running (R267). -/
  nmiWdog : Bool := false
  nmiClk : Bool := false
  wdogSeen : Bool := false
  /-- The vector-1 handler runs, and how deep the system stack was at its entry (R275). -/
  inPoison : Bool := false
  poisonAt : Nat := 0
  /-- The oc at which the watchdog's count last started or stopped, and the oc it had left then (R269). -/
  wdogBase : Nat := 0
  wdogLeft : Nat := 0
  task : Option HeldTask := none
  areaReady : Bool := false
  parts : List Flit := []
  tokens : List Packet := []
  gotDispatch : Bool := false
  /-- EMIT packets made since the core's die left reset, and whether the last was reported failed (R321). -/
  emits : Nat := 0
  lastFailed : Bool := false
  readySent : Bool := false
  dma : SMap DmaChan := []
  reads : List DmaRead := []
  /-- Multi-flit WRITE_REQ in progress at the OBOE port: next offset and words left. -/
  writing : List (Nat × Nat × Nat) := []
  /-- Debug: halt requested, one instruction to step, the state a halt left, what HALT_INFO shows of it, and a wake recorded
  while halted (R624 to R631). -/
  haltAsked : Bool := false
  stepping : Bool := false
  haltedFrom : Nat := 0
  haltForced : Bool := false
  lockBroken : Bool := false
  wakeNoted : Bool := false
deriving DecidableEq, Repr, Inhabited

/-- A memory with a remap table beside its words (R77 to R80, R252, R497). -/
structure MemRec where
  remap : List RemapEntry := []
  lastFail : Option Nat := none
deriving DecidableEq, Repr, Inhabited


/-! ### Bellows (chapter 10) -/

/-- An operand or result as Bellows holds it: its words, whether they arrived with POISON, whether they fail their check, and
whether they fail with the syndrome of a word marked poisoned (R79, R308, R311, R496). -/
structure BlwSlot where
  count : Nat := 0
  ref : Bool := false
  w0 : W36 := 0
  w1 : W36 := 0
  w2 : W36 := 0
  poison : Bool := false
  bad : Bool := false
  marked : Bool := false
deriving DecidableEq, Repr, Inhabited

/-- A staged token of a task (R332). -/
structure BlwStaged where
  tpl : Nat := 0
  slot : Nat := 0
  release : Bool := false
  data : BlwSlot := {}
deriving DecidableEq, Repr, Inhabited

/-- Where a store entry stands: operands missing, window-held, in its ready list, or dispatched (R311, R312). -/
inductive BlwPhase where
  | filling | held | ready
  | out (worker tag : Nat)
deriving DecidableEq, Repr, Inhabited

/-- An entry of the matching store with its task (R311 to R317, R332 to R336). -/
structure BlwEntry where
  slots : SMap (Option BlwSlot) := []
  phase : BlwPhase := .filling
  attempt : Nat := 0
  joined : Nat := 0
  staged : List BlwStaged := []
  declared : Bool := false
  retried : Bool := false
  /-- When the first token of the entry's item arrived (R351). -/
  first : Nat := 0
deriving DecidableEq, Repr, Inhabited

/-- A window position that holds any state: when its first token arrived, a waiting release with its task's template, or its
failure's cause and template; 256 stands for no template (R337 to R341). -/
structure BlwMark where
  first : Nat := 0
  release : Option (BlwSlot × Nat) := none
  failed : Option (Nat × Nat) := none
deriving DecidableEq, Repr, Inhabited

/-- An item in the result queue (R342, R343). -/
structure BlwItem where
  head : W36 := 0
  data : BlwSlot := {}
deriving DecidableEq, Repr, Inhabited

/-- A worker beside its registers: tags held, with the key of their task or none where stale; the state under HELD; its busy
samples of the last 1,000 µs (R319, R320, R331, R351). -/
structure BlwWorker where
  tags : List (Nat × Option Nat) := []
  was : Nat := 0
  samples : BitVec 1000 := 0
deriving DecidableEq, Repr, Inhabited

/-- A FAB port's engine: slots of the packet being taken, whether its receive ring is past lap 0, failure records still to be
written (R326 to R328). -/
structure FabMail where
  parts : List Flit := []
  rxLapped : Bool := false
  failures : List (W36 × W36) := []
deriving DecidableEq, Repr, Inhabited

/-! ### Position timebase, cues and user pins (chapters 11 and 12) -/

/-- An encoder channel on a die beside its registers (R355 to R361, R369 to R372): accepted levels, the integer, the fraction
while it does not move, the stamp of the latest count, the interval P, intervals kept for coasting, consecutive counts
against the direction and whether they are to be corrected, the Z latch, the snapshots of the last ticks (tick, q, VALID),
the tick of the latest correction, the tick of a neighbour's count adopted, whether a LOADING channel has heard a VALID neighbour,
the direction in which it coasts, the device time at which the latest count was accepted, and the followed counts still to be accepted (integer, stamp, P) (R462). -/
structure ChnCh where
  a : Bool := false
  b : Bool := false
  z : Bool := false
  int : Nat := 0
  frac : Nat := 0
  stamp : Option Nat := none
  period : Option Nat := none
  forward : Bool := false
  intervals : List Nat := []
  revRun : Nat := 0
  revFix : Bool := false
  quadLog : Option Nat := none
  zlat : Nat := 0
  zseen : Bool := false
  coast : Option Nat := none
  snaps : List (Nat × Nat × Bool) := []
  corrected : Nat := 0
  adopted : Option Nat := none
  heard : Bool := false
  coastUp : Bool := false
  accepted : Nat := 0
  due : List (Nat × Nat × Option Nat) := []
deriving DecidableEq, Repr, Inhabited

/-- A die's part in time and agreement (R364 to R371): received frames with their edge, the frames it last drove on POS_D with
theirs, operations received, the error being removed and for how long, its rate as adjusted to the master's, the fraction of a rate
correction, whether it has not yet acted on a pulse since its own reset, and the device time of the last pulse it drove. -/
structure ChnDie where
  frames : List (Nat × BitVec 256) := []
  out : List (Nat × BitVec 256) := []
  ops : List (Nat × Nat × Nat) := []
  slew : Int := 0
  slewDone : Nat := 0
  rate : Int := 0
  rateAcc : Int := 0
  afterReset : Bool := false
  pulse : Nat := 0
deriving DecidableEq, Repr, Inhabited

/-- What the dies share: the time master, the latest agreement tick, D0's queue of operations and the one in progress with
its first tick (R363, R367, R371). -/
structure ChnShared where
  master : Nat := 0
  tick : Nat := 0
  queue : List (Nat × Nat) := []
  current : Option (Nat × Nat × Nat) := none
deriving DecidableEq, Repr, Inhabited

/-- A pattern being sent: its header's address, length in bits, the rising edge of the word clock, in ns, and the 1/8-bit step after
it at which its first bit leaves the serialiser, the data words read so far, whether one failed its check, and whether the pin does
not show it (R375 to R377, R379, R380). -/
structure CueSend where
  addr : Nat := 0
  len : Nat := 0
  base : Nat := 0
  step : Nat := 0
  words : List W36 := []
  cut : Bool := false
  masked : Bool := false
deriving DecidableEq, Repr, Inhabited

/-- A serialiser's cue FIFO and sender (R373 to R382): entries, word 0 of an entry being written, whether the next word 1 is
to be discarded, repetitions of the head started, its STRIDE and REPEAT once read, reports made for it, the pattern on
its way; and the pair's word-boundary slips, when the last was, and the word clocks since (R388). -/
structure Cue where
  fifo : List (W36 × W36) := []
  half : Option W36 := none
  skipOne : Bool := false
  reps : Nat := 0
  header : Option W36 := none
  late : Bool := false
  lateLogged : Bool := false
  woken : Bool := false
  sending : Option CueSend := none
  slips : Nat := 0
  lastSlip : Option Nat := none
  slipEdges : Nat := 0
deriving DecidableEq, Repr, Inhabited

/-- A bank's latch (R400, R401): whether it is latched, which pins drive, and their levels; and what its word clock's edges have
sampled and presented (R396): the last words of TXD and OE, 12 bits a pair, with the time of each edge, the latest first, and the
signals of R392. -/
structure UioBank where
  latched : Bool := false
  drive : BitVec 48 := 0
  level : BitVec 48 := 0
  words : List (Nat × BitVec 288) := []
  shown : BitVec 488 := 0
deriving DecidableEq, Repr, Inhabited

/-! ### Transceivers and Ethernet (chapter 13) -/

/-- A transceiver lane beside its registers: whether it carries words; transmit and receive FIFOs; the word presented to the fabric
(signals 0 to 79 of its slot), and TX_RDY and ACTIVE as the last edge of FCLK presented them; whether its group waits RETRY_WAIT or
has logged a failure since it was enabled; code errors of the last 64 words; the far loop's elastic buffer; the PRBS checker's last
bits and the generator; line bits on their way to the balls, each with the time it left the FIFO, and those on the balls, none in
electrical idle; the encoder's and decoder's running disparity and scrambler registers; and the line bits last received (R417 to
R422, R426 to R428, R430, R434, R435). -/
structure LaneRec where
  live : Bool := false
  txFifo : List (BitVec 72) := []
  rxFifo : List (BitVec 80) := []
  shown : Option (BitVec 80) := none
  retryWait : Bool := false
  failLogged : Bool := false
  errs : List Nat := []
  rdyOut : Bool := true
  upOut : Bool := false
  elastic : List (Option (BitVec 128)) := []
  prbs : BitVec 31 := 0
  prbsTx : BitVec 31 := 1
  held : List (Nat × BitVec 128) := []
  line : Option (BitVec 128) := none
  rd : Bool := false
  rdRx : Bool := false
  scr : BitVec 58 := 0
  scrRx : BitVec 58 := 0
  prev : BitVec 80 := 0
deriving DecidableEq, Repr, Inhabited

/-- A received client word as it is presented (R440). -/
structure RxWord where
  data : BitVec 512 := 0
  sop : Bool := false
  eop : Bool := false
  err : Bool := false
  empty : Nat := 0
  port : Nat := 0
  ts : Nat := 0
deriving DecidableEq, Repr, Inhabited

/-- A MAC beside its registers: the receive FIFO, the word presented, transmit timestamps to report and the one shown
(sub-port, tag, time), and TX_RDY of the sub-ports as the last edge of CCLK presented it (R426, R440 to R442). -/
structure MacRec where
  rxq : List RxWord := []
  shown : Option RxWord := none
  tsq : List (Nat × Nat × Nat) := []
  tsShown : Option (Nat × Nat × Nat) := none
  rdyOut : BitVec 4 := 15
deriving DecidableEq, Repr, Inhabited

/-- A sub-port's transmit side: its FIFO, the octets of the frame on the line so far, that frame's one-step time and offset,
bits of line time until the next word is due, frames on their way to the balls with the time each was whole, the last frame sent
with its FCS, and remote-fault blocks received with the other blocks since (R428, R437 to R439, R442). -/
structure EthSub where
  txq : List ClientWord := []
  cur : Option (List (BitVec 8)) := none
  step : Option (Nat × Nat) := none
  busy : Nat := 0
  held : List (Nat × List (BitVec 8)) := []
  out : List (BitVec 8) := []
  faults : Nat := 0
  clean : Nat := 0
deriving DecidableEq, Repr, Inhabited

/-! ### DRAM and its protection (chapters 15 and 16) -/

/-- A line as DRAM holds it: its 16 words and its check field (R467, R503). -/
structure DramLine where
  data : BitVec 576 := 0
  chk : BitVec 64 := 0
deriving DecidableEq, Repr, Inhabited

/-- A channel's keys (R505). -/
structure MieKeys where
  data : BitVec 256 := 0
  mac : BitVec 256 := 0
  tweak : BitVec 256 := 0
deriving DecidableEq, Repr, Inhabited

/-- A counter-cache line: its address, its words with four check bits each, whether it is dirty, the mirror of a dirty entry, none
where that fails its check, and whether it is a tag line that could not be read (R517, R519, R522). -/
structure CacheLine where
  addr : Nat := 0
  data : BitVec 576 := 0
  chk : BitVec 64 := 0
  dirty : Bool := false
  mirror : Option (BitVec 576) := none
  poison : Bool := false
deriving DecidableEq, Repr, Inhabited

/-- A line access in a sub-channel's queues: its read request, or the words it writes by their place in the line; `poison` marks a
write stored poisoned, and an access whose queue entry fails its check (R476, R481, R496). -/
structure LineAccess where
  line : Nat := 0
  write : Bool := false
  req : Nat := 0
  words : List (Nat × W36) := []
  poison : Bool := false
  order : Nat := 0
  since : Nat := 0
deriving DecidableEq, Repr, Inhabited

/-- A read request being served: the lines still to come and the words read so far by offset (R476, R483). -/
structure ReadJob where
  id : Nat := 0
  flit : Flit := {}
  left : Nat := 0
  words : List (Nat × W36 × Bool) := []
deriving DecidableEq, Repr, Inhabited

/-- A write request of several flits being taken: its stream, first flit, words still to come, and words so far with the
POISON of their flit (R476, R481). -/
structure WriteJob where
  key : Nat := 0
  flit : Flit := {}
  left : Nat := 0
  words : List (W36 × Bool) := []
deriving DecidableEq, Repr, Inhabited

/-- A DDR5 channel beside its registers: queued accesses of both sub-channels in arrival order, whether each write queue
drains, open rows by bank (row + 1), banks served in strict order up to an arrival (R478, R479); requests in service; the
error queue; bring-up step and rank, whether the DRAM is in self-refresh from a die reset, whether SPARE_FREE
has been set since POR; the logical rank being migrated, ranks reported without a
spare, ranks held for a persistent command error; keys, root registers with their second copies, counter cache (latest use
first), the old counters of a group that a REKEY walk is in, MAC checks outstanding (R505 to R529). -/
structure DdrChan where
  queue : List LineAccess := []
  draining : BitVec 2 := 0
  rows : SMap Nat := []
  strict : SMap Nat := []
  order : Nat := 0
  jobs : List ReadJob := []
  taking : List WriteJob := []
  errq : List (Nat × Nat) := []
  step : Nat := 0
  rank : Nat := 0
  selfRefreshed : Bool := false
  spareSet : Bool := false
  lastRange : Option Nat := none
  migRank : Nat := 0
  noSpare : BitVec 4 := 0
  held : BitVec 4 := 0
  keys : Option MieKeys := none
  oldKeys : Option MieKeys := none
  root : List (Option Nat × Option Nat) := []
  cache : List CacheLine := []
  rekeyOld : Option Nat := none
  macs : List (Nat × Bool) := []
deriving DecidableEq, Repr, Inhabited

/-! ### Test access and debug (chapter 20) -/

/-- A die's test access port and debug block beside its registers (R610 to R622): the instruction loaded and whether the last
one was refused; the boundary register's update cells, three per pin p of bank b from bit 3 (48 b + p): input, output, output
enable; whether the last MAILBOX update asked for a reply word; the cores attached; the operation that is BUSY; and what the
debug register captures. -/
structure DieTap where
  ir : Nat := 2
  refused : Bool := false
  boundary : BitVec 288 := 0
  ask : Bool := false
  attached : BitVec 64 := 0
  busy : Option (Nat × Nat × W36) := none
  begun : Bool := false
  force : Option Nat := none
  lastOp : Nat := 0
  lastStatus : Nat := 0
  lastAddr : Nat := 0
  lastData : W36 := 0
deriving DecidableEq, Repr, Inhabited

/-- Everything of the part but its configuration flash and the queue of commands. -/
structure Chip where
  /-- Nanoseconds gone by: the model's own clock for the quiet times of R209 and R210. -/
  now : Nat := 0
  /-- How many free values have been taken: the model's own counter. -/
  free : Nat := 0
  /-- The words the last read command returned. -/
  returned : List W36 := []
  /-- The registers written since their last reset, by die * 2^23 + word offset (R10, R31); the others read their Reset column. -/
  regs : SMap W36 := []
  cfg : ConfigRec := {}
  /-- Loads in progress: key 0 to 3 a REGION_LOAD or UPDATE_VERIFY of that die, key 4 a full load (R131). -/
  loads : SMap (Option Loader) := []
  /-- UPDATE_APPLY services by die. -/
  updates : SMap (Option UpdateRec) := []
  /-- Configuration frame words, by frame address * 64 + word (R171, R81). -/
  frames : SMap W36 := []
  /-- The always-on copy of the die-global frames (R645). -/
  globalKept : SMap W36 := []
  /-- Flip-flop outputs, by ((die, cy, cx), cell). -/
  ff : SMap Bool := []
  lutRam : SMap LutRam := []
  /-- Reservoir RAM words, by (die, RAM, word address). -/
  ramWords : SMap RamWord := []
  ramMacros : SMap RamMacro := []
  /-- Handshake gates, by (die, region, side, gate) of the write half. -/
  gates : SMap Gate := []
  regions : SMap RegionRec := []
  /-- Claims on boundary wires, by (die, region, side, index v) of the wire's name (R672). -/
  claims : SMap Claim := []
  /-- Hold-last latches, by (die, region, side, index v) (R134). -/
  latches : SMap Bool := []
  /-- Values held inside a closed collar, by (die, cy, cx, lane end), and those of the signals that an edge block drives into the
  region, by (die, region, side, signal) (R132). -/
  frozen : SMap Bool := []
  frozenEdge : SMap Bool := []
  /-- The collar frame words in force, by frame address * 64 + word: those of the region's last completed load, which outlast the
  writing of its frames (R134, R148). -/
  collars : SMap W36 := []
  /-- Dividers of regional clocks, by (die, region, k) (R113). -/
  dividers : SMap Divider := []
  flights : List Flight := []
  /-- The last nc that a router has had, and the present nc of each router. -/
  nc : Nat := 0
  ncUse : SMap NcUse := []
  /-- NoC port interfaces, by router * 4 + port; when each die last returned from its reset (R218). -/
  ports : SMap NocPort := []
  returnedAt : SMap (Option Nat) := []
  /-- Crelink bundle sides, by (die, edge, bundle). -/
  crl : SMap CrlSide := []
  /-- What each die knows of every bundle: bit 8 * edge + k is 1 while the bundle is ACTIVE (R224, R239). -/
  live : SMap (BitVec 32) := []
  /-- Fence notices that a die has sent on MGT_D of an inner edge and that have not arrived, by 2 * die + e (R239). -/
  notices : SMap (List FenceNotice) := []
  /-- Karn links, by device link number 4d + k (R446). -/
  karn : SMap KarnLink := []
  /-- Counter blocks: key 64d + n of a core, 256 + d of a die. -/
  pmc : SMap Pmc := []
  /-- Oboe cores, by 64d + n; their P (0), X (1) and Y (2) words by ((core, memory), address), and the remap tables. -/
  cores : SMap Core := []
  coreMem : SMap RamWord := []
  coreMems : SMap MemRec := []
  /-- Bellows: matching-store entries by ((die, template, flow), sequence); ready lists of entry keys by ((die, class),
  priority); window-held entries of a die in order of joining; window positions by ((die, flow), sequence); result queues;
  workers by die * 192 + w; FAB port engines by die * 128 + q. -/
  blwStore : SMap (Option BlwEntry) := []
  blwReady : SMap (List Nat) := []
  blwHeld : SMap (List Nat) := []
  blwWindow : SMap (Option BlwMark) := []
  blwQueue : SMap (List BlwItem) := []
  blwWorkers : SMap BlwWorker := []
  fabMail : SMap FabMail := []
  /-- Position timebase: channels by 2d + c; dies; serialisers by 48d + k; pattern RAM words by (2d + b) * 65536 + address,
  and their remap tables; bank latches by 2d + b. -/
  chn : SMap ChnCh := []
  chnDies : SMap ChnDie := []
  chnAll : ChnShared := {}
  cues : SMap Cue := []
  patWords : SMap RamWord := []
  patMems : SMap MemRec := []
  /-- Remap tables of the matching stores by die * 2^16 + macro, of the counter caches by (2d + c) * 2^16 + macro (R497). -/
  blwMems : SMap MemRec := []
  cacheMems : SMap MemRec := []
  banks : SMap UioBank := []
  /-- The present health window of each pin: samples and mismatches (R404). -/
  health : SMap (Nat × Nat) := []
  /-- Transceiver lanes by (8d + q) * 4 + l; the reference clock of each quad in Hz as its PLL locked to it, by 8d + q;
  Ethernet MACs by 2d + m; their sub-ports by (2d + m) * 4 + s. -/
  lanes : SMap LaneRec := []
  quadRef : SMap Nat := []
  macs : SMap MacRec := []
  subs : SMap EthSub := []
  /-- DRAM lines by ((2d + c) * 4 + physical rank) * 2^34 + rank-local index; channels by 2d + c. -/
  dram : SMap DramLine := []
  ddr : SMap DdrChan := []
  /-- Test access ports and debug blocks, by die. -/
  taps : SMap DieTap := []
  cmds : SMap CmdPort := []
  log : SMap LogEntry := []
  timeSvc : TimeService := {}
  sec : SecurityRec := {}
  /-- The fuses (R594). -/
  fuses : Fuses := {}
  /-- Device time of each die in nanoseconds, modulo 2^64 (R363). -/
  devTime : SMap Nat := []
  /-- Power domains, by die * 64 + domain; die clocking by die; divider ramps by die * 128 + clock (0 to 23 global clocks,
  32 + d the island of domain d). -/
  doms : SMap DomRec := []
  clocks : SMap DieClock := []
  ramps : SMap Ramp := []
  /-- Samples in a row in which a rail lay outside its tolerance, by die * 8 + rail (R586). -/
  railOut : SMap Nat := []
  /-- Dies in reset, dies whose reset has been scheduled (R643, R644). -/
  inReset : BitVec 4 := 0
  resetDue : BitVec 4 := 0
  /-- The secure-halt line as driven by each die, and whether ALERT_N is driven low (R230, R587). -/
  haltOut : BitVec 4 := 0
  haltDie : Option Nat := none
deriving DecidableEq, Repr, Inhabited

/-- The machine's whole state. -/
structure State where
  chip : Chip := {}
  /-- Configuration flash octets, by chip select * 2^32 + byte address; an unlisted octet reads as erased (log 4). -/
  flash : SMap (BitVec 8) := []
  /-- Commands waiting, first in, first out. -/
  pending : List Instr := []
deriving DecidableEq, Repr, Inhabited

/-- Reasons a step stops with a fault. The spec gives the part no fault that stops it, so no meaning raises one; the
constructor keeps the type inhabited. Safe. -/
inductive Fault where
  | unreachable
deriving DecidableEq, Repr

/-- Reasons a command is refused. -/
inductive Refusal where
  /-- The command has no meaning in this model; raised by an arm of exec only. Safe. -/
  | notModelled (mnemonic : String)
deriving DecidableEq, Repr

/-- The machine as it leaves POR: SELFTEST has begun, every register reads its Reset column (R14, R157), every memory is
blank, and no command waits. -/
def State.reset : State := {}

end Sys2Proof.Machine
end

