-- ==== Sys2Proof/Machine/Ops.lean ====
section
/-! DEFINITION. The named operations every command uses: register fields, coordinates, check bits, the event log, sending
a packet, and the start of a wake. -/

namespace Sys2Proof.Machine

/-! ### Outcomes -/

/-- The outcome type of every command. -/
abbrev Out := Host.Outcome State Fault Refusal

/-- A command whose whole effect lies in the chip. -/
def State.onChip (s : State) (f : Chip → Chip) : Out := .next { s with chip := f s.chip }

/-- f where the condition holds; otherwise no effect. -/
def Chip.when (s : Chip) (c : Bool) (f : Chip → Chip) : Chip := if c then f s else s

/-- f applied for every element of a list, in order. -/
def Chip.each {α : Type} (s : Chip) (xs : List α) (f : Chip → α → Chip) : Chip := xs.foldl f s

/-- f applied for i = 0 to n - 1, in order. -/
def Chip.upTo (s : Chip) (n : Nat) (f : Chip → Nat → Chip) : Chip := (List.range n).foldl f s

/-! ### Registers (R10 to R14, R31) -/

/-- Whether a relative offset is one of a register's index combinations. -/
def dimsHit : List (Nat × Nat) → Nat → Bool
  | [], rel => rel == 0
  | (count, stride) :: ds, rel => dimsHit ds (rel - min (rel / stride) (count - 1) * stride)

/-- Whether a register row covers a word offset. -/
def RegRow.covers (r : RegRow) (off : Nat) : Bool := !decide (off < r.base) && dimsHit r.dims (off - r.base)

/-- The register row at a word offset, if the spec places a register there. -/
def findRow (off : Nat) : Option RegRow := regRows.find? (fun r => r.covers off)

/-- The Reset column of the register at a word offset (R14). -/
def resetWord (off : Nat) : W36 :=
  match findRow off with
  | some r => r.flds.foldl (fun w f => putBits w f.lo f.width f.reset) 0
  | none => 0

/-- The key of a die's register. -/
def regKey (d off : Nat) : Nat := d * 2 ^ 23 + off

/-- A register of a die: what was last written, or its Reset column. -/
def Chip.reg (s : Chip) (d off : Nat) : W36 :=
  match SMap.find? s.regs (regKey d off) with
  | some w => w
  | none => resetWord off

/-- A register of a die set to a word. -/
def Chip.setReg (s : Chip) (d off : Nat) (w : W36) : Chip :=
  { s with regs := SMap.put s.regs (regKey d off) w }

/-- A field of a register of a die. -/
def Chip.fld (s : Chip) (d : Nat) (f : Fld) : Nat := bits (s.reg d f.off) f.lo f.width

/-- A field set; the value is cut to the field. -/
def Chip.setFld (s : Chip) (d : Nat) (f : Fld) (v : Nat) : Chip :=
  s.setReg d f.off (putBits (s.reg d f.off) f.lo f.width v)

/-- A one-bit field. -/
def Chip.flag (s : Chip) (d : Nat) (f : Fld) : Bool := s.fld d f == 1

/-- A one-bit field set. -/
def Chip.setFlag (s : Chip) (d : Nat) (f : Fld) (b : Bool) : Chip := s.setFld d f (ofBool b)

/-- A counter field advanced, wrapping at its width. -/
def Chip.addFld (s : Chip) (d : Nat) (f : Fld) (n : Nat) : Chip := s.setFld d f (s.fld d f + n)

/-- A counter field advanced, saturating at its width. -/
def Chip.satFld (s : Chip) (d : Nat) (f : Fld) (n : Nat) : Chip :=
  s.setFld d f (min (s.fld d f + n) (2 ^ f.width - 1))

/-- Every register of a die from `lo` to `hi` - 1 back at its reset value. -/
def Chip.resetRegs (s : Chip) (d lo hi : Nat) : Chip :=
  { s with regs := SMap.dropRange s.regs (regKey d lo) (regKey d hi) }

/-- One field after a write of w over old, by its access type (R11): RW takes the written bits, W1C clears where 1 is
written, the others are unchanged. -/
def FldRow.written (f : FldRow) (old w : W36) : W36 :=
  match f.acc with
  | .rw => putBits old f.lo f.width (bits w f.lo f.width)
  | .w1c => old &&& ~~~(putBits 0 f.lo f.width (bits w f.lo f.width))
  | _ => old

/-- A write of a register by its table alone (R11 to R13): reserved bits and unused offsets are ignored. -/
def Chip.plainWrite (s : Chip) (d off : Nat) (w : W36) : Chip :=
  match findRow off with
  | some r => s.setReg d off (r.flds.foldl (fun old f => f.written old w) (s.reg d off))
  | none => s

/-! ### Coordinates (R19 to R28, R189) -/

/-- The die of a router. -/
def dieOf (router : Nat) : Nat := 2 * (router / 16 / 8) + router % 16 / 8

/-- The global router number at die-local (x, y). -/
def routerAt (d x y : Nat) : Nat := 16 * (y + 8 * (d / 2)) + x + 8 * (d % 2)

/-- Die-local x of a router. -/
def localX (router : Nat) : Nat := router % 8

/-- Die-local y of a router. -/
def localY (router : Nat) : Nat := router / 16 % 8

/-- The region a router belongs to (R19). -/
def regionOf (router : Nat) : Nat := 4 * (localY router / 2) + localX router / 2

/-- The core on a router's OBOE port (R20). -/
def coreOf (router : Nat) : Nat := 4 * regionOf router + 2 * (localY router % 2) + localX router % 2

/-- The router of core n of a die (R20). -/
def coreRouter (d n : Nat) : Nat := routerAt d (2 * (n / 4 % 4) + n % 2) (2 * (n / 16) + n % 4 / 2)

/-- A die's gateway router (R27). -/
def gatewayOf (d : Nat) : Nat := routerAt d 0 0

/-- The home router of a die's DDR5 channel (R27). -/
def ddrHome (d c : Nat) : Nat := routerAt d (if d % 2 = 0 then 0 else 7) (if c = 0 then 2 else 5)

/-- The DDR5 channel whose home a router is. -/
def ddrChanOf (router : Nat) : Option Nat :=
  let d := dieOf router
  if router = ddrHome d 0 then some 0 else if router = ddrHome d 1 then some 1 else none

/-- The NoC port FAB0, FAB1, OBOE or SYS of a router as one number. -/
def portKey (router port : Nat) : Nat := router * 4 + port

/-- The part's own device number (R25). -/
def Chip.ownDevice (s : Chip) : Nat := s.fld 0 F.KRN_DEVNUM_NUM

/-! ### Check bits (R64, R677) -/

/-- Four check bits of a word: bit j is the parity of data bits 4m + j (R64). -/
def checkBits (w : W36) : BitVec 4 :=
  (List.range 9).foldl (fun c m => c ^^^ BitVec.ofNat 4 (w.toNat >>> (4 * m) % 16)) 0

/-- One step of the CRC-8 of R677. -/
def crc8Step (r : BitVec 8) (b : Bool) : BitVec 8 :=
  if (b != r.getLsbD 7) then (r <<< 1) ^^^ 0x07#8 else r <<< 1

/-- The CRC-8 of R677 over bits in the order given. -/
def crc8 (bs : List Bool) : BitVec 8 := bs.foldl crc8Step 0

/-- The five octets of a word, most significant first (R169). -/
def wordOctets (w : W36) : List (BitVec 8) :=
  [bits w 32 4, bits w 24 8, bits w 16 8, bits w 8 8, bits w 0 8].map (BitVec.ofNat 8)

/-- The bits of an octet, most significant first. -/
def octetBits (o : BitVec 8) : List Bool := (List.range 8).map (fun i => o.getLsbD (7 - i))

/-- One step of the CRC-32 of IEEE 802.3, least significant bit first. -/
def crc32Step (r : BitVec 32) (b : Bool) : BitVec 32 :=
  if (b != r.getLsbD 0) then (r >>> 1) ^^^ 0xEDB88320#32 else r >>> 1

/-- The CRC-32 of IEEE 802.3 over octets (R169). -/
def crc32 (os : List (BitVec 8)) : BitVec 32 :=
  ~~~ (os.foldl (fun r o => (List.range 8).foldl (fun r i => crc32Step r (o.getLsbD i)) r) 0xFFFFFFFF#32)

/-! ### Flits (R193) -/

/-- A flit with good check bits in every word. -/
def Flit.seal (f : Flit) : Flit :=
  { f with chk := (checkBits f.w5 ++ checkBits f.w4 ++ checkBits f.w3 ++ checkBits f.w2 ++ checkBits f.w1 ++
      checkBits f.w0 : BitVec 24) }

/-- The syndrome of word i of a flit. -/
def Flit.syndrome (f : Flit) (i : Nat) : BitVec 4 :=
  let w := if i = 0 then f.w0 else if i = 1 then f.w1 else if i = 2 then f.w2 else if i = 3 then f.w3
    else if i = 4 then f.w4 else f.w5
  checkBits w ^^^ BitVec.ofNat 4 (bits f.chk (4 * i) 4)

def Flit.dstDev (f : Flit) : Nat := bits f.w0 25 11
def Flit.dstRouter (f : Flit) : Nat := bits f.w0 17 8
def Flit.dstPort (f : Flit) : Nat := bits f.w0 14 3
def Flit.typ (f : Flit) : Nat := bits f.w0 10 4
def Flit.flow (f : Flit) : Nat := bits f.w0 0 10
def Flit.srcDev (f : Flit) : Nat := bits f.w1 25 11
def Flit.srcRouter (f : Flit) : Nat := bits f.w1 17 8
def Flit.srcPort (f : Flit) : Nat := bits f.w1 14 3
def Flit.seq (f : Flit) : Nat := bits f.w1 2 12
def Flit.last (f : Flit) : Bool := bit f.w1 1
def Flit.poison (f : Flit) : Bool := bit f.w1 0

/-- Header word 0. -/
def head0 (dev router port typ flow : Nat) : W36 :=
  word (dev % 2048 * 2 ^ 25 + router % 256 * 2 ^ 17 + port % 8 * 2 ^ 14 + typ % 16 * 2 ^ 10 + flow % 1024)

/-- Header word 1. -/
def head1 (dev router port seq : Nat) (last poison : Bool) : W36 :=
  word (dev % 2048 * 2 ^ 25 + router % 256 * 2 ^ 17 + port % 8 * 2 ^ 14 + seq % 4096 * 4 + ofBool last * 2 + ofBool poison)

/-- The packet types of R194. -/
def Typ.readReq : Nat := 0
def Typ.readResp : Nat := 1
def Typ.writeReq : Nat := 2
def Typ.writeAck : Nat := 3
def Typ.regRead : Nat := 4
def Typ.regWrite : Nat := 5
def Typ.token : Nat := 6
def Typ.dispatch : Nat := 7
def Typ.emit : Nat := 8
def Typ.cmd : Nat := 9
def Typ.event : Nat := 10
def Typ.stream : Nat := 11
def Typ.wakeNack : Nat := 12
def Typ.unreachable : Nat := 13
def Typ.notReady : Nat := 14

/-! ### Port interfaces -/

/-- A port interface changed. -/
def Chip.onPort (s : Chip) (router port : Nat) (f : NocPort → NocPort) : Chip :=
  { s with ports := s.ports.upd (portKey router port) f }

/-- A port interface. -/
def Chip.port (s : Chip) (router port : Nat) : NocPort := s.ports.get (portKey router port)

/-- The window W of a port, in flits (R202). -/
def Chip.window (s : Chip) (router port : Nat) : Nat :=
  s.fld (dieOf router) (F.NOC_PORT_WIN (8 * localY router + localX router) port) + 1

/-- Whether a packet's own flits and its response flits fit a port's window at all (R202). -/
def Chip.fits (s : Chip) (router port : Nat) (p : Packet) : Bool :=
  p.body.length + p.resp ≤ s.window router port

/-- A packet submitted at a port. One that can never fit the window is refused to its endpoint without being sent (R202). -/
def Chip.submit (s : Chip) (router port : Nat) (p : Packet) : Chip :=
  s.onPort router port (fun q =>
    if s.fits router port p then { q with waiting := q.waiting ++ [p] } else { q with refusedOwn := q.refusedOwn ++ [p] })

/-- Whether the FIFO of eight flits from a port's endpoint has room: it holds the flits of the first waiting packets; what does not
fit waits in the endpoint (R192). -/
def Chip.hasRoom (s : Chip) (router port : Nat) : Bool :=
  let q := s.port router port
  q.out.length + q.waiting.foldl (fun n p => n + p.body.length) 0 < 8

/-- A flit that belongs to no packet of this port's window (a confirmation, a response or an answer), ready to leave. -/
def Chip.sendFlit (s : Chip) (router port : Nat) (f : Flit) : Chip :=
  s.onPort router port (fun q => { q with out := q.out ++ [f.seal] })

/-- Data words four to a payload, in order, the last filled with zeros (R194). -/
def quads : List W36 → List Payload
  | [] => []
  | [a] => [{ w2 := a }]
  | [a, b] => [{ w2 := a, w3 := b }]
  | [a, b, c] => [{ w2 := a, w3 := b, w4 := c }]
  | a :: b :: c :: d :: r => { w2 := a, w3 := b, w4 := c, w5 := d } :: quads r

/-! ### Device time and the event log (R363, R588, R589) -/

/-- Device time of a die (R363). -/
def Chip.time (s : Chip) (d : Nat) : Nat := s.devTime.get d

/-- The key of a log entry. -/
def logKey (d seq : Nat) : Nat := d * 2 ^ 20 + seq

/-- An entry of a die is overwritten: it is no longer unread by any port (R582, R671). -/
def Chip.passOver (s : Chip) (d seq : Nat) : Chip :=
  s.upTo 5 (fun s p => { s with cmds := s.cmds.upd p (fun x =>
    if (x.ackSeq.get d + 1) % 2 ^ 20 = seq then { x with ackSeq := x.ackSeq.set d seq } else x) })

/-- An event of a die logged: the next SEQ, the oldest entry overwritten once 4,096 are held, and an EVENT packet where
DRN_EVENT_CFG asks for one (R588, R589). -/
def Chip.logEv (s : Chip) (d : Nat) (ev : Ev) (detail : Nat) : Chip :=
  let seq := (s.fld d F.DRN_LOG_STATUS_NEWEST + 1) % 2 ^ 20
  let level := s.fld d F.DRN_LOG_STATUS_LEVEL
  let e : LogEntry := {
    w0 := word (seq + ev.code * 2 ^ 20 + ev.sev * 2 ^ 32 + d * 2 ^ 34)
    w1 := word (s.time d >>> 10 % 2 ^ 36)
    w2 := word detail }
  let gone := (seq + 2 ^ 20 - 4096) % 2 ^ 20
  let old := logKey d gone
  let s := { s with log := SMap.put (if level = 4096 then SMap.erase s.log old else s.log) (logKey d seq) e }
  let s := s.setFld d F.DRN_LOG_STATUS_NEWEST seq
  let s := if level = 4096 then (s.setFlag d F.DRN_LOG_STATUS_WRAPPED true).passOver d gone
    else s.setFld d F.DRN_LOG_STATUS_LEVEL (level + 1)
  if s.flag d F.DRN_EVENT_CFG_EN && s.fld d F.DRN_EVENT_CFG_SEV ≤ ev.sev then
    s.submit (gatewayOf d) 3 {
      dev := s.ownDevice, router := s.fld d F.DRN_EVENT_CFG_DEST_ROUTER, port := s.fld d F.DRN_EVENT_CFG_DEST_PORT,
      typ := Typ.event, body := [{ w2 := e.w0, w3 := e.w1, w4 := e.w2 }] }
  else s

/-! ### Device state -/

/-- The device state. -/
def Chip.dev (s : Chip) : DevState := s.cfg.dev

/-- The code of a device state in CFG_STATUS.DEV_STATE; OFF has none and shows 0, since nothing answers there (R154). -/
def DevState.code : DevState → Nat
  | .off => 0
  | .por => 0
  | .selftest => 1
  | .safeTalk => 2
  | .blank => 3
  | .loading => 4
  | .backoff => 5
  | .releasing => 6
  | .user => 7
  | .secureHalt => 8

/-- The device enters a state; all four dies show it (R154). -/
def Chip.setDev (s : Chip) (v : DevState) : Chip :=
  let s := { s with cfg := { s.cfg with dev := v } }
  s.upTo 4 (fun s d => s.setFld d F.CFG_STATUS_DEV_STATE v.code)

/-- Whether a die is in reset. -/
def Chip.dieInReset (s : Chip) (d : Nat) : Bool := s.inReset.getLsbD d

/-- Whether the part has power and a running Drone: not OFF and not POR. -/
def Chip.alive (s : Chip) : Bool := s.dev ≠ .off && s.dev ≠ .por

/-- Whether the engines of a die run: the part has left POR, is not in SECURE_HALT, and the die is not in reset. -/
def Chip.runs (s : Chip) (d : Nat) : Bool := s.alive && s.dev ≠ .secureHalt && !s.dieInReset d

/-- Whether a die's link and sideband circuits run: the part has left POR and the die is not in reset; SECURE_HALT does not stop
them (R229, R243). -/
def Chip.linked (s : Chip) (d : Nat) : Bool := s.alive && !s.dieInReset d

/-- f on the chip while the links of die d run; otherwise no effect. -/
def State.onLinks (s : State) (d : Nat) (f : Chip → Chip) : Out := s.onChip (fun c => c.when (c.linked d) f)

/-- f on the chip while the engines of die d run; otherwise no effect. -/
def State.onDie (s : State) (d : Nat) (f : Chip → Chip) : Out := s.onChip (fun c => c.when (c.runs d) f)

/-- Release stages completed on the device (R187). -/
def Chip.stage (s : Chip) : Nat := s.fld 0 F.CFG_STATUS_STAGE

/-- Release stages that a die counts as past: all of them once it has returned from a reset during the release (R187, R644). -/
def Chip.dieStage (s : Chip) (d : Nat) : Nat := if s.cfg.ahead.getLsbD d then 3 else s.fld d F.CFG_STATUS_STAGE

/-! ### Regions (R128) -/

/-- A region's state code. -/
def Chip.regionState (s : Chip) (d r : Nat) : Nat := s.fld d (F.CFG_REGION_STATUS_STATE r)

def Rgn.empty : Nat := 0
def Rgn.loading : Nat := 1
def Rgn.staging : Nat := 2
def Rgn.active : Nat := 3
def Rgn.isolated : Nat := 4
def Rgn.sleeping : Nat := 5
def Rgn.faulted : Nat := 6

/-- The key of a region's record. -/
def regionKey (d r : Nat) : Nat := d * 16 + r

/-- A region's record. -/
def Chip.region (s : Chip) (d r : Nat) : RegionRec := s.regions.get (regionKey d r)

/-- A region's record changed. -/
def Chip.onRegion (s : Chip) (d r : Nat) (f : RegionRec → RegionRec) : Chip :=
  { s with regions := s.regions.upd (regionKey d r) f }

/-- Whether a region's collar is open (R128). -/
def Chip.collarOpen (s : Chip) (d r : Nat) : Bool := s.regionState d r == Rgn.active

/-! ### Power domains (R536, R542 to R546) -/

def Dom.quad (q : Nat) : Nat := 16 + q
def Dom.xcv (q : Nat) : Nat := 32 + q
def Dom.ddr (c : Nat) : Nat := 40 + c
def Dom.bank (b : Nat) : Nat := 42 + b
def Dom.spine : Nat := 44
def Dom.alwaysOn : Nat := 45
def Dom.debug : Nat := 46

/-- A domain's state: 0 RUN, 1 IDLE, 2 HOLD, 3 OFF. -/
def Chip.domState (s : Chip) (d dom : Nat) : Nat := s.fld d (F.PWR_DOM_STATUS_STATE dom)

/-- A domain's phase: 0 steady, 1 entering, 2 waking, 3 level change. -/
def Chip.domPhase (s : Chip) (d dom : Nat) : Nat := s.fld d (F.PWR_DOM_STATUS_PHASE dom)

/-- A domain's record. -/
def Chip.dom (s : Chip) (d dom : Nat) : DomRec := s.doms.get (d * 64 + dom)

/-- A domain's record changed. -/
def Chip.onDom (s : Chip) (d dom : Nat) (f : DomRec → DomRec) : Chip := { s with doms := s.doms.upd (d * 64 + dom) f }

/-- A die's clocking record. -/
def Chip.clock (s : Chip) (d : Nat) : DieClock := s.clocks.get d

/-- A die's clocking record changed. -/
def Chip.onClock (s : Chip) (d : Nat) (f : DieClock → DieClock) : Chip := { s with clocks := s.clocks.upd d f }

/-- Whether a domain counts as asleep: from the commitment of an entry until RUN (R543). -/
def Chip.asleep (s : Chip) (d dom : Nat) : Bool :=
  s.domState d dom != 0 || (s.domPhase d dom == 1 && (s.dom d dom).committed)

/-- Whether a domain's local ports have stopped injecting: from the start of an entry's step 2 until RUN (R540). -/
def Chip.quiescing (s : Chip) (d dom : Nat) : Bool := s.domPhase d dom == 1 || s.asleep d dom

/-- Nanoseconds from the start of a wake to RUN (R545). -/
def wakeTime (dom st : Nat) : Nat :=
  if st = 3 then 50000
  else if dom < 16 then (if st = 1 then 6500 else 26500)
  else if dom < 32 then (if st = 1 then 100 else 20100)
  else if dom < 40 then 1000
  else if dom < 42 then (if st = 1 then 10000 else 30000)
  else if dom < 44 then (if st = 1 then 1000 else 20000)
  else 1000

/-- When the last of the waiting raises of a die would be complete, if each starts as a place becomes free (R546). -/
def raiseEnds (s : Chip) (d : Nat) : List Nat :=
  let c := s.clock d
  c.waiting.foldl (fun ends w =>
    match sortBy (fun a b => decide (a ≤ b)) ends with
    | a :: b :: r => (a + wakeTime w (s.domState d w)) :: b :: r
    | ends => ends ++ [s.now + wakeTime w (s.domState d w)]) (c.raising.map (fun w => (s.dom d w).wakeEnd))

/-- The raise of a domain starts: its islands restart on the internal oscillator (R545, R547). -/
def Chip.raise (s : Chip) (d dom : Nat) : Chip :=
  let s := s.onDom d dom (fun r => { r with wakeEnd := s.now + wakeTime dom (s.domState d dom), queued := false })
  let s := s.setFlag d (F.PWR_DOM_STATUS_ON_OSC dom) true
  s.setFld d (F.PWR_DOM_STATUS_PHASE dom) 2

/-- The wake of a sleeping domain starts, or waits for one of the two raises of the die (R544, R546). -/
def Chip.beginWake (s : Chip) (d dom cause : Nat) : Chip :=
  let st := s.domState d dom
  let s := s.setFld d (F.PWR_DOM_STATUS_LAST_WAKE dom) cause
  let s := s.setFlag d (F.PWR_DOM_STATUS_WAKE_PENDING dom) false
  if st = 1 then s.raise d dom
  else if (s.clock d).raising.length < 2 then
    (s.onClock d (fun c => { c with raising := c.raising ++ [dom] })).raise d dom
  else
    let free := (sortBy (fun a b => decide (a ≤ b)) (raiseEnds s d)).headD s.now
    let s := s.onDom d dom (fun r => { r with wakeEnd := free + wakeTime dom st, queued := true })
    let s := s.onClock d (fun c => { c with waiting := c.waiting ++ [dom] })
    s.setFlag d (F.PWR_DOM_STATUS_WAKE_PENDING dom) true

/-- An entry in its step 2 is aborted for a refuser (R542). -/
def Chip.abortEntry (s : Chip) (d dom refuser : Nat) : Chip :=
  let s := s.setFld d (F.PWR_DOM_STATUS_PHASE dom) 0
  let s := s.setFld d (F.PWR_DOM_STATUS_LAST_REFUSER dom) refuser
  s.satFld d (F.PWR_DOM_COUNT_ABORTS dom) 1

/-- A wake source names a domain (R542, R543, R544). -/
def Chip.wake (s : Chip) (d dom cause : Nat) : Chip :=
  if s.domPhase d dom = 1 then
    if (s.dom d dom).committed then
      s.when (!s.flag d (F.PWR_DOM_STATUS_WAKE_PENDING dom)) (fun s =>
        (s.setFlag d (F.PWR_DOM_STATUS_WAKE_PENDING dom) true).onDom d dom (fun r => { r with wakeCause := cause }))
    else s.abortEntry d dom 14
  else if s.domState d dom = 0 || s.domPhase d dom = 2 || (s.dom d dom).queued then s
  else s.beginWake d dom cause

/-- When a domain whose wake has been asked for reaches RUN: a wake that meets an entry starts as the entry completes (R543,
R545, R546). -/
def Chip.wakeAt (s : Chip) (d dom : Nat) : Nat :=
  let r := s.dom d dom
  if s.domPhase d dom = 1 then
    let ready :=
      if r.target = 1 || (s.clock d).raising.length < 2 then r.wakeEnd
      else max r.wakeEnd ((sortBy (fun a b => decide (a ≤ b)) (raiseEnds s d)).headD s.now)
    ready + wakeTime dom r.target
  else r.wakeEnd

/-- The hint of a WAKE_NACK: nc until the domain runs, rounded up, at least 64 (R545). -/
def Chip.wakeHint (s : Chip) (d dom : Nat) : Nat :=
  min (max 64 (((s.wakeAt d dom - s.now) * 12 + 9) / 10)) (2 ^ 20 - 1)

/-- The domain of a local port: the region of a FAB port, the quad of an OBOE port, the channel of a DDR5 home's SYS port,
and the always-on domain for a gateway. -/
def portDomain (router port : Nat) : Nat :=
  if port < 2 then regionOf router
  else if port = 2 then Dom.quad (regionOf router)
  else match ddrChanOf router with
    | some c => Dom.ddr c
    | none => Dom.alwaysOn

/-! ### Position and clock rates (R360 to R362, R555) -/

/-- An encoder channel of a die. -/
def Chip.chan (s : Chip) (d c : Nat) : ChnCh := s.chn.get (2 * d + c)

/-- The fraction F of a channel at the die's device time (R361). -/
def Chip.chnFrac (s : Chip) (d c : Nat) : Nat :=
  let x := s.chan d c
  match x.period, x.stamp with
  | some p, some t => if p = 0 then 255 else min 255 (256 * (s.time d - t) / p)
  | _, _ => x.frac

/-- A channel's position q (R360). -/
def Chip.chnPos (s : Chip) (d c : Nat) : Nat := (s.chan d c).int % 2 ^ 48 * 256 + s.chnFrac d c

/-- Whether a position is at or beyond a target (R362). -/
def atOrBeyond (q u : Nat) : Bool := (q + 2 ^ 56 - u % 2 ^ 56) % 2 ^ 56 < 2 ^ 55

/-- The frequency in Hz that the users of a synthesiser have: its output, or the internal oscillator where it has failed over
(R555, R558). -/
def Chip.synthHz (s : Chip) (d y : Nat) : Nat :=
  if s.flag d (F.CKM_SYN_STATUS_FAILED_OVER y) then 200000000 else
  let ref := if s.flag d (F.CKM_SYN_CFG_REF y) then s.fld d F.CKM_XIN_FREQ * 1000 else 200000000
  ref * s.fld d (F.CKM_SYN_CFG_MULT y) / max 1 (s.fld d (F.CKM_SYN_CFG_PDIV y)) / max 1 (s.fld d (F.CKM_SYN_CFG_ODIV y))

/-! ### Counting events (R634 to R637) -/

/-- k occurrences of event ev added to a counter block whose CFG, SEL and SEL.EN fields are given (R634, R638, R640). -/
def Pmc.count (p : Pmc) (select : Bool) (sel : Nat → Option Nat) (ev k : Nat) : Pmc :=
  if select then
    (List.range 8).foldl (fun p i =>
      if sel i = some ev then
        let v := p.cnt.get i + k
        { p with cnt := p.cnt.set i (v % 2 ^ 48), wrapped := if v ≥ 2 ^ 48 then p.wrapped ++ [i] else p.wrapped }
      else p) p
  else { p with fast := p.fast.set ev (p.fast.get ev + k) }

/-- k occurrences of core event ev of a core (R635, R636). -/
def Chip.countCore (s : Chip) (d n ev k : Nat) : Chip :=
  let st := s.fld d (F.OBE_STATUS_STATE n)
  if s.flag d (F.OBE_PMC_CFG_EN n) && (st = 1 || st = 2 || st = 3) then
    { s with pmc := s.pmc.upd (64 * d + n) (fun p => p.count (s.flag d (F.OBE_PMC_CFG_MODE n))
        (fun i => if s.flag d (F.OBE_PMC_SEL_EN n i) then some (s.fld d (F.OBE_PMC_SEL_EVENT n i)) else none) ev k) }
  else s

/-- k occurrences of non-core event ev of a die (R635, R637). -/
def Chip.countDie (s : Chip) (d ev k : Nat) : Chip :=
  if s.flag d F.PMC_CFG_EN then
    { s with pmc := s.pmc.upd (256 + d) (fun p => p.count (s.flag d F.PMC_CFG_MODE)
        (fun i => if s.flag d (F.PMC_SEL_EN i) then some (s.fld d (F.PMC_SEL_EVENT i)) else none) ev k) }
  else s

/-- k occurrences of a DRAM event of a channel, as DDR_SEL takes it (R637). -/
def Chip.countDdr (s : Chip) (d c ev k : Nat) : Chip :=
  let sel := s.fld d F.PMC_CFG_DDR_SEL
  if sel = 0 || sel = c + 1 then s.countDie d ev k else s

/-- k occurrences of a Crelink event of an inner edge, as EDGE_SEL takes it (R637). -/
def Chip.countEdge (s : Chip) (d e ev k : Nat) : Chip :=
  let sel := s.fld d F.PMC_CFG_EDGE_SEL
  if sel = 0 || sel = e + 1 then s.countDie d ev k else s

/-- A remap table as a word of its macro fails a check: an address that fails twice running is remapped to a spare while the table
has room; whether it has none (R79, R497). -/
def MemRec.fails (r : MemRec) (a : Nat) : MemRec × Bool :=
  if r.lastFail = some a then
    if r.remap.length < 8 then ({ remap := r.remap ++ [{ addr := a, field := true }], lastFail := none }, false) else (r, true)
  else ({ r with lastFail := some a }, false)

end Sys2Proof.Machine
end

