-- ==== Sys2Proof/Machine/Noc.lean ====
section
/-! DEFINITION. The network on chip: routing, arrival and deflection, injection and windows, streams and reorder buffers,
confirmation, retry and answers (chapter 6). -/

namespace Sys2Proof.Machine

/-! ### Bundles and edges (R16, R17, R226, R239) -/

/-- The inner edge between a die and its neighbour across e (0 east or west, 1 north or south): 0 D0-D1, 1 D0-D2, 2 D1-D3,
3 D2-D3. -/
def edgeOf (d e : Nat) : Nat := if e = 0 then (if d < 2 then 0 else 3) else (if d % 2 = 0 then 1 else 2)

/-- The die across inner edge e. -/
def peerDie (d e : Nat) : Nat := if e = 0 then (if d % 2 = 0 then d + 1 else d - 1) else (if d < 2 then d + 2 else d - 2)

/-- The neighbour router in a direction (0 N, 1 E, 2 S, 3 W), if it lies in the package (R190). -/
def neighbour (router dir : Nat) : Option Nat :=
  let x := router % 16
  let y := router / 16
  if dir = 0 then (if y = 0 then none else some (router - 16))
  else if dir = 1 then (if x = 15 then none else some (router + 1))
  else if dir = 2 then (if y = 15 then none else some (router + 16))
  else (if x = 0 then none else some (router - 1))

/-- The bundle (e, k) that a direction crosses at a router, if it crosses an inner die edge (R190, R226). -/
def bundleAt (router dir : Nat) : Option (Nat × Nat) :=
  match neighbour router dir with
  | none => none
  | some n =>
    if dieOf n = dieOf router then none
    else if dir = 1 || dir = 3 then some (0, localY router) else some (1, localX router)

/-- The key of a bundle side. -/
def crlKey (d e k : Nat) : Nat := (d * 2 + e) * 8 + k

/-- A bundle side. -/
def Chip.crlSide (s : Chip) (d e k : Nat) : CrlSide := s.crl.get (crlKey d e k)

/-- A bundle side changed. -/
def Chip.onCrl (s : Chip) (d e k : Nat) (f : CrlSide → CrlSide) : Chip := { s with crl := s.crl.upd (crlKey d e k) f }

/-- Whether this side of a bundle is ACTIVE; in every other state it counts as fenced (R238). -/
def Chip.bundleLive (s : Chip) (d e k : Nat) : Bool := s.fld d (F.CRL_BUNDLE_STATUS_STATE e k) == 4

/-- Whether a bundle is open to the router of this side: neither side counts as out of ACTIVE (R222, R238). -/
def Chip.bundleOpen (s : Chip) (d e k : Nat) : Bool := s.bundleLive d e k && (s.crlSide d e k).peerUp

/-- Whether an edge is fenced as a die knows it: none of its eight bundles ACTIVE (R239). -/
def Chip.edgeFenced (s : Chip) (d edge : Nat) : Bool := bits (s.live.get d) (8 * edge) 8 == 0

/-- The nc in which a router stands. -/
def Chip.useOf (s : Chip) (router : Nat) : NcUse := s.ncUse.get router

/-- A router's nc changed. -/
def Chip.onUse (s : Chip) (router : Nat) (f : NcUse → NcUse) : Chip := { s with ncUse := s.ncUse.upd router f }

/-- Whether a neighbour port of a router delivers and takes a flit in the router's present nc: it exists, its bundle is open, and
a half-width bundle is in its phase (R190, R200, R222). -/
def Chip.portOpen (s : Chip) (router dir : Nat) : Bool :=
  match neighbour router dir with
  | none => false
  | some _ =>
    match bundleAt router dir with
    | none => true
    | some (e, k) =>
      let d := dieOf router
      s.bundleOpen d e k &&
        (s.fld d (F.CRL_BUNDLE_STATUS_WIDTH e k) != 1 || (s.useOf router).nc % 4 == (s.crlSide d e k).phase)

/-- Whether a neighbour port can still take a flit in the router's present nc (R190, R198). -/
def Chip.portFree (s : Chip) (router dir : Nat) : Bool := s.portOpen router dir && !(s.useOf router).ports.contains dir

/-! ### Routing (R197, R222, R223, R455) -/

/-- The edges that the X-then-Y route between two routers crosses, as numbers 0 to 3. -/
def edgesXY (a b : Nat) : List Nat :=
  let hx := a % 16 / 8 != b % 16 / 8
  let vy := a / 16 / 8 != b / 16 / 8
  (if hx then [if a / 16 < 8 then 0 else 3] else []) ++ (if vy then [if b % 16 < 8 then 1 else 2] else [])

/-- The edges that the Y-then-X route crosses. -/
def edgesYX (a b : Nat) : List Nat :=
  let hx := a % 16 / 8 != b % 16 / 8
  let vy := a / 16 / 8 != b / 16 / 8
  (if vy then [if a % 16 < 8 then 1 else 2] else []) ++ (if hx then [if b / 16 < 8 then 0 else 3] else [])

/-- The direction first in X, then in Y; none at the target itself (R197). -/
def dirXY (a b : Nat) : Option Nat :=
  if a % 16 < b % 16 then some 1 else if b % 16 < a % 16 then some 3
  else if a / 16 < b / 16 then some 2 else if b / 16 < a / 16 then some 0 else none

/-- The direction first in Y, then in X (R223). -/
def dirYX (a b : Nat) : Option Nat :=
  if a / 16 < b / 16 then some 2 else if b / 16 < a / 16 then some 0
  else if a % 16 < b % 16 then some 1 else if b % 16 < a % 16 then some 3 else none

/-- The direction along a fenced bundle's edge to the nearest router whose bundle to that edge is live, north or west first
on a tie (R222). -/
def Chip.alongEdge (s : Chip) (router e k dir : Nat) : Nat :=
  let d := dieOf router
  let liveAt (j : Nat) : Bool := s.bundleOpen d e j
  let before := (List.range k).filter liveAt
  let after := ((List.range 8).filter (fun j => k < j)).filter liveAt
  let toward (neg : Bool) : Nat := if e = 0 then (if neg then 0 else 2) else (if neg then 3 else 1)
  match before.getLast?, after.head? with
  | some a, some b => toward (k - a ≤ b - k)
  | some _, none => toward true
  | none, some _ => toward false
  | none, none => dir

/-- Where a router sends a flit next. -/
inductive Route where
  | dir (n : Nat)        -- a neighbour port: the productive port
  | eject                -- the destination local port of this router
  | karn (link : Nat)    -- the Karn egress of this router
  | refuse (reason : Nat)
deriving DecidableEq, Repr

/-- The Karn router of a device link number (R446). -/
def karnRouter (link : Nat) : Nat := routerAt (link / 4) (2 * (link % 4) + 1) (if link / 4 < 2 then 0 else 7)

/-- Whether a Karn link is ACTIVE. -/
def Chip.karnActive (s : Chip) (link : Nat) : Bool := s.fld (link / 4) (F.KRN_LINK_STATUS_STATE (link % 4)) == 5

/-- The link the route table of a die gives for a device (R455). -/
def Chip.karnLinkFor (s : Chip) (d dev : Nat) : Option Nat :=
  if !s.flag d (F.KRN_ROUTE_EN dev) then none
  else
    let l := s.fld d (F.KRN_ROUTE_LINK dev)
    let a := s.fld d (F.KRN_ROUTE_ALT_LINK dev)
    if s.karnActive l then some l
    else if s.flag d (F.KRN_ROUTE_ALT_EN dev) && s.karnActive a then some a else none

/-- The productive port towards a router of the part (R197, R222, R223). -/
def Chip.routeTo (s : Chip) (router target : Nat) (arrived : Route) : Route :=
  if router = target then arrived
  else
    let d := dieOf router
    if s.dieInReset (dieOf target) then .refuse 1
    else
      let fencedXY := (edgesXY router target).any (fun g => s.edgeFenced d g)
      let fencedYX := (edgesYX router target).any (fun g => s.edgeFenced d g)
      if fencedXY && fencedYX then .refuse 1
      else
        match (if fencedXY then dirYX router target else dirXY router target) with
        | none => arrived
        | some dir =>
          match bundleAt router dir with
          | some (e, k) => if s.bundleOpen d e k then .dir dir else .dir (s.alongEdge router e k dir)
          | none => .dir dir

/-- The router that a flit makes for and what becomes of it there: its destination, or the Karn egress router of its device; none
where the route table has no entry (R197, R449, R455). -/
def Chip.targetOf (s : Chip) (router : Nat) (f : Flit) : Option (Nat × Route) :=
  if f.dstDev = s.ownDevice then some (f.dstRouter, .eject)
  else (s.karnLinkFor (dieOf router) f.dstDev).map (fun l => (karnRouter l, .karn l))

/-- The route of a flit at a router (R197, R449, R455). -/
def Chip.route (s : Chip) (router : Nat) (f : Flit) : Route :=
  match s.targetOf router f with
  | some (target, arrived) => s.routeTo router target arrived
  | none => .refuse 5

/-! ### Answers made by the network (R195, R219 to R221) -/

/-- Whether a packet type belongs to no stream: the sending interface consumes it (R206). -/
def isAnswer (t : Nat) : Bool := t = Typ.writeAck || t = Typ.wakeNack || t = Typ.unreachable || t = Typ.notReady

/-- A NOC_STAT counter of a die advanced (wraps at 2^36). -/
def Chip.nocStat (s : Chip) (d n : Nat) : Chip := s.addFld d (F.NOC_STAT_COUNT n) 1

/-- What becomes of a flit at a router: it is gone from the network, it must take another port or wait, or it is refused with an
answer. -/
inductive Fate where
  | gone
  | stays
  | answered (a : Flit)
deriving DecidableEq, Repr

/-- The answer to a refused flit of any type, counted (R195, R221, R682). -/
def Chip.refuseFlit (s : Chip) (router typ : Nat) (f : Flit) (w4 : Nat) : Chip × Fate :=
  let d := dieOf router
  let s := if typ = Typ.unreachable then (s.nocStat d 7).countDie d 10 1
    else if typ = Typ.wakeNack then (s.nocStat d 8).countDie d 9 1 else s.countDie d 11 1
  let a : Flit := { w0 := head0 f.srcDev f.srcRouter f.srcPort typ f.flow, w1 := head1 s.ownDevice router 3 0 true false,
                    w2 := f.w0, w3 := f.w1, w4 := word w4 }
  (s, .answered a.seal)

/-- UNREACHABLE with its reason and, for reasons 2, 3 and 5, its event (R221). -/
def Chip.refuseUnreachable (s : Chip) (router reason : Nat) (f : Flit) : Chip × Fate :=
  let d := dieOf router
  let s := if reason = 2 || reason = 3 then
      s.logEv d Ev.nocBadPort (f.srcRouter + f.srcPort * 2 ^ 8 + f.dstRouter * 2 ^ 11 + f.dstPort * 2 ^ 19 + reason * 2 ^ 22)
    else if reason = 5 then s.logEv d Ev.krnNoRoute f.dstDev else s
  s.refuseFlit router Typ.unreachable f reason

/-- A flit whose header fails its check, or of the reserved type, is dropped and recorded; none where the header is good (R194,
R213). -/
def Chip.headerDrop (s : Chip) (router inPort : Nat) (f : Flit) : Option Chip :=
  let d := dieOf router
  if f.syndrome 0 = 0 && f.syndrome 1 = 0 && f.typ != 15 then none
  else
    let wd := if f.syndrome 0 != 0 || f.syndrome 1 = 0 then 0 else 1
    let s := (s.nocStat d 1).countDie d 5 1
    let s := s.setReg d Reg.NOC_HDR_LOG
      (word (router + inPort % 8 * 2 ^ 8 + wd * 2 ^ 11 + (f.syndrome wd).toNat * 2 ^ 12 + 2 ^ 16))
    some (s.logEv d Ev.nocHdrDrop (bits (s.reg d Reg.NOC_HDR_LOG) 0 16))

/-! ### Ejection: stream tables and reorder buffers (R206 to R217) -/

/-- The key of the stream a flit belongs to at its ejection port. -/
def streamKey (f : Flit) : Nat :=
  (((f.srcDev * 256 + f.srcRouter) * 8 + f.srcPort) * 1024 + f.flow) * 2 + ofBool (f.typ == Typ.readResp)

/-- The sequence after s of a request-class stream (R209). -/
def nextSeq (s : Nat) : Nat := if s = 4095 then 1 else s + 1

/-- The distance of sequence s ahead of e along 0, 1, ... 4,095, 1, ... (R210). -/
def seqAhead (e s : Nat) : Nat := if e = 0 then s else if s = 0 then 4096 else (s + 4095 - e) % 4095

/-- Whether a request-class sequence lies in a delivered packet. -/
def Delivered.holds (p : Delivered) (s : Nat) : Bool := seqAhead p.first s ≤ seqAhead p.first p.last

/-- Quiet times of a die in nanoseconds (NOC_SEQ). -/
def Chip.openQuiet (s : Chip) (d : Nat) : Nat := s.fld d F.NOC_SEQ_OPEN_QUIET * 1000
def Chip.sendQuiet (s : Chip) (d : Nat) : Nat := s.fld d F.NOC_SEQ_SEND_QUIET * 1000
def Chip.evictQuiet (s : Chip) (d : Nat) : Nat := s.fld d F.NOC_SEQ_EVICT_QUIET * 1000

/-- A WRITE_ACK for the packet whose first flit has a sequence, from the port that received it (R194, R215). -/
def Chip.ackTo (s : Chip) (router port : Nat) (f : Flit) (first status : Nat) : Chip :=
  s.sendFlit router port {
    w0 := head0 f.srcDev f.srcRouter f.srcPort Typ.writeAck f.flow
    w1 := head1 s.ownDevice router port 0 true false
    w2 := word first, w3 := word status }

/-- The ejection port's check of the payload words: a failing word sets POISON (R214). -/
def Chip.checkPayload (s : Chip) (router : Nat) (f : Flit) : Chip × Flit :=
  let bad := (List.range 4).any (fun i => f.syndrome (i + 2) != 0)
  if bad && !f.poison then
    let d := dieOf router
    ((s.nocStat d 2).countDie d 6 1, Flit.seal { f with w1 := f.w1 ||| 1 })
  else (s, f)

/-- A duplicate: dropped and counted; confirmed again where its packet is among the last 32 delivered (R217). A read that is to be
done again has its payload checked as on its first arrival (R214). -/
def Chip.duplicate (s : Chip) (router port : Nat) (e : RxEntry) (f : Flit) : Chip :=
  let d := dieOf router
  let s := (s.nocStat d 5).countDie d 8 1
  match e.recent.find? (fun p => p.holds f.seq) with
  | some p =>
    if !p.confirmed || !f.last then s
    else if f.typ = Typ.readReq || f.typ = Typ.regRead then
      let (s, f) := s.checkPayload router f
      s.onPort router port (fun q => { q with again := q.again ++ [f] })
    else s.ackTo router port f p.first p.status
  | none => s

/-- The responses that a port still expects on a response stream: next sequence and how many, oldest request first (R208). -/
def NocPort.expecting (q : NocPort) (f : Flit) : List (Nat × Nat) :=
  (q.sent.filter (fun p => match p.flits with
    | g :: _ => (g.typ = Typ.readReq || g.typ = Typ.regRead) && g.dstDev = f.srcDev && g.dstRouter = f.srcRouter &&
        g.dstPort = f.srcPort && g.flow = f.flow
    | [] => false)).map (fun p => ((p.rseq + p.got) % 4096, p.resp - p.got))

/-- An arriving response: held if some outstanding request awaits its sequence, otherwise a duplicate; false where the
reorder buffer has no room for it (R207, R208, R211). -/
def Chip.ejectResponse (s : Chip) (router port : Nat) (f : Flit) : Chip × Bool :=
  let q := s.port router port
  let key := streamKey f
  let wanted := q.expecting f
  let awaited := wanted.any (fun (a, n) => (f.seq + 4096 - a) % 4096 < n)
  let heldAlready := q.held.any (fun h => h.key = key && h.seq = f.seq)
  if !awaited || heldAlready then
    let d := dieOf router
    ((s.nocStat d 5).countDie d 8 1, true)
  else
    let isNext := match wanted with
      | (a, _) :: _ => a == f.seq
      | [] => false
    if !isNext && 64 ≤ q.held.length then (s.countDie (dieOf router) 13 1, false)
    else
      let (s, f) := s.checkPayload router f
      (s.onPort router port (fun q => { q with held := q.held ++ [{ key := key, seq := f.seq, flit := f, since := s.now }] }), true)

/-- An entry put in place of the one with its key. -/
def putEntry (t : List RxEntry) (e : RxEntry) : List RxEntry := t.map (fun x => if x.key = e.key then e else x)

/-- A stream's entry that fails its check is evicted with its held flits (R496). -/
def Chip.checkEntry (s : Chip) (router port key : Nat) : Chip :=
  if (s.port router port).table.any (fun e => e.key = key && e.bad) then
    (s.onPort router port (fun q => { q with
      table := q.table.filter (fun e => e.key != key), held := q.held.filter (fun h => h.key != key) })).logEv (dieOf router)
      Ev.nocTableCheck (router + port * 2 ^ 8)
  else s

/-- An arriving request-class flit, by the table of R210; false where it is not ejected but deflected. -/
def Chip.ejectRequest (s : Chip) (router port : Nat) (f : Flit) : Chip × Bool :=
  let d := dieOf router
  let s := s.checkEntry router port (streamKey f)
  let key := streamKey f
  let q := s.port router port
  let holds (k : Nat) : Bool := q.held.any (fun h => h.key = k)
  let found := q.table.find? (fun e => e.key = key)
  let evictable := q.table.find? (fun e => !holds e.key && s.evictQuiet d ≤ s.now - e.lastArr)
  let fresh : RxEntry := { key := key, expect := 0, lastArr := s.now, advanced := s.now }
  -- the table with an entry for the stream, the entry, and whether this flit created it
  let entry : Option (Chip × RxEntry × Bool) := match found with
    | some e => some (s, e, false)
    | none =>
      if q.table.length < 256 then
        some (s.onPort router port (fun q => { q with table := q.table ++ [fresh] }), fresh, true)
      else match evictable with
        | some old =>
          let s := s.onPort router port (fun q => { q with table := q.table.filter (fun e => e.key != old.key) ++ [fresh] })
          some (s.countDie d 14 1, fresh, true)
        | none => none
  match entry with
  | none => (s.nocStat d 9, false)
  | some (s, e, created) =>
    let stamp (s : Chip) (e : RxEntry) : Chip :=
      s.onPort router port (fun q => { q with table := putEntry q.table { e with lastArr := s.now } })
    let hold (s : Chip) (e : RxEntry) : Chip × Bool :=
      let (s, f) := (stamp s e).checkPayload router f
      (s.onPort router port (fun q => { q with held := q.held ++ [{ key := key, seq := f.seq, flit := f, since := s.now }] }), true)
    let dup (s : Chip) : Chip × Bool := ((stamp s e).duplicate router port e f, true)
    if f.seq = 0 then
      if created then hold s e
      else if s.openQuiet d ≤ s.now - e.lastArr && !holds key then hold s { e with expect := 0, advanced := s.now, start := 0, recent := [] }
      else dup s
    else if seqAhead e.expect f.seq ≤ 63 then
      if q.held.any (fun h => h.key = key && h.seq = f.seq) then dup s
      else if f.seq != e.expect && 64 ≤ q.held.length then (s.countDie d 13 1, false)
      else hold s e
    else dup s

/-- Whether a port of a router accepts a packet type (R191). -/
def portAccepts (router port t : Nat) : Bool :=
  if port < 2 then t = Typ.readReq || t = Typ.readResp || t = Typ.writeReq || t = Typ.token || t = Typ.dispatch ||
    t = Typ.emit || t = Typ.event || t = Typ.stream
  else if port = 2 then t = Typ.readReq || t = Typ.writeReq || t = Typ.dispatch || t = Typ.stream || t = Typ.readResp
  else if router = gatewayOf (dieOf router) then t = Typ.regRead || t = Typ.regWrite || t = Typ.token || t = Typ.emit ||
    t = Typ.cmd || t = Typ.event || t = Typ.readResp
  else t = Typ.readReq || t = Typ.writeReq

/-- A flit at its destination router: refused, discarded, consumed by the interface, or taken into the reorder buffer. A type
that the port does not accept is refused as BAD_TYPE before the state of the region or domain is looked at, and starts no wake
(R191, R206, R210, R219 to R221, R136, R137, log 203). -/
def Chip.eject (s : Chip) (router : Nat) (f : Flit) : Chip × Fate :=
  let d := dieOf router
  let port := f.dstPort
  let t := f.typ
  if port ≥ 4 || (port = 3 && router != gatewayOf d && (ddrChanOf router).isNone) then s.refuseUnreachable router 2 f
  else
    let r := regionOf router
    let st := s.regionState d r
    let dom := portDomain router port
    if isAnswer t then
      if port < 2 && !s.collarOpen d r && t = Typ.writeAck then (s.nocStat d 6, .gone)
      else
        let (s, f) := s.checkPayload router f
        (s.onPort router port (fun q => { q with answers := q.answers ++ [f] }), .gone)
    else if !portAccepts router port t then s.refuseUnreachable router 3 f
    else if port < 2 && st != Rgn.active then
      if t = Typ.readResp then (s.nocStat d 6, .gone)
      else if st = Rgn.sleeping then
        let s := s.wake d dom 1
        s.refuseFlit router Typ.wakeNack f (s.wakeHint d dom)
      else s.refuseFlit router Typ.notReady f 0
    else if s.asleep d dom then
      let s := s.wake d dom 1
      s.refuseFlit router Typ.wakeNack f (s.wakeHint d dom)
    else
      let (s, ok) := if t = Typ.readResp then s.ejectResponse router port f else s.ejectRequest router port f
      if ok then
        let s := s.countDie d 2 1
        (if port = 2 then s.countCore d (coreOf router) 33 1 else s, .gone)
      else (s, .stays)

/-! ### Moving flits (R190, R196 to R200) -/

/-- A flit leaves a router by a neighbour port, which is then taken in this nc: to the next router, or onto the bundle of a die
edge. -/
def Chip.moveFlit (s : Chip) (router dir : Nat) (f : Flit) (age : Nat) : Chip :=
  let s := s.onUse router (fun u => { u with ports := dir :: u.ports })
  match neighbour router dir with
  | none => s
  | some n =>
    let fl : Flight := { flit := f, router := n, inPort := (dir + 2) % 4, age := age }
    match bundleAt router dir with
    | none => { s with flights := s.flights ++ [fl] }
    | some (e, k) =>
      let d := dieOf router
      ((s.onCrl d e k (fun c => { c with wire := c.wire ++ [fl] })).countDie d 4 1).countEdge d e 40 1

/-- The clockwise order of neighbour ports from one on: N, E, S, W. -/
def clockwise (dir : Nat) : List Nat := [dir % 4, (dir + 1) % 4, (dir + 2) % 4, (dir + 3) % 4]

/-- The ports a flit may be deflected to, in order (R198): for a flit passing through, its productive Y port where it is
X-productive and y differs, then clockwise from its productive port, bundles last; for an ejecting flit, from the port
opposite its arrival. -/
def deflections (router target : Nat) (prod : Option Nat) (inPort : Nat) : List Nat :=
  let isB (p : Nat) : Bool := (bundleAt router p).isSome
  match prod with
  | some p =>
    let y := if target / 16 < router / 16 then [0] else if router / 16 < target / 16 then [2] else []
    let first := if p = 1 || p = 3 then y else []
    first ++ (clockwise p).filter (fun q => !isB q) ++ (clockwise p).filter isB
  | none =>
    let o := (inPort + 2) % 4
    (clockwise o).filter (fun q => !isB q) ++ (clockwise o).filter isB

/-- One arriving flit assigned an output port in its router's nc (R198, R199); the answer where it is refused. Each arrival came by
an open port of its own, so a free port is left for it; were there none, it would stay where it is. -/
def Chip.assign (s : Chip) (fl : Flight) : Chip × Option Flit :=
  let router := fl.router
  let d := dieOf router
  let f := fl.flit
  let busy (p : Nat) : Bool := (s.useOf router).locals.contains p
  let deflect (s : Chip) (prod : Option Nat) : Chip × Option Flit :=
    let target := ((s.targetOf router f).map (·.1)).getD router
    match (deflections router target prod fl.inPort).find? (s.portFree router) with
    | some p => (((s.nocStat d 0).countDie d 3 1).moveFlit router p f fl.age, none)
    | none => ({ s with flights := s.flights ++ [fl] }, none)
  let refused (r : Chip × Fate) : Chip × Option Flit := match r with
    | (s, .answered a) => (s, some a)
    | (s, _) => (s, none)
  if fl.age ≥ 255 then (((s.nocStat d 3).countDie d 15 1).logEv d Ev.nocAged router, none)
  else match s.headerDrop router fl.inPort f with
    | some s => (s, none)
    | none => match s.route router f with
      | .refuse reason => refused (s.refuseUnreachable router reason f)
      | .karn l =>
        let k := s.karn.get l
        if busy 3 || 64 ≤ k.txBuf.length then deflect s none
        else ({ s with karn := s.karn.set l { k with txBuf := k.txBuf ++ [fl] } }.onUse router
          (fun u => { u with locals := 3 :: u.locals }), none)
      | .eject =>
        if busy f.dstPort then deflect s none
        else match s.eject router f with
          | (s, .gone) => (s.onUse router (fun u => { u with locals := f.dstPort :: u.locals }), none)
          | (s, .stays) => deflect s none
          | (s, .answered a) => (s, some a)
      | .dir p => if s.portFree router p then (s.moveFlit router p f fl.age, none) else deflect s (some p)

/-- An arriving flit assigned; the answer to a refused one leaves in its place, in the same nc, and a refusal of that answer would
come back to this router, where it has no effect (R195, R199, log 204). -/
def Chip.arrive (s : Chip) (fl : Flight) : Chip :=
  match s.assign fl with
  | (s, some a) => (s.assign { fl with flit := a, age := 0 }).1
  | (s, none) => s

/-- The order of R198: oldest first, then by arrival port N, E, S, W. -/
def arrivalBefore (a b : Flight) : Bool := b.age < a.age || (a.age = b.age && a.inPort ≤ b.inPort)

/-- A router's next nc, in which no port of it has taken a flit yet: the latest that time or another router has reached, or the one
after its own last (R190). -/
def Chip.nextNc (s : Chip) (router : Nat) : Chip :=
  let now := max s.nc (s.now * 6 / 5)
  let n := if now ≤ (s.useOf router).nc then (s.useOf router).nc + 1 else now
  { s with nc := max s.nc n, ncUse := s.ncUse.set router { nc := n } }

/-- The next nc of a router: every open neighbour port delivers at most one flit, and each is assigned (R190, R198 to R200). -/
def Chip.beginNc (s : Chip) (router : Nat) : Chip :=
  let s := s.nextNc router
  let here := (List.range 4).filterMap (fun p =>
    if s.portOpen router p then s.flights.find? (fun f => f.router = router && f.inPort = p) else none)
  let s := { s with flights := here.foldl List.erase s.flights }
  s.each (sortBy arrivalBefore here) (fun s fl => s.arrive fl)

/-- FLIT_ARRIVE: one nc of a router; every flit that arrives in it is assigned (R198, R199). -/
def execFlitArrive (router : Fin 256) (s : State) : Out := s.onChip (fun c => c.beginNc router)

/-- FLIT_AGE_TICK: a flit has spent sixteen more nc in the network (R196). -/
def execFlitAgeTick (flight : Nat) (s : State) : Out :=
  s.onChip (fun c => { c with flights := c.flights.modify flight (fun f => { f with age := min 255 (f.age + 1) }) })

/-! ### Injection (R201, R202, R208, R209) -/

/-- The flits counted against a port's window (R202). -/
def NocPort.inFlight (q : NocPort) : Nat := q.sent.foldl (fun n p => n + p.flits.length + (p.resp - p.got)) 0

/-- The key of a stream at its sender: destination and flow of the request class. -/
def txKey (dev router port flow : Nat) : Nat := ((dev * 256 + router) * 8 + port) * 1024 + flow

/-- The sequence numbers of n flits from s on (R209). -/
def seqRun : Nat → Nat → List Nat
  | 0, _ => []
  | n + 1, s => s :: seqRun n (nextSeq s)

/-- Whether a stream opens with the packet that it carries next: the port holds no state for it, or nothing on it is unconfirmed
and SEND_QUIET has passed since its last confirmation (R209). -/
def Chip.streamOpens (s : Chip) (router port key : Nat) : Bool :=
  let q := s.port router port
  let t := q.tx.get key
  !t.opened || (!q.sent.any (fun x => x.key = key) && t.everConf && s.sendQuiet (dieOf router) ≤ s.now - t.lastConf)

/-- Whether a packet for a stream can be sent now: one that failed, or that a reset of the die has wiped, opens again only
SEND_QUIET after that moment (R209, R216, R218, R220). -/
def Chip.streamReady (s : Chip) (router port key : Nat) : Bool :=
  let d := dieOf router
  let t := (s.port router port).tx.get key
  if t.broken then s.streamOpens router port key
  else if t.opened then true
  else match s.returnedAt.get d with
    | some at' => decide (s.sendQuiet d ≤ s.now - at')
    | none => true

/-- The stream of a waiting packet at its sender. -/
def Packet.key (p : Packet) : Nat := txKey p.dev p.router p.port p.flow

/-- A waiting packet numbered and moved to the sent ones (R208, R209). -/
def Chip.startPacket (s : Chip) (router port : Nat) (p : Packet) : Chip :=
  let q := s.port router port
  let key := p.key
  let t := q.tx.get key
  let first := if s.streamOpens router port key then 0 else t.next
  let seqs := seqRun p.body.length first
  let reads := p.typ = Typ.readReq || p.typ = Typ.regRead
  let rseq := q.rseq.get key
  let flits := (p.body.zip seqs).zipIdx.map (fun ((b, sq), i) => Flit.seal {
    w0 := head0 p.dev p.router p.port p.typ p.flow
    w1 := head1 s.ownDevice router port sq (i + 1 = p.body.length) b.poison
    w2 := b.w2
    w3 := if p.typ = Typ.readReq then putBits b.w3 6 12 rseq else if p.typ = Typ.regRead then word rseq else b.w3
    w4 := b.w4, w5 := b.w5 })
  let sp : SentPacket := { flits := flits, unsent := flits.length, key := key, resp := p.resp, rseq := rseq, origin := p.origin }
  s.onPort router port (fun q => { q with
    sent := q.sent ++ [sp]
    tx := q.tx.set key { t with opened := true, broken := false, next := (match seqs.getLast? with | some l => nextSeq l | none => first) }
    rseq := if reads then q.rseq.set key ((rseq + p.resp) % 4096) else q.rseq })

/-- The answer to a flit that its own router refuses at its injection: a local port's interface consumes it at once; for a flit
from a Karn link it leaves in the flit's place, or the flit waits (R195, R201). -/
def Chip.answerAtOnce (s : Chip) (router : Nat) (a : Flit) : Chip × Bool :=
  if a.dstDev = s.ownDevice && a.dstRouter = router then
    (s.onPort router a.dstPort (fun q => { q with answers := q.answers ++ [a] }), true)
  else match s.route router a with
    | .karn l =>
      let k := s.karn.get l
      if 64 ≤ k.txBuf.length then (s, false)
      else ({ s with karn := s.karn.set l { k with txBuf := k.txBuf ++ [{ flit := a, router := router, inPort := 7 }] } }, true)
    | .dir p => if s.portFree router p then (s.moveFlit router p a 0, true) else (s, false)
    | _ => (s, true)

/-- A flit enters the network at a router from local port `port`, into its productive port; false where it must wait (R194, R196,
R201). -/
def Chip.launch (s : Chip) (router port : Nat) (f : Flit) (age : Nat) : Chip × Bool :=
  let settle (r : Chip × Fate) : Chip × Bool := match r with
    | (s', .answered a) => (match s'.answerAtOnce router a with
      | (s'', true) => (s'', true)
      | (_, false) => (s, false))
    | (s', .gone) => (s', true)
    | (s', .stays) => (s', false)
  match s.headerDrop router (4 + port) f with
  | some s => (s, true)
  | none => match s.route router f with
    | .refuse reason => settle (s.refuseUnreachable router reason f)
    | .karn l =>
      let k := s.karn.get l
      if 64 ≤ k.txBuf.length then (s, false)
      else ({ s with karn := s.karn.set l { k with txBuf := k.txBuf ++ [{ flit := f, router := router, inPort := 4 + port, age := age }] } },
        true)
    | .eject =>
      if (s.useOf router).locals.contains f.dstPort then (s, false)
      else match s.eject router f with
        | (s, .gone) => (s.onUse router (fun u => { u with locals := f.dstPort :: u.locals }), true)
        | r => settle r
    | .dir p => if s.portFree router p then (s.moveFlit router p f age, true) else (s, false)

/-- Whether a local port may take new flits from its endpoint: its domain is not quiescing or asleep, and a FAB port's
collar is open (R136, R540). -/
def Chip.mayInject (s : Chip) (router port : Nat) : Bool :=
  let d := dieOf router
  !s.dieInReset d && !s.quiescing d (portDomain router port) && (2 ≤ port || s.collarOpen d (regionOf router)) &&
    s.dev ≠ .secureHalt

/-- The injection counts of a flit that has left (R636, R637). -/
def Chip.countInjected (s : Chip) (router port : Nat) : Chip :=
  let d := dieOf router
  let s := s.countDie d 1 1
  if port = 2 then s.countCore d (coreOf router) 32 1 else s

/-- A flit was ready and did not leave: NOC_STAT_11 and its counters. -/
def Chip.countWaiting (s : Chip) (router port : Nat) : Chip :=
  let d := dieOf router
  let s := (s.nocStat d 11).countDie d 12 1
  if port = 2 then s.countCore d (coreOf router) 34 1 else s

/-- Whether a local port is allowed to inject (NOC_PORT_n_p.EN). -/
def Chip.portEnabled (s : Chip) (router port : Nat) : Bool :=
  s.flag (dieOf router) (F.NOC_PORT_EN (8 * localY router + localX router) port)

/-- A new packet starts where none is on its way out: the first waiting packet whose stream can carry it, if the window admits it;
none while a setting of EN to 0 is due (R202, R209, R225). -/
def Chip.startWaiting (s : Chip) (router port : Nat) : Chip :=
  let q := s.port router port
  let closing : Bool := match q.deferred with
    | some w => !bit w 5
    | none => false
  if closing || q.sent.any (fun p => p.unsent != 0) then s
  else match q.waiting.findIdx? (fun p => s.streamReady router port p.key) with
    | some i => match q.waiting[i]? with
      | some p =>
        if q.inFlight + p.body.length + p.resp ≤ s.window router port then
          (s.startPacket router port p).onPort router port (fun q => { q with waiting := q.waiting.eraseIdx i })
        else s
      | none => s
    | none => s

/-- One flit of a sent packet has left; the first one of a transmission ends an earlier refusal (R682). -/
def SentPacket.sentOne (p : SentPacket) : SentPacket :=
  { p with unsent := p.unsent - 1, refused := p.refused && p.unsent != p.flits.length }

/-- The flit that a port sends next and what its interface becomes once it has left: confirmations and responses first, then the
flits still to send of sent packets, where the port may inject them (R136, R201, R540). -/
def Chip.readyFlit (s : Chip) (router port : Nat) : Option (Flit × (NocPort → NocPort)) :=
  let q := s.port router port
  match q.out with
  | f :: rest => some (f, fun q => { q with out := rest })
  | [] =>
    if !s.mayInject router port then none
    else match q.sent.findIdx? (fun p => p.unsent != 0) with
      | some i => (q.sent[i]?).bind (fun p => (p.flits[p.flits.length - p.unsent]?).map (fun f =>
          (f, fun q => { q with sent := q.sent.modify i SentPacket.sentOne })))
      | none => none

/-- A local port has its turn in its router's nc; one that has had it has the next in the next nc (R201). -/
def Chip.takeTurn (s : Chip) (router port : Nat) : Chip :=
  let u := s.useOf router
  let s := if u.nc < max s.nc (s.now * 6 / 5) || u.turns.contains port then s.beginNc router else s
  s.onUse router (fun u => { u with turns := port :: u.turns })

/-- A local port's turn: its ready flit leaves, or waits and is counted (R201, R202). -/
def Chip.inject (s : Chip) (router port : Nat) : Chip :=
  let s := s.takeTurn router port
  if !s.portEnabled router port then s
  else
    let s := if (s.port router port).out.isEmpty && s.mayInject router port then s.startWaiting router port else s
    match s.readyFlit router port with
    | some (f, gone) =>
      (match s.launch router port f 0 with
      | (s, true) => (s.onPort router port gone).countInjected router port
      | (s, false) => s.countWaiting router port)
    | none => if (s.port router port).waiting.isEmpty then s else s.countWaiting router port

/-! ### Confirmation, retry and refusal at the sender (R215 to R220, R225) -/

/-- A stream of a port treated as last confirmed now (R209, R216). -/
def Chip.streamConfirmed (s : Chip) (router port key : Nat) : Chip :=
  s.onPort router port (fun q => { q with tx := q.tx.set key { q.tx.get key with lastConf := s.now, everConf := true } })

/-- A deferred NOC_PORT_n_p write takes effect once the flits that were unconfirmed at the write are settled, and EN goes to 0 only
with none unconfirmed (R225, log 205). -/
def Chip.settlePort (s : Chip) (router port : Nat) : Chip :=
  let q := s.port router port
  match q.deferred with
  | some w =>
    if !q.sent.any (fun p => p.old || !bit w 5) then
      let d := dieOf router
      let n := 8 * localY router + localX router
      let s := s.setFld d (F.NOC_PORT_WIN n port) (bits w 0 5)
      let s := s.setFld d (F.NOC_PORT_EN n port) (bits w 5 1)
      s.onPort router port (fun q => { q with deferred := none })
    else s
  | none => s

/-- The sent packet at index i is confirmed and leaves the window (R215). -/
def Chip.confirmAt (s : Chip) (router port i : Nat) : Chip :=
  match (s.port router port).sent[i]? with
  | some p =>
    let s := s.onPort router port (fun q => { q with sent := q.sent.eraseIdx i })
    (s.streamConfirmed router port p.key).settlePort router port
  | none => s

/-- The responses that a port holds for a sent packet (R208). -/
def SentPacket.awaits (p : SentPacket) (h : Held) : Bool :=
  match p.flits with
  | g :: _ => h.flit.typ = Typ.readResp && g.dstDev = h.flit.srcDev && g.dstRouter = h.flit.srcRouter &&
      g.dstPort = h.flit.srcPort && g.flow = h.flit.flow && (h.seq + 4096 - p.rseq) % 4096 < p.resp
  | [] => false

/-- The packet at index i and every later unconfirmed packet of its stream leave the window as failed, with the responses held for
them; FAIL_SEEN is set, the stream opens again before it carries more, and the failed packets are given back for their endpoint
(R207, R216, R220). -/
def Chip.failFrom (s : Chip) (router port i : Nat) : Chip × List SentPacket :=
  let q := s.port router port
  match q.sent[i]? with
  | none => (s, [])
  | some p =>
    let lost := (q.sent.zipIdx.filter (fun (x, j) => i ≤ j && x.key = p.key)).map (·.1)
    let kept := (q.sent.zipIdx.filter (fun (x, j) => !(i ≤ j && x.key = p.key))).map (·.1)
    let s := s.onPort router port (fun q => { q with sent := kept, held := q.held.filter (fun h => !lost.any (fun x => x.awaits h)) })
    let s := s.streamConfirmed router port p.key
    let s := s.onPort router port (fun q => { q with tx := q.tx.set p.key { q.tx.get p.key with broken := true } })
    let s := s.setFlag (dieOf router) (F.NOC_PORT_FAIL_SEEN (8 * localY router + localX router) port) true
    (s.settlePort router port, lost)

/-- A packet's failure when its retries run out: logged as NOC_TIMEOUT (R216). -/
def Chip.failTimeout (s : Chip) (router port i : Nat) : Chip × List SentPacket :=
  match (s.port router port).sent[i]? with
  | none => (s, [])
  | some p =>
    let flow := match p.flits with
      | f :: _ => f.flow
      | [] => 0
    (s.logEv (dieOf router) Ev.nocTimeout (router + port * 2 ^ 8 + flow * 2 ^ 11)).failFrom router port i

/-- The confirmation timer of the packet at index i expires: it is resent, or fails after RETRY_LIMIT resends (R216). -/
def Chip.retryTimeout (s : Chip) (router port i : Nat) : Chip × List SentPacket :=
  match (s.port router port).sent[i]? with
  | none => (s, [])
  | some p =>
    let d := dieOf router
    if p.unsent != 0 || p.refused then (s, [])
    else if p.retries < s.fld d F.NOC_RETRY_RETRY_LIMIT then
      let s := (s.nocStat d 4).countDie d 7 1
      (s.onPort router port (fun q => { q with
        sent := q.sent.modify i (fun p => { p with unsent := p.flits.length, retries := p.retries + 1, wakes := 0 }) }), [])
    else s.failTimeout router port i

/-- The index of the sent packet that holds the flit whose header words an answer carries (R194, R682). -/
def NocPort.refusedIdx (q : NocPort) (a : Flit) : Option Nat :=
  q.sent.findIdx? (fun p => p.flits.any (fun f => f.w0 = a.w2 && (f.w1 >>> 1) = (a.w3 >>> 1)))

/-- The first answer of a type removed from a port's queue. -/
def Chip.takeAnswer (s : Chip) (router port t : Nat) : Chip × Option Flit :=
  let q := s.port router port
  match q.answers.findIdx? (fun f => f.typ = t) with
  | some i => (s.onPort router port (fun q => { q with answers := q.answers.eraseIdx i }), q.answers[i]?)
  | none => (s, none)

/-- A WAKE_NACK at the sending interface: the first one for a transmission refuses it; past WAKE_LIMIT the packet fails as
when retries run out (R219, R682). -/
def Chip.wakeNacked (s : Chip) (router port : Nat) (a : Flit) : Chip × List SentPacket :=
  let q := s.port router port
  match q.refusedIdx a with
  | none => (s, [])
  | some i =>
    match q.sent[i]? with
    | none => (s, [])
    | some p =>
      if p.refused then (s, [])
      else
        let d := dieOf router
        let s := if port = 2 then s.countCore d (coreOf router) 35 1 else s
        if p.wakes + 1 > s.fld d F.NOC_RETRY_WAKE_LIMIT then s.failTimeout router port i
        else (s.onPort router port (fun q => { q with
          sent := q.sent.modify i (fun p => { p with refused := true, wakes := p.wakes + 1 }) }), [])

/-- The hint of a refused packet has passed: it and every later unconfirmed packet of its stream are resent with their
numbers unchanged; one whose last transmission was not refused starts counting its refusals again (R219). -/
def Chip.wakeResend (s : Chip) (router port i : Nat) : Chip :=
  match (s.port router port).sent[i]? with
  | some p =>
    if p.refused then
      s.onPort router port (fun q => { q with sent := q.sent.mapIdx (fun j x =>
        if i ≤ j && x.key = p.key then { x with unsent := x.flits.length, wakes := if x.refused then x.wakes else 0 } else x) })
    else s
  | none => s

/-- A refusal that the sender does not retry: NOT_READY or UNREACHABLE (R220, R221). -/
def Chip.refusedForGood (s : Chip) (router port : Nat) (a : Flit) : Chip × List SentPacket :=
  match (s.port router port).refusedIdx a with
  | none => (s, [])
  | some i => if (((s.port router port).sent[i]?).map (·.refused)).getD false then (s, []) else s.failFrom router port i

/-- WAKE_RESEND (R219). -/
def execWakeResend (router : Fin 256) (port : Fin 4) (packet : Nat) (s : State) : Out :=
  s.onChip (fun c => c.wakeResend router port packet)

/-- The first flit waiting at an endpoint, if it has the type asked for; it is taken (R192). -/
def Chip.takeDelivered (s : Chip) (router port t : Nat) : Chip × Option Flit :=
  match (s.port router port).delivered with
  | f :: rest => if f.typ = t then (s.onPort router port (fun q => { q with delivered := rest }), some f) else (s, none)
  | [] => (s, none)

/-! ### Hole expiry (R210, R215) and port settings (R225) -/

/-- A stream-table entry that has been missing its expected flit, or whose held flit its endpoint has not taken, for
EVICT_QUIET: its held flits are discarded and it is evicted (R210, R215). -/
def Chip.holeExpired (s : Chip) (router port entry : Nat) : Chip :=
  let d := dieOf router
  let q := s.port router port
  match q.table[entry]? with
  | none => s
  | some e =>
    let mine := q.held.filter (fun h => h.key = e.key)
    let since := match mine.find? (fun h => h.seq = e.expect) with
      | some h => [max e.advanced h.since]
      | none => match mine.map Held.since with
        | t :: ts => [max e.advanced (ts.foldl min t)]
        | [] => []
    if since.any (fun t => s.evictQuiet d ≤ s.now - t) then
      let s := s.onPort router port (fun q => { q with
        held := q.held.filter (fun h => h.key != e.key), table := q.table.eraseIdx entry })
      let s := ((s.nocStat d 10).countDie d 14 1)
      s.logEv d Ev.nocHoleExpired (router + port * 2 ^ 8 + e.key / 2 % 1024 * 2 ^ 11)
    else s

/-- NOC_HOLE_EXPIRED (R210). -/
def execNocHoleExpired (router : Fin 256) (port : Fin 4) (entry : Nat) (s : State) : Out :=
  s.onChip (fun c => c.holeExpired router port entry)

/-- A write of NOC_PORT_n_p: WIN and EN wait while flits are unconfirmed; FAIL_SEEN is W1C (R225). EN goes to 0 only when
the port has no unconfirmed flit. -/
def Chip.nocPortWrite (s : Chip) (d n p : Nat) (v : W36) : Chip :=
  let router := routerAt d (n % 8) (n / 8)
  let s := if bit v 6 then s.setFlag d (F.NOC_PORT_FAIL_SEEN n p) false else s
  (s.onPort router p (fun q => { q with deferred := some v, sent := q.sent.map (fun x => { x with old := true }) })).settlePort router p

/-- NOC_PORT_WRITE (R225). -/
def execNocPortWrite (d : Die) (n : Fin 64) (p : Fin 4) (v : W36) (s : State) : Out :=
  s.onChip (fun c => c.nocPortWrite d n p v)

end Sys2Proof.Machine
end

