-- ==== Sys2Proof/Machine/Fabric.lean ====
section
/-! DEFINITION. The fabric: configuration frames, logic cells, lanes, spines, collars seen from both sides, and the
clock edge of clusters (chapters 2 to 4). -/

namespace Sys2Proof.Machine

/-! ### Configuration frames (R81, R171, R172) -/

/-- A frame address: die, region (16 for the die-global frames), frame (R171). -/
def frameAddr (d r f : Nat) : Nat := d * 2 ^ 23 + r * 2 ^ 18 + f

/-- The blank content of a frame word: every lane, far-side and RAM-input selector and every spine SRC is 255, and every
other field 0 (R172). The key is frame address * 64 + word. -/
def blankWord (key : Nat) : W36 :=
  let w := key % 64
  let f := key / 64 % 2 ^ 14
  let r := key / 64 / 2 ^ 18 % 32
  if r ≥ 16 then 0
  else if f < 13824 then
    if f % 6 = 3 then (if w < 22 then 0xFFFFFFFF else if 24 ≤ w && w < 32 then 0x3FC0 else 0)
    else if f % 6 = 4 || f % 6 = 5 then (if w < 34 then 0xFFFFFFFF else 0)
    else 0
  else if 15872 ≤ f && f < 16000 then
    if 8 ≤ w && w < 21 then 0xFFFFFFFF else if w = 21 then 0xFFFFFF
    else if 24 ≤ w && w < 37 then 0xFFFFFFFF else if w = 37 then 0xFFFF else 0
  else 0

/-- Word w of a frame. -/
def Chip.frameWord (s : Chip) (fa w : Nat) : W36 := SMap.getD blankWord s.frames (fa * 64 + w)

/-- Word w of a frame set. -/
def Chip.setFrameWord (s : Chip) (fa w : Nat) (v : W36) : Chip :=
  { s with frames := SMap.setD blankWord s.frames (fa * 64 + w) v }

/-- Every frame of a region, or of the die-global set for r = 16, back at its blank content. -/
def Chip.blankFrames (s : Chip) (d r : Nat) : Chip :=
  { s with frames := SMap.dropRange s.frames (frameAddr d r 0 * 64) (frameAddr d (r + 1) 0 * 64) }

/-! ### Coordinates (R33 to R35) -/

/-- The region of a cluster (R33). -/
def clusterRegion (cx cy : Nat) : Nat := 4 * (cy / 48) + cx / 48

/-- The region-local index of a cluster (R34). -/
def clusterIndex (cx cy : Nat) : Nat := 48 * (cy % 48) + cx % 48

/-- The key of a cluster's cell, and with 96 in place of 64 of its lane ends. -/
def cellKey (d cx cy n : Nat) : Nat := ((d * 192 + cy) * 192 + cx) * 64 + n
def laneKey (d cx cy e : Nat) : Nat := ((d * 192 + cy) * 192 + cx) * 96 + e

/-- Word w of frame 6c + m of a cluster. -/
def Chip.clusterWord (s : Chip) (d cx cy m w : Nat) : W36 :=
  s.frameWord (frameAddr d (clusterRegion cx cy) (6 * clusterIndex cx cy + m)) w

/-- Field i of a word of 8-bit selectors. -/
def selByte (w : W36) (i : Nat) : Nat := bits w (8 * (i % 4)) 8

/-- The region across side s of a region, if the side is not a die edge. -/
def acrossSide (r s : Nat) : Option Nat :=
  if s = 0 then (if r < 4 then none else some (r - 4))
  else if s = 2 then (if r ≥ 12 then none else some (r + 4))
  else if s = 1 then (if r % 4 = 3 then none else some (r + 1))
  else (if r % 4 = 0 then none else some (r - 1))

/-- The key of a boundary wire's name (R672). -/
def wireKey (d r side v : Nat) : Nat := ((d * 16 + r) * 4 + side) * 8768 + v

/-- The key of a signal an edge block drives into a region (R392, R423). -/
def edgeInKey (d r side i : Nat) : Nat := ((d * 16 + r) * 4 + side) * 2048 + i

/-- The boundary cluster at position p along a side of a region. -/
def sideCluster (r side p : Nat) : Nat × Nat :=
  let x0 := 48 * (r % 4)
  let y0 := 48 * (r / 4)
  if side = 0 then (x0 + p, y0) else if side = 2 then (x0 + p, y0 + 47)
  else if side = 1 then (x0 + 47, y0 + p) else (x0, y0 + p)

/-! ### Collars (R132 to R141) -/

/-- The 2-bit collar value of wire v of a side that is in force: that of the last completed load (R134, R141, R148). -/
def Chip.collarCode (s : Chip) (d r side v : Nat) : Nat :=
  bits (SMap.getD blankWord s.collars (frameAddr d r (16136 + 16 * side + v / 1024) * 64 + v / 16 % 64)) (2 * (v % 16)) 2

/-- The collar frames of a region, once its load is complete, come into force (R134, R141). -/
def Chip.takeCollars (s : Chip) (d r : Nat) : Chip :=
  let lo := frameAddr d r 16136 * 64
  let hi := frameAddr d r 16200 * 64
  let kept := SMap.dropRange s.collars lo hi
  { s with collars := (s.frames.filter (fun e => lo ≤ e.1 && e.1 < hi)).foldl (fun m e => SMap.put m e.1 e.2) kept }

/-- What a wire presents outside while the collar is closed (R133, R134). -/
def Chip.collarValue (s : Chip) (d r side v : Nat) : Bool :=
  match s.collarCode d r side v with
  | 0 => false
  | 1 => true
  | _ => s.latches.get (wireKey d r side v)

/-! ### Lanes (R89 to R98) -/

/-- The class of lane end e (below 88): span, direction of travel (0 north, 1 east, 2 south, 3 west), lane number. -/
def laneClass (e : Nat) : Nat × Nat × Nat :=
  let dir (i : Nat) : Nat := if i = 0 then 1 else if i = 1 then 3 else if i = 2 then 2 else 0
  if e < 32 then (1, dir (e / 8), e % 8)
  else if e < 64 then (4, dir ((e - 32) / 8), e % 8)
  else (16, dir ((e - 64) / 6), (e - 64) % 6)

/-- The cluster a lane that arrives as end e at (cx, cy) starts from, if the lane exists (R90, R91). -/
def laneOrigin (cx cy e : Nat) : Option (Nat × Nat) :=
  let (span, dir, _) := laneClass e
  if dir = 1 then (if cx < span then none else some (cx - span, cy))
  else if dir = 3 then (if cx + span ≥ 192 then none else some (cx + span, cy))
  else if dir = 2 then (if cy < span then none else some (cx, cy - span))
  else (if cy + span ≥ 192 then none else some (cx, cy + span))

/-- The distance d of R98 of an origin cluster before the boundary it crosses travelling in a direction. -/
def crossDist (ox oy dir : Nat) : Nat :=
  if dir = 1 then 48 - ox % 48 else if dir = 3 then ox % 48 + 1 else if dir = 2 then 48 - oy % 48 else oy % 48 + 1

/-- The field index j of a crossing lane (R98). -/
def crossIndex (span lane dist : Nat) : Nat :=
  if span = 1 then lane else if span = 4 then 8 + 8 * (dist - 1) + lane else 40 + 6 * (dist - 1) + lane

/-- The first cluster of the next region on a crossing lane's path. -/
def farCluster (ox oy dir : Nat) : Nat × Nat :=
  if dir = 1 then (ox - ox % 48 + 48, oy) else if dir = 3 then (ox - ox % 48 - 1, oy)
  else if dir = 2 then (ox, oy - oy % 48 + 48) else (ox, oy - oy % 48 - 1)

/-- The wire index v of a crossing lane at its origin region's side (R140). -/
def laneWire (ox oy dir span lane : Nat) : Nat :=
  let p := if dir = 1 || dir = 3 then oy % 48 else ox % 48
  136 * p + crossIndex span lane (crossDist ox oy dir)

/-- The first cluster positions of the portions of spine segment g along its track (R92). -/
def portions (g : Nat) : Nat × Nat := if g = 0 then (0, 48) else if g = 1 then (64, 96) else (128, 144)

/-- The RAM (0 or 1, and its region-local index 2t + k) that a cluster hosts (R100). -/
def hostedRam (cx cy : Nat) : Option Nat :=
  let x := cx % 48
  let y := cy % 48
  let t := 8 * (y / 6) + x / 6
  if x % 6 = 2 && y % 6 = 2 then some (2 * t) else if x % 6 = 3 && y % 6 = 3 then some (2 * t + 1) else none

/-- The gate hosted at position p of a side (R119). -/
def gateAt (p : Nat) : Option Nat := if p < 48 && p % 3 < 2 then some (2 * (p / 3) + p % 3) else none

/-! ### Gates (R118 to R127) -/

/-- The key of a gate by its write half. -/
def gateKey (d r side g : Nat) : Nat := ((d * 16 + r) * 4 + side) * 32 + g

/-- The side opposite. -/
def opposite (side : Nat) : Nat := (side + 2) % 4

/-- Word 0 of the gate frame of side, gate of a region (R125). -/
def Chip.gateCfg (s : Chip) (d r side g : Nat) : W36 := s.frameWord (frameAddr d r (16000 + 32 * side + g)) 0

/-- Whether a write half is enabled (R125). -/
def Chip.gateOut (s : Chip) (d r side g : Nat) : Bool := bit (s.gateCfg d r side g) 0

/-- Whether the read half of the neighbour's gate g coming in over this side is enabled. -/
def Chip.gateIn (s : Chip) (d r side g : Nat) : Bool := bit (s.gateCfg d r side g) 7

/-- FULL as the write half of outgoing gate g shows it (R126, R132, R135); a disabled half shows FULL = 1 (log 198). -/
def Chip.gateFull (s : Chip) (d r side g : Nat) : Bool :=
  match acrossSide r side with
  | none => true
  | some n =>
    let q := s.gates.get (gateKey d r side g)
    !s.gateOut d r side g || !s.gateIn d n (opposite side) g || !s.collarOpen d r || !s.collarOpen d n ||
      8 ≤ q.entries.length + q.freeing

/-- The oldest entry as the read half of the neighbour region shows it; none while EMPTY = 1, which a disabled half shows too
(log 198). -/
def Chip.gateShown (s : Chip) (d r side g : Nat) : Option GateEntry :=
  match acrossSide r side with
  | none => none
  | some n =>
    if s.gateOut d r side g && s.gateIn d n (opposite side) g && s.collarOpen d r && s.collarOpen d n then
      match (s.gates.get (gateKey d r side g)).entries with
      | e :: _ => if e.visible then some e else none
      | [] => none
    else none

/-- Signal i (R102) of the gates at a boundary cluster's side: 0 to 35 RDATA, 36 EMPTY, 37 ERR, 38 FULL. RDATA and ERR are 0 while
EMPTY = 1 (log 199). -/
def Chip.gateSignal (s : Chip) (d r side g i : Nat) : Bool :=
  let shown := match acrossSide r side with
    | some n => s.gateShown d n (opposite side) g
    | none => none
  if i < 36 then (match shown with | some e => bit e.data i | none => false)
  else if i = 36 then shown.isNone
  else if i = 37 then (match shown with | some e => checkBits e.data != e.chk | none => false)
  else s.gateFull d r side g

/-! ### Signals -/

/-- The signals of the fabric of one die that depend on others. -/
inductive Sig where
  | out (cx cy n : Nat)       -- a cell's output (R38)
  | comb (cx cy n : Nat)      -- a cell's combinational result (R37)
  | lut (cx cy n : Nat)       -- a cell's LUT4 output (R36)
  | carry (cx cy n : Nat)     -- a cell's carry-out (R46)
  | laneEnd (cx cy e : Nat)   -- a lane end (R91)
deriving DecidableEq, Repr

/-- A number for a signal, to which its free value is applied. -/
def Sig.code : Sig → Nat
  | .out x y n => cellKey 0 x y n * 5
  | .comb x y n => cellKey 0 x y n * 5 + 1
  | .lut x y n => cellKey 0 x y n * 5 + 2
  | .carry x y n => cellKey 0 x y n * 5 + 3
  | .laneEnd x y e => laneKey 0 x y e * 5 + 4

/-- A cell's configuration word (R82). -/
def Chip.cellWord (s : Chip) (d cx cy n : Nat) : W36 := s.clusterWord d cx cy 0 n

/-- A cell's FUNC field. -/
def cellFunc (w : W36) : Nat := bits w 16 2

/-- The source of a crossbar selector value, as a signal of its cluster; 160 and above select constant 0 (R51). -/
def xbarSig (cx cy v : Nat) : Option Sig :=
  if v < 64 then some (.out cx cy v) else if v < 160 then some (.laneEnd cx cy (v - 64)) else none

/-- The bank whose edge signals cross a side of a region (R384). -/
def bankOf (d r side : Nat) : Option Nat :=
  if d % 2 = 0 then (if side = 3 && r = 0 then some 0 else if side = 3 && r = 12 then some 1 else none)
  else if side = 1 && r = 3 then some 0 else if side = 1 && r = 15 then some 1 else none

/-- Signal i that the pad ring drives into a bank's region, as the last edge of the bank's word clock presented it (R392, R396). -/
def Chip.bankSignal (s : Chip) (d b i : Nat) : Bool := if i < 488 then (s.banks.get (2 * d + b)).shown.getLsbD i else false

/-- The quads that adjoin a side of a region, as the even one (R412). -/
def quadsOf (d r side : Nat) : Option Nat :=
  if d < 2 then (if side = 0 && r < 4 then some (2 * r) else none)
  else if side = 2 && 12 ≤ r then some (2 * (r - 12)) else none

/-- A transceiver lane. -/
def Chip.lane (s : Chip) (d q l : Nat) : LaneRec := s.lanes.get ((8 * d + q) * 4 + l)

/-- Incoming signal j of a lane slot, as the last edge of FCLK presented it (R423, R426, R427); a quad that the Karn engine owns
presents 0. -/
def Chip.laneSignal (s : Chip) (d q l j : Nat) : Bool :=
  let x := s.lane d q l
  if s.flag d (F.XCV_QUAD_CFG_KARN q) then false
  else if j = 74 then x.rdyOut
  else if j = 75 then x.upOut
  else if 77 ≤ j then false
  else match x.shown with
    | some w => j = 72 || bit w j
    | none => j ≠ 72 && Config.idleSignal (s.now * 2 ^ 20 + ((8 * d + q) * 4 + l) * 128 + j)

/-- The octets that a MAC's mode gives a sub-port's transmit FIFO, in words of 64 (R439). -/
def Chip.ethDepth (s : Chip) (d m : Nat) : Nat := if s.fld d (F.ETH_CFG_MODE m) = 1 then 1024 else 256

/-- Incoming signal 640 + j of a MAC, as the last edge of CCLK presented it (R423, R426, R438 to R442). -/
def Chip.macSignal (s : Chip) (d m j : Nat) : Bool :=
  let x := s.macs.get (2 * d + m)
  let idle := Config.idleSignal (s.now * 2 ^ 20 + 2 ^ 19 + (2 * d + m) * 1024 + j)
  if j < 588 then
    match x.shown with
    | some w =>
      if j < 512 then w.data.getLsbD j
      else if j = 512 then true else if j = 513 then w.sop else if j = 514 then w.eop
      else if j < 521 then w.empty.testBit (j - 515)
      else if j = 521 then w.err
      else if j < 524 then w.port.testBit (j - 522)
      else if w.sop then w.ts.testBit (j - 524) else idle
    | none => j ≠ 512 && idle
  else if j < 592 then x.rdyOut.getLsbD (j - 588)
  else if j < 667 then
    match x.tsShown with
    | some (p, t, v) =>
      if j = 592 then true else if j < 595 then p.testBit (j - 593) else if j < 603 then t.testBit (j - 595)
      else v.testBit (j - 603)
    | none => j ≠ 592 && idle
  else false

/-- Signal i that an edge block presents to a region (R392, R423). -/
def Chip.edgeSignal (s : Chip) (d r side i : Nat) : Bool :=
  match bankOf d r side with
  | some b => s.bankSignal d b i
  | none => match quadsOf d r side with
    | some q =>
      if i < 640 then s.laneSignal d (q + i / 80 / 4) (i / 80 % 4) (i % 80)
      else if q % 4 = 0 then s.macSignal d (q / 4) (i - 640) else false
    | none => false

/-- Signal i of an edge block as a region sees it: behind a closed collar, as it was at the closing (R132). -/
def Chip.edgeIn (s : Chip) (d r side i : Nat) : Bool :=
  if s.collarOpen d r then s.edgeSignal d r side i else s.frozenEdge.get (edgeInKey d r side i)

/-- A hardened output that a driver selector value 160 to 237 names in a cluster (R100, R102, R103, R394, R424).
Selectors 236 and 237 of a RAM's host name nothing and read 0 (log 192). -/
def Chip.hardened (s : Chip) (d cx cy v : Nat) : Bool :=
  let r := clusterRegion cx cy
  let lx := cx % 48
  let ly := cy % 48
  let edgeSig (side p : Nat) : Bool := if v ≤ 170 then s.edgeIn d r side (48 * (v - 160) + p) else false
  let gate (side p i : Nat) : Bool := match gateAt p with
    | some g => if (acrossSide r side).isSome then s.gateSignal d r side g i else false
    | none => false
  match hostedRam cx cy with
  | some i =>
    let cas := bit (s.frameWord (frameAddr d r (15872 + (i - i % 2))) 0) 22
    let m := s.ramMacros.get (d * 2048 + r * 128 + i)
    if cas && i % 2 = 1 then false
    else if v < 196 then bit m.portA.dout (v - 160) else if v = 196 then m.portA.err else if v = 197 then m.portA.coll
    else if v < 234 then bit m.portB.dout (v - 198) else if v = 234 then m.portB.err else if v = 235 then m.portB.coll
    else false
  | none =>
    if v < 199 then
      let i := v - 160
      if lx = 0 then (if (acrossSide r 3).isSome then gate 3 ly i else edgeSig 3 ly)
      else if lx = 47 then (if (acrossSide r 1).isSome then gate 1 ly i else edgeSig 1 ly)
      else false
    else
      let i := v - 199
      let far (side : Nat) : Bool :=
        if (acrossSide r side).isSome then gate side lx i else if i < 28 then s.edgeIn d r side (48 * i + lx) else false
      if ly = 0 then far 0 else if ly = 47 then far 2 else false

/-- A region whose write enables have been released (R43, R149, R187). -/
def Chip.writesOn (s : Chip) (d r : Nat) : Bool :=
  2 ≤ s.fld d (F.CFG_REGION_STATUS_STAGE r) && s.regionState d r != Rgn.empty && s.regionState d r != Rgn.loading

/-- The value a LUT RAM holds at an address (R54). -/
def Chip.lutRamBit (s : Chip) (d cx cy n a : Nat) : Bool :=
  let l := s.lutRam.get (cellKey d cx cy n)
  if l.written then l.data.getLsbD a else bit (s.cellWord d cx cy n) a

/-- The origin selector of lane k of a cluster (R97). -/
def Chip.originSel (s : Chip) (d ox oy k : Nat) : Nat := selByte (s.clusterWord d ox oy 3 (k / 4)) k

/-- The far-side selector of a crossing lane (R97, R98). -/
def Chip.farSel (s : Chip) (d ox oy dir span lane : Nat) : Nat :=
  let (fx, fy) := farCluster ox oy dir
  let j := crossIndex span lane (crossDist ox oy dir)
  selByte (s.clusterWord d fx fy (if dir = 1 || dir = 3 then 4 else 5) (j / 4)) j

/-- The value of a signal: cells and lanes followed back to their sources, at most `fuel` deep. The fuel of `signal`
exceeds the number of signals of a die, so only a combinational loop runs out of it; its value is free. -/
def Chip.eval (s : Chip) (d : Nat) : Nat → Sig → Bool
  | 0, g => Config.combLoop s.free g.code
  | fuel + 1, g =>
    let go (h : Sig) : Bool := Chip.eval s d fuel h
    let opt (h : Option Sig) : Bool := match h with
      | some h => go h
      | none => false
    -- a driver selector of R93 in cluster (x, y)
    let drive (x y v : Nat) : Bool := if v < 160 then opt (xbarSig x y v) else if v < 238 then s.hardened d x y v else false
    -- a control-line selector of R52
    let line (x y v : Nat) : Bool := if v < 96 then go (.laneEnd x y v) else v = 127
    -- input j of a cell through the crossbar
    let inp (x y n j : Nat) : Bool := opt (xbarSig x y (selByte (s.clusterWord d x y 1 n) j))
    let addr (x y n : Nat) : Nat :=
      8 * ofBool (inp x y n 3) + 4 * ofBool (inp x y n 2) + 2 * ofBool (inp x y n 1) + ofBool (inp x y n 0)
    match g with
    | .lut x y n =>
      let w := s.cellWord d x y n
      bit w (addr x y (if cellFunc w = 1 then n - n % 2 else n))
    | .carry x y n =>
      let w := s.cellWord d x y n
      if cellFunc w = 2 then
        let a := addr x y n % 8
        if bit w (8 + a) then
          (if n = 0 then
            let c := s.clusterWord d x y 2 1
            let sel := bits c 14 2
            if sel = 0 then (if y % 48 = 0 then false else go (.carry x (y - 1) 63))
            else if sel = 1 then false else if sel = 2 then true else line x y (bits c 7 7)
          else go (.carry x y (n - 1)))
        else bit w a
      else false
    | .comb x y n =>
      let w := s.cellWord d x y n
      if cellFunc w = 0 then go (.lut x y n)
      else if cellFunc w = 1 then
        if n % 2 = 0 then (if inp x y (n + 1) 0 then go (.lut x y (n + 1)) else go (.lut x y n)) else go (.lut x y n)
      else if cellFunc w = 2 then
        let p := bit w (8 + addr x y n % 8)
        let ci := if n = 0 then
            let c := s.clusterWord d x y 2 1
            let sel := bits c 14 2
            if sel = 0 then (if y % 48 = 0 then false else go (.carry x (y - 1) 63))
            else if sel = 1 then false else if sel = 2 then true else line x y (bits c 7 7)
          else go (.carry x y (n - 1))
        p != ci
      else s.lutRamBit d x y n (addr x y (n - n % 2))
    | .out x y n =>
      let w := s.cellWord d x y n
      if bit w 18 then
        let c := s.clusterWord d x y 2 0
        let sr := bits w 21 2
        let reset := if sr = 1 then line x y (bits c 20 7) else if sr = 2 then line x y (bits c 27 7) else false
        if (sr = 1 || sr = 2) && !bit w 23 && s.writesOn d (clusterRegion x y) && reset then bit w 20
        else s.ff.get (cellKey d x y n)
      else go (.comb x y n)
    | .laneEnd x y e =>
      let home := clusterRegion x y
      if e < 88 then
        match laneOrigin x y e with
        | none => false
        | some (ox, oy) =>
          let (span, dir, lane) := laneClass e
          let r := clusterRegion ox oy
          if r = home then drive ox oy (s.originSel d ox oy e)
          else
            let v := laneWire ox oy dir span lane
            let c := s.claims.get (wireKey d r dir v)
            if c.nbrOn && !(c.hereOn && r < home) then
              let (fx, fy) := farCluster ox oy dir
              drive fx fy (s.farSel d ox oy dir span lane)
            else if !s.collarOpen d home then s.frozen.get (laneKey d x y e)
            else if !s.collarOpen d r then s.collarValue d r dir v
            else drive ox oy (s.originSel d ox oy e)
      else
        let t := (e - 88) % 4
        let horiz := e < 92
        let pos := if horiz then x else y
        let (p0, p1) := portions (pos / 64)
        let at2 (p : Nat) : Nat × Nat := if horiz then (p, y) else (x, p)
        let r0 := clusterRegion (at2 p0).1 (at2 p0).2
        let r1 := clusterRegion (at2 p1).1 (at2 p1).2
        let side := if horiz then 1 else 2
        let v := 6528 + 4 * (if horiz then y % 48 else x % 48) + t
        let c := s.claims.get (wireKey d r0 side v)
        let field (p : Nat) : W36 := s.clusterWord d (at2 p).1 (at2 p).2 3 ((if horiz then 24 else 28) + t)
        let drv (p : Nat) : Bool :=
          let w := field p
          let q := at2 (p + bits w 0 6)
          drive q.1 q.2 (bits w 6 8)
        let lower := c.hereOn || !c.nbrOn
        let src := if lower then r0 else r1
        if src = home then drv (if lower then p0 else p1)
        else if !s.collarOpen d home then s.frozen.get (laneKey d x y e)
        else if !s.collarOpen d src then s.collarValue d src (if lower then side else opposite side) v
        else drv (if lower then p0 else p1)

/-- The value of a signal of a die now. -/
def Chip.signal (s : Chip) (d : Nat) (g : Sig) : Bool := s.eval d (2 ^ 24) g

/-- The value of a control-line selector of a cluster (R52). -/
def Chip.ctrlLine (s : Chip) (d cx cy v : Nat) : Bool := if v < 96 then s.signal d (.laneEnd cx cy v) else v = 127

/-- The value of an R51 selector in a cluster. -/
def Chip.xbar (s : Chip) (d cx cy v : Nat) : Bool := match xbarSig cx cy v with
  | some g => s.signal d g
  | none => false

/-- The value of an R93 selector in a cluster. -/
def Chip.driven (s : Chip) (d cx cy v : Nat) : Bool :=
  if v < 160 then s.xbar d cx cy v else if v < 238 then s.hardened d cx cy v else false

/-! ### Closing a collar (R132, R134, R139) -/

/-- The value that wire v of a side carries outward at this moment, before a closing (R140, R393). -/
def Chip.outward (s : Chip) (d r side v : Nat) : Bool :=
  if v < 6528 then
    let p := v / 136
    let j := v % 136
    let (span, dist, lane) := if j < 8 then (1, 1, j) else if j < 40 then (4, (j - 8) / 8 + 1, j % 8)
      else (16, (j - 40) / 6 + 1, (j - 40) % 6)
    let base := if span = 1 then 0 else if span = 4 then 32 else 64
    let per := if span = 16 then 6 else 8
    let ord := if side = 1 then 0 else if side = 3 then 1 else if side = 2 then 2 else 3
    let b := sideCluster r side p
    let back := dist - 1
    let o := if side = 1 then (b.1 - back, b.2) else if side = 3 then (b.1 + back, b.2)
      else if side = 2 then (b.1, b.2 - back) else (b.1, b.2 + back)
    s.driven d o.1 o.2 (s.originSel d o.1 o.2 (base + per * ord + lane))
  else if v < 6720 then
    let p := (v - 6528) / 4
    let t := (v - 6528) % 4
    let b := sideCluster r side p
    s.signal d (.laneEnd b.1 b.2 ((if side = 1 || side = 3 then 88 else 92) + t))
  else
    let e := v - 6720
    let b := sideCluster r side (e % 48)
    s.driven d b.1 b.2 (selByte (s.clusterWord d b.1 b.2 (if side = 1 || side = 3 then 4 else 5) (e / 48 / 4)) (e / 48))

/-- What edge signal e of a side presents to the blocks outside (R391, R393, R422). -/
def Chip.edgeOut (s : Chip) (d r side e : Nat) : Bool :=
  if s.collarOpen d r then s.outward d r side (6720 + e) else s.collarValue d r side (6720 + e)

/-- Whether a lane end of a cluster is driven from another region. -/
def Chip.fromOutside (cx cy e : Nat) : Bool :=
  if e < 88 then
    match laneOrigin cx cy e with
    | some (ox, oy) => clusterRegion ox oy != clusterRegion cx cy
    | none => false
  else true

/-- The clusters of a region. -/
def regionClusters (r : Nat) : List (Nat × Nat) :=
  (List.range 2304).map (fun c => (48 * (r % 4) + c % 48, 48 * (r / 4) + c / 48))

/-- The numbers of signals that an edge block drives into a region over a side, as far as selectors name them (R394, R424). -/
def edgeInputs (d r side : Nat) : Nat :=
  if (bankOf d r side).isSome then 528 else if (quadsOf d r side).isSome then 1344 else 0

/-- The latches of a region's outgoing wires sample, and the values that cross inward are kept (R132, R134, R139). -/
def Chip.sampleCollar (s : Chip) (d r : Nat) : Chip :=
  let latches := (List.range 4).foldl (fun m side => (List.range 8768).foldl (fun m v =>
    m.set (wireKey d r side v) (s.outward d r side v)) m) s.latches
  let frozen := (regionClusters r).foldl (fun m c => (List.range 96).foldl (fun m e =>
    if Chip.fromOutside c.1 c.2 e then m.set (laneKey d c.1 c.2 e) (s.signal d (.laneEnd c.1 c.2 e)) else m) m) s.frozen
  let edge := (List.range 4).foldl (fun m side => (List.range (edgeInputs d r side)).foldl (fun m i =>
    m.set (edgeInKey d r side i) (s.edgeSignal d r side i)) m) s.frozenEdge
  { s with latches := latches, frozen := frozen, frozenEdge := edge }

/-! ### Clocks of clusters, RAM ports and gates (R52, R110 to R113) -/

/-- Word 0 of the frame of regional clock k of a region (R112). -/
def Chip.regionalCfg (s : Chip) (d r k : Nat) : W36 := s.frameWord (frameAddr d r (16128 + k)) 0

/-- The source that a regional clock's word names, numbered as in ClockEdge: none where it is off, of the reserved KIND, or of an
INDEX beyond the clocks there are (R112; log 193). -/
def regionalSource (w : W36) : Option Nat :=
  let i := bits w 2 5
  match bits w 0 2 with
  | 1 => if i < 24 then some i else none
  | 2 => if i < 8 then some (24 + i) else none
  | _ => none

/-- Whether a source delivers edges on a die: a global clock that is ACTIVE, a synthesiser that is locked or failed over (R110). -/
def Chip.sourceRuns (s : Chip) (d src : Nat) : Bool :=
  if src < 24 then s.flag d (F.CKM_GCLK_ACTIVE src)
  else s.flag d (F.CKM_SYN_CFG_EN (src - 24)) &&
    (s.flag d (F.CKM_SYN_STATUS_LOCK (src - 24)) || s.flag d (F.CKM_SYN_STATUS_FAILED_OVER (src - 24)))

/-- The source of the clock that CLK_SEL names in a region (R52, R112). -/
def Chip.clockSource (s : Chip) (d r sel : Nat) : Option Nat :=
  if sel < 24 then some sel else regionalSource (s.regionalCfg d r (sel - 24))

/-- Whether CLK_SEL names a clock that delivers edges in a region. -/
def Chip.clockRuns (s : Chip) (d r sel : Nat) : Bool :=
  match s.clockSource d r sel with
  | some src => s.sourceRuns d src
  | none => false

/-- The key of a regional clock's divider. -/
def dividerKey (d r k : Nat) : Nat := (d * 16 + r) * 8 + k

/-- The division of a regional clock (R112). -/
def regionalDiv (w : W36) : Nat := 2 ^ bits w 7 2

/-- A divider as its source has an edge: it rises on every DIV-th rising edge, and falls again after a number of edges that is
free (R113). -/
def Divider.next (v : Divider) (div : Nat) (up : Bool) : Divider :=
  if up && v.rises + 1 ≥ div then { rises := 0, halves := 0, high := true }
  else
    { rises := v.rises + ofBool up, halves := v.halves + 1
      high := v.high && v.halves != Config.dividedFall div % (2 * div - 1) }

/-- The edge that a source has at a moment, while it delivers edges: rising or falling. -/
def Chip.sourceEdge (s : Chip) (d : Nat) (edges : List ClockEdge) (src : Nat) : Option Bool :=
  if s.sourceRuns d src then (edges.find? (fun e => e.src = src)).map (·.rising) else none

/-- The edge that the clock CLK_SEL names in a region has at a moment (R52, R110, R112, R113). -/
def Chip.clockEdge (s : Chip) (d r : Nat) (edges : List ClockEdge) (sel : Nat) : Option Bool :=
  match s.clockSource d r sel with
  | none => none
  | some src =>
    match s.sourceEdge d edges src with
    | none => none
    | some up =>
      let div := if sel < 24 then 1 else regionalDiv (s.regionalCfg d r (sel - 24))
      if div = 1 then some up
      else
        let v := s.dividers.get (dividerKey d r (sel - 24))
        let v' := v.next div up
        if up && v.rises + 1 ≥ div then some true else if v.high && !v'.high then some false else none

/-- Whether that clock, inverted or not, has its active edge: the rising one, or the falling one where it is inverted (R52). -/
def Chip.activeEdge (s : Chip) (d r : Nat) (edges : List ClockEdge) (sel : Nat) (inv : Bool) : Bool :=
  s.clockEdge d r edges sel == some (!inv)

/-- The dividers of a die's regional clocks after the edges of a moment (R113). -/
def Chip.divide (s : Chip) (d : Nat) (edges : List ClockEdge) : Chip :=
  s.upTo 128 (fun s i =>
    let w := s.regionalCfg d (i / 8) (i % 8)
    match regionalSource w with
    | none => s
    | some src => match s.sourceEdge d edges src with
      | none => s
      | some up => { s with dividers := s.dividers.upd (dividerKey d (i / 8) (i % 8)) (fun v => v.next (regionalDiv w) up) })

/-- Whether the clocks reach the logic of a region: its domain is awake, its die runs. -/
def Chip.regionClocked (s : Chip) (d r : Nat) : Bool := s.runs d && !s.asleep d r

/-- Whether the logic of a region is clocked: clocks reach it, and its write enables are released. -/
def Chip.regionRuns (s : Chip) (d r : Nat) : Bool := s.writesOn d r && s.regionClocked d r

/-! ### The clock edge (R40 to R43, R54, R56) -/

/-- What a cell's flip-flop holds after an active edge of its clock, evaluated in the state before the edge. The reserved SR_SEL
code 0b11 acts as no reset (log 194). -/
def Chip.nextQ (s : Chip) (d cx cy n : Nat) : Bool :=
  let w := s.cellWord d cx cy n
  let c := s.clusterWord d cx cy 2 0
  let sr := bits w 21 2
  let reset := if sr = 1 then s.ctrlLine d cx cy (bits c 20 7) else if sr = 2 then s.ctrlLine d cx cy (bits c 27 7) else false
  let ce := match bits w 24 2 with
    | 0 => true
    | 1 => s.ctrlLine d cx cy (bits c 6 7)
    | 2 => s.ctrlLine d cx cy (bits c 13 7)
    | _ => false
  if reset then bit w 20
  else if ce then
    (if bit w 19 then s.xbar d cx cy (selByte (s.clusterWord d cx cy 1 n) 3) else s.signal d (.comb cx cy n))
  else s.ff.get (cellKey d cx cy n)

/-- The check bits of a LUT RAM: bit j is the parity of bits j, j + 4, j + 8, j + 12 (R57). -/
def lutCheck (v : BitVec 16) : BitVec 4 :=
  BitVec.ofNat 4 (v.toNat % 16) ^^^ BitVec.ofNat 4 (v.toNat / 16 % 16) ^^^ BitVec.ofNat 4 (v.toNat / 256 % 16) ^^^
    BitVec.ofNat 4 (v.toNat / 4096)

/-- MIE_FLIP_SEL as an armed flip: its KIND, while ARM = 1 (R499). -/
def Chip.flipArmed (s : Chip) (d kind index : Nat) : Bool :=
  s.flag d F.MIE_FLIP_SEL_ARM && s.fld d F.MIE_FLIP_SEL_KIND == kind && s.fld d F.MIE_FLIP_SEL_INDEX == index

/-- An armed flip has been applied (R499). -/
def Chip.flipDone (s : Chip) (d : Nat) : Chip :=
  (s.setFlag d F.MIE_FLIP_SEL_ARM false).setFlag d F.MIE_FLIP_SEL_DONE true

/-- One bit written into a cell's LUT RAM, with its check bits and an armed flip of KIND 10 (R54, R57, R499). -/
def Chip.writeLutRam (s : Chip) (d cx cy n a : Nat) (v : Bool) : Chip :=
  let key := cellKey d cx cy n
  let old : BitVec 16 := (let l := s.lutRam.get key
    if l.written then l.data else BitVec.ofNat 16 (bits (s.cellWord d cx cy n) 0 16))
  let new := putBits old a 1 (ofBool v)
  let flip := s.flipArmed d 10 (clusterIndex cx cy) && s.fld d F.MIE_FLIP_SEL_REGION == clusterRegion cx cy &&
    s.fld d F.MIE_FLIP_SEL_CELL == n
  if flip then
    let stored := if s.fld d F.MIE_FLIPMASK_MASK % 2 = 1 then putBits new a 1 (ofBool !v) else new
    let chk := lutCheck new ^^^ BitVec.ofNat 4 (s.fld d F.MIE_FLIP_CHK_CHK)
    ({ s with lutRam := s.lutRam.set key { written := true, data := stored, chk := chk } }).flipDone d
  else { s with lutRam := s.lutRam.set key { written := true, data := new, chk := lutCheck new } }

/-- The clusters of a die with a configured cell: every other cell holds 0 and loads 0. -/
def Chip.usedClusters (s : Chip) (d : Nat) : List (Nat × Nat) :=
  (s.frames.foldl (fun (acc : List Nat × List (Nat × Nat)) e =>
    let fa := e.1 / 64
    let f := fa % 2 ^ 14
    let r := fa / 2 ^ 18 % 32
    if fa / 2 ^ 23 = d && r < 16 && f < 13824 && f % 6 = 0 && acc.1.head? != some fa then
      (fa :: acc.1, (48 * (r % 4) + f / 6 % 48, 48 * (r / 4) + f / 6 / 48) :: acc.2)
    else acc) ([], [])).2.reverse

/-- A cluster at a moment with clock edges: at its active edge, enabled flip-flops load and LUT RAM pairs with WE = 1 are written;
every value is taken from `pre` (R40 to R43, R54, R56). -/
def Chip.clusterEdge (pre : Chip) (d : Nat) (edges : List ClockEdge) (s : Chip) (c : Nat × Nat) : Chip :=
  let (cx, cy) := c
  let ctrl := pre.clusterWord d cx cy 2 0
  if pre.regionRuns d (clusterRegion cx cy) && pre.activeEdge d (clusterRegion cx cy) edges (bits ctrl 0 5) (bit ctrl 5) then
    let s := { s with ff := (List.range 64).foldl (fun (m : SMap Bool) n => m.set (cellKey d cx cy n) (pre.nextQ d cx cy n)) s.ff }
    let we := pre.ctrlLine d cx cy (bits (pre.clusterWord d cx cy 2 1) 0 7)
    if we && cx % 4 = 3 then
      s.upTo 32 (fun s k =>
        if cellFunc (pre.cellWord d cx cy (2 * k)) = 3 && cellFunc (pre.cellWord d cx cy (2 * k + 1)) = 3 then
          let inp (n j : Nat) : Bool := pre.xbar d cx cy (selByte (pre.clusterWord d cx cy 1 n) j)
          let a := 8 * ofBool (inp (2 * k) 3) + 4 * ofBool (inp (2 * k) 2) + 2 * ofBool (inp (2 * k) 1) + ofBool (inp (2 * k) 0)
          (s.writeLutRam d cx cy (2 * k) a (inp (2 * k + 1) 0)).writeLutRam d cx cy (2 * k + 1) a (inp (2 * k + 1) 1)
        else s)
    else s
  else s

/-- The cells listed in the frames of a die whose reset is asynchronous (R42), as (cx, cy, cell). -/
def Chip.asyncCells (s : Chip) (d : Nat) : List (Nat × Nat × Nat) :=
  s.frames.filterMap (fun e =>
    let fa := e.1 / 64
    let f := fa % 2 ^ 14
    let r := fa / 2 ^ 18 % 32
    let c := f / 6
    if fa / 2 ^ 23 = d && r < 16 && f < 13824 && f % 6 = 0 && !bit e.2 23 && (bits e.2 21 2 = 1 || bits e.2 21 2 = 2) then
      some (48 * (r % 4) + c % 48, 48 * (r / 4) + c / 48, e.1 % 64)
    else none)

/-- Asynchronous resets take hold: every flip-flop whose reset line is active goes to INIT_Q, until nothing changes (R42). -/
def Chip.settle (s : Chip) (d : Nat) : Chip :=
  let cells := s.asyncCells d
  (List.range (cells.length + 1)).foldl (fun s _ =>
    { s with ff := cells.foldl (fun m (x, y, n) =>
      let w := s.cellWord d x y n
      let c := s.clusterWord d x y 2 0
      let active := s.ctrlLine d x y (if bits w 21 2 = 1 then bits c 20 7 else bits c 27 7)
      if active && s.writesOn d (clusterRegion x y) then m.set (cellKey d x y n) (bit w 20) else m) s.ff }) s

/-- Asynchronous resets take hold on every die; loops through combinational logic take a fresh value (R42). -/
def Chip.settleAll (s : Chip) : Chip := { s.upTo 4 (fun s d => s.settle d) with free := s.free + 1 }

/-- A command that changes what the fabric sees: asynchronous resets act at once (R42). -/
def State.onFabric (s : State) (f : Chip → Chip) : Out := s.onChip (fun c => (f c).settleAll)

/-- Such a command of a die whose engines run. -/
def State.onDieFabric (s : State) (d : Nat) (f : Chip → Chip) : Out := s.onFabric (fun c => c.when (c.runs d) f)

/-- Every flip-flop of a region takes INIT_Q (R43, R150). -/
def Chip.initRegionQ (s : Chip) (d r : Nat) : Chip :=
  let cleared := (regionClusters r).foldl (fun m c => SMap.dropRange m (cellKey d c.1 c.2 0) (cellKey d c.1 c.2 64)) s.ff
  let lo := frameAddr d r 0 * 64
  let set := (s.frames.filter (fun e => lo ≤ e.1 && e.1 < lo + 13824 * 64 && e.1 / 64 % 2 ^ 14 % 6 = 0 && bit e.2 20)).foldl
    (fun m e =>
      let c := e.1 / 64 % 2 ^ 14 / 6
      m.set (cellKey d (48 * (r % 4) + c % 48) (48 * (r / 4) + c / 48) (e.1 % 64)) true) cleared
  { s with ff := set }

/-- The LUT RAMs of a region hold their INIT contents again (R54). -/
def Chip.initLutRam (s : Chip) (d r : Nat) : Chip :=
  let kept := (regionClusters r).foldl
    (fun m c => SMap.dropRange m (cellKey d c.1 c.2 0) (cellKey d c.1 c.2 64)) s.lutRam
  { s with lutRam := kept }

/-- LUTRAM_CHECK: the checker tests a cell's LUT RAM; a failed check is logged and recorded, the data stays (R58). -/
def Chip.lutRamCheck (s : Chip) (d cx cy cell : Nat) : Chip :=
  let l := s.lutRam.get (cellKey d cx cy cell)
  if l.written && lutCheck l.data != l.chk then
    let s := s.setFlag d F.CFG_LUTRAM_STATUS_CHECK_SEEN true
    let s := s.setFld d F.CFG_LUTRAM_STATUS_REGION (clusterRegion cx cy)
    let s := s.setFld d F.CFG_LUTRAM_STATUS_CLUSTER (clusterIndex cx cy)
    let s := s.setFld d F.CFG_LUTRAM_STATUS_CELL cell
    let s := s.satFld d F.CFG_LUTRAM_STATUS_COUNT 1
    s.logEv d Ev.lutramCheck (bits (s.reg d Reg.CFG_LUTRAM_STATUS) 1 22)
  else s

/-- LUTRAM_CHECK (R58). -/
def execLutramCheck (d : Die) (cx cy : Fin 192) (cell : Fin 64) (s : State) : Out :=
  s.onChip (fun c => c.lutRamCheck d.val cx.val cy.val cell.val)

end Sys2Proof.Machine
end

