-- ==== Sys2Proof/Machine/Ram.lean ====
section
/-! DEFINITION. Reservoir RAM: port accesses, check bits, collisions, clearing and remap tables (R59 to R80, R86 to R88). -/

namespace Sys2Proof.Machine

/-- The key of a reservoir RAM macro, and of one of its words. -/
def ramKey (d ram : Nat) : Nat := d * 2048 + ram
def ramWordKey (d ram addr : Nat) : Nat := ramKey d ram * 1024 + addr

/-- A stored RAM word. -/
def Chip.ramWord (s : Chip) (d ram addr : Nat) : RamWord := s.ramWords.get (ramWordKey d ram addr)

/-- A macro's record. -/
def Chip.ram (s : Chip) (d ram : Nat) : RamMacro := s.ramMacros.get (ramKey d ram)

/-- A macro's record changed. -/
def Chip.onRam (s : Chip) (d ram : Nat) (f : RamMacro → RamMacro) : Chip :=
  { s with ramMacros := s.ramMacros.upd (ramKey d ram) f }

/-- Word 0 of a RAM's configuration frame (R85). -/
def Chip.ramCfg (s : Chip) (d ram : Nat) : W36 := s.frameWord (frameAddr d (ram / 128) (15872 + ram % 128)) 0

/-- Whether a tile's pair of RAMs is cascaded (R70). -/
def Chip.cascaded (s : Chip) (d ram : Nat) : Bool := bit (s.ramCfg d (ram - ram % 2)) 22

/-- The failing check bits of a stored word; none fails while it is invalid (R65, R66). -/
def RamWord.syndrome (w : RamWord) : BitVec 4 := if w.valid then checkBits w.data ^^^ w.chk else 0

/-- What a stored word reads as (R65, R66). -/
def RamWord.value (w : RamWord) : W36 := if w.valid then w.data else 0

/-- The mask of the nonets of a word whose write enables are set. -/
def nonetMask (we : Nat) : W36 :=
  word ((List.range 4).foldl (fun m n => if we.testBit n then m + 511 * 2 ^ (9 * n) else m) 0)

/-- A word with some nonets replaced, as R67 merges it: poisoned check bits where the stored word failed and some nonet
is kept. -/
def RamWord.merge (w : RamWord) (we : Nat) (din : W36) : RamWord :=
  let m := nonetMask we
  let data := (w.value &&& ~~~m) ||| (din &&& m)
  let bad := we % 16 != 15 && w.syndrome != 0
  { data := data, chk := if bad then checkBits data ^^^ 15#4 else checkBits data, valid := true }

/-- A word stored at an address, changed by an armed flip of KIND 1 (R499). -/
def Chip.storeRam (s : Chip) (d ram addr : Nat) (w : RamWord) : Chip :=
  let put (s : Chip) (w : RamWord) : Chip := { s with ramWords := s.ramWords.set (ramWordKey d ram addr) w }
  if s.flipArmed d 1 ram then
    (put s { w with data := w.data ^^^ word (s.fld d F.MIE_FLIPMASK_MASK),
                    chk := w.chk ^^^ BitVec.ofNat 4 (s.fld d F.MIE_FLIP_CHK_CHK) }).flipDone d
  else put s w

/-- A spare word marked poisoned: it fails with syndrome 0b1111 until all four nonets are written (R79). -/
def poisonedSpare : RamWord := { data := 0, chk := 15#4, valid := true }

/-- A failed check recorded in CFG_RAM_STATUS (R65). -/
def Chip.noteRamCheck (s : Chip) (d ram addr : Nat) : Chip :=
  let s := s.setFlag d F.CFG_RAM_STATUS_CHECK_SEEN true
  let s := s.setFld d F.CFG_RAM_STATUS_LAST_RAM ram
  let s := s.setFld d F.CFG_RAM_STATUS_LAST_ADDR addr
  s.satFld d F.CFG_RAM_STATUS_CHECK_COUNT 1

/-- The DETAIL of a RAM event (R590). -/
def ramDetail (ram addr : Nat) : Nat := ram + addr * 2 ^ 11

/-- The last failing address tracked; an address that fails a second time is remapped to a poisoned spare word while the
table has room (R79). -/
def Chip.trackRamFail (s : Chip) (d ram addr : Nat) : Chip :=
  let m := s.ram d ram
  if m.lastFail = some addr then
    if m.remap.length < 8 then
      let s := s.onRam d ram (fun m => { m with remap := m.remap ++ [{ addr := addr, field := true }], lastFail := none })
      { s with ramWords := s.ramWords.set (ramWordKey d ram addr) poisonedSpare }
    else s.logEv d Ev.ramRemapFull (ramDetail ram addr)
  else s.onRam d ram (fun m => { m with lastFail := some addr })

/-- A read found a failing word: the event, the status and the remap rule (R65, R79). -/
def Chip.ramReadFail (s : Chip) (d ram addr : Nat) (syn : BitVec 4) : Chip :=
  if syn = 15#4 then (s.logEv d Ev.ramPoisonRead (ramDetail ram addr)).noteRamCheck d ram addr
  else ((s.logEv d Ev.ramCheck (ramDetail ram addr)).noteRamCheck d ram addr).trackRamFail d ram addr

/-- One port's access at an edge, worked out from its configuration (R60, R70): macro, word address, lowest bit and width
of the part of the word, nonets written, data placed in the word. -/
structure RamAccess where
  ram : Nat
  addr : Nat
  lo : Nat
  width : Nat
  we : Nat
  data : W36
deriving DecidableEq, Repr

/-- The access that port inputs name (R60, R70); a port of RAM1 in a cascaded pair has none. -/
def Chip.ramAccess (s : Chip) (d ram : Nat) (isB : Bool) (we : BitVec 4) (addr : BitVec 13) (din : W36) : Option RamAccess :=
  let cas := s.cascaded d ram
  if cas && ram % 2 = 1 then none
  else
    let cfg := s.ramCfg d ram
    let width := bits cfg (if isB then 2 else 0) 2
    let depthBits := if width = 1 then 11 else if width = 2 then 12 else 10
    let a := addr.toNat % 2 ^ depthBits
    let target := if cas && addr.toNat.testBit depthBits then ram + 1 else ram
    match width with
    | 1 => some { ram := target, addr := a / 2, lo := 18 * (a % 2), width := 18, we := we.toNat % 4 <<< (2 * (a % 2)),
                  data := word (din.toNat % 2 ^ 18 <<< (18 * (a % 2))) }
    | 2 => some { ram := target, addr := a / 4, lo := 9 * (a % 4), width := 9, we := we.toNat % 2 <<< (a % 4),
                  data := word (din.toNat % 2 ^ 9 <<< (9 * (a % 4))) }
    | _ => some { ram := target, addr := a, lo := 0, width := 36, we := we.toNat, data := din }

/-- The value of input slot n of a RAM from its selector in the host cluster (R101). -/
def Chip.ramInput (s : Chip) (d ram slot : Nat) : Bool :=
  let r := ram / 128
  let i := ram % 128
  let t := i / 2
  let o := 2 + i % 2
  let cx := 48 * (r % 4) + 6 * (t % 8) + o
  let cy := 48 * (r / 4) + 6 * (t / 8) + o
  s.xbar d cx cy (selByte (s.frameWord (frameAddr d r (15872 + i)) (8 + slot / 4)) slot)

/-- A number read from consecutive input slots, slot `first` least significant. -/
def Chip.ramInputs (s : Chip) (d ram first n : Nat) : Nat :=
  (List.range n).foldl (fun v i => v + ofBool (s.ramInput d ram (first + i)) * 2 ^ i) 0

/-- The FAB port of a die whose port RAM this is (R324). -/
def fabPortOf (ram : Nat) : Option Nat :=
  let r := ram / 128
  let t := ram % 128 / 2
  let port (i j : Nat) : Nat := 2 * (8 * (2 * (r / 4) + j) + 2 * (r % 4) + i) + ram % 2
  if t = 18 then some (port 0 0) else if t = 22 then some (port 1 0)
  else if t = 50 then some (port 0 1) else if t = 54 then some (port 1 1) else none

/-- Whether port B of a RAM belongs to the engine of a FAB port (R324). -/
def Chip.engineOwns (s : Chip) (d ram : Nat) : Bool :=
  match fabPortOf ram with
  | some q => s.flag d (F.BLW_FABPORT_EN q)
  | none => false

/-- What a RAM port does at a moment: whether its clock has its active edge, whether it clears the RAM (port A), and its access
where EN = 1. -/
structure PortNow where
  edge : Bool := false
  clr : Bool := false
  acc : Option RamAccess := none
deriving DecidableEq, Repr

/-- Whether a RAM port is clocked: its region runs, its clock delivers edges, and it is neither a port of RAM1 in a cascaded pair
nor a port B that an engine owns (R70, R85, R110, R324). -/
def Chip.portClocked (s : Chip) (d ram : Nat) (isB : Bool) : Bool :=
  s.regionRuns d (ram / 128) && s.clockRuns d (ram / 128) (bits (s.ramCfg d ram) (if isB then 16 else 10) 5) &&
    !(s.cascaded d ram && ram % 2 = 1) && !(isB && s.engineOwns d ram)

/-- A port as its selectors drive it at an active edge; CLR has its slot on port A alone (R61, R73, R74, R101). -/
def Chip.fabricDrive (s : Chip) (d ram : Nat) (isB : Bool) : PortNow :=
  let b := if isB then 64 else 0
  let en := s.ramInput d ram b
  let clr := !isB && s.ramInput d ram 54
  { edge := true, clr := en && clr
    acc := if en && !clr then
        s.ramAccess d ram isB (BitVec.ofNat 4 (s.ramInputs d ram (b + 1) 4)) (BitVec.ofNat 13 (s.ramInputs d ram (b + 5) 13))
          (word (s.ramInputs d ram (b + 18) 36))
      else none }

/-- A port as it is driven at a moment (R59, R61). -/
def Chip.portNow (s : Chip) (d ram : Nat) (isB : Bool) (x : PortDrive) : PortNow :=
  if !s.portClocked d ram isB then {}
  else match x with
    | .still => {}
    | .idle => { edge := true }
    | .given we addr din => { edge := true, acc := s.ramAccess d ram isB we addr din }
    | .fabric => s.fabricDrive d ram isB

/-- The outputs of a port after an active edge of its clock, with what the edge reads, if it does: DOUT and ERR at once, or one
port clock later through the output register, which takes at every edge what the port read before it (R62). COLL stands for that
cycle (R68). -/
def RamOut.clocked (o : RamOut) (oreg : Bool) (read : Option (W36 × Bool)) (coll : Bool) : RamOut :=
  if oreg then
    { dout := o.nextDout, err := o.nextErr, coll := coll
      nextDout := (read.map (·.1)).getD o.nextDout, nextErr := (read.map (·.2)).getD o.nextErr }
  else
    let v := (read.map (·.1)).getD o.dout
    let e := (read.map (·.2)).getD o.err
    { dout := v, err := e, coll := coll, nextDout := v, nextErr := e }

/-- What an access reads, given the word before and after its own write and the value read before it: WRITE_FIRST shows the word
with the port's own nonets, NO_CHANGE the earlier value; ERR is the check of the word shown, in NO_CHANGE of the word read (R63,
R65; logs 195, 196). -/
def ramShown (wmode : Nat) (a : RamAccess) (prev : W36) (before after : RamWord) : W36 × Bool :=
  let part (w : RamWord) : W36 := word (bits w.value a.lo a.width)
  if a.we = 0 then (part before, before.syndrome != 0)
  else if wmode = 1 then (part after, after.syndrome != 0)
  else if wmode = 2 then (prev, before.syndrome != 0)
  else (part before, before.syndrome != 0)

/-- One port's write of its enabled nonets, with the merge rule's RAM_CHECK where the access has not logged it (R67). -/
def Chip.ramWrite (s : Chip) (d : Nat) (a : RamAccess) (logged : Bool) : Chip :=
  if a.we = 0 then s
  else
    let w := s.ramWord d a.ram a.addr
    let s := if a.we % 16 != 15 && w.syndrome != 0 && !logged then s.logEv d Ev.ramCheck (ramDetail a.ram a.addr) else s
    s.storeRam d a.ram a.addr (w.merge a.we a.data)

/-- The nonets that both ports write at one edge (R68). -/
def ramClash (a b : Option RamAccess) : Nat :=
  match a, b with
  | some x, some y => if x.ram = y.ram && x.addr = y.addr then x.we &&& y.we else 0
  | _, _ => 0

/-- Every word of a macro invalid (R73). -/
def Chip.clearRam (s : Chip) (d ram : Nat) : Chip :=
  { s with ramWords := SMap.dropRange s.ramWords (ramWordKey d ram 0) (ramWordKey d (ram + 1) 0) }

/-- A clear at an edge of port A: every word of the RAM, or of both macros of a cascaded pair, becomes invalid and the sweep
starts over (R71, R73, R75). -/
def Chip.clearPort (s : Chip) (d ram : Nat) : Chip :=
  let one (s : Chip) (ram : Nat) : Chip := (s.clearRam d ram).onRam d ram (fun m => { m with sweeping := true })
  let s1 := one s ram
  if s.cascaded d ram then one s1 (ram + 1) else s1

/-- Ports A and B of a RAM at one moment (R61 to R68). A clear comes first (R74). Every access reads the word as it stood, which may
fail its check (R61, R65); then B and A write, so that A's data stands in the nonets both write, where B shows COLL. -/
def Chip.ramEdge (s : Chip) (d ram : Nat) (a b : PortNow) : Chip :=
  let s := s.when a.clr (fun s => s.clearPort d ram)
  let cfg := s.ramCfg d ram
  let before (x : RamAccess) : RamWord := s.ramWord d x.ram x.addr
  let syn (x : RamAccess) : BitVec 4 := (before x).syndrome
  let clash := ramClash a.acc b.acc
  let fail (s : Chip) (x : Option RamAccess) : Chip := match x with
    | some x => if syn x != 0 then s.ramReadFail d x.ram x.addr (syn x) else s
    | none => s
  let wr (s : Chip) (x : Option RamAccess) : Chip := match x with
    | some x => s.ramWrite d x (syn x != 0 && syn x != 15#4)
    | none => s
  let out (o : RamOut) (x : PortNow) (isB : Bool) : RamOut :=
    if !x.edge then o
    else
      let oreg := bit cfg (if isB then 9 else 8)
      o.clocked oreg (x.acc.map (fun x => ramShown (bits cfg (if isB then 6 else 4) 2) x (if oreg then o.nextDout else o.dout) (before x)
        (if x.we = 0 then before x else (before x).merge x.we x.data))) (isB && clash != 0)
  let s' := wr (wr (fail (fail s a.acc) b.acc) b.acc) a.acc
  s'.onRam d ram (fun m => { m with portA := out m.portA a false, portB := out m.portB b true })

/-- RAM_PORT_ACCESS: ports of a RAM at one moment (R61). -/
def execRamPortAccess (d : Die) (ram : Fin 2048) (a b : PortDrive) (s : State) : Out :=
  s.onFabric (fun c => c.ramEdge d ram (c.portNow d ram false a) (c.portNow d ram true b))

/-- Every word of the reservoir RAMs of a region invalid (R76). -/
def Chip.clearRegionRams (s : Chip) (d r : Nat) : Chip :=
  { s with ramWords := SMap.dropRange s.ramWords (ramWordKey d (128 * r) 0) (ramWordKey d (128 * r + 128) 0) }

/-- CLR: an active edge of port A with CLR = 1 and EN = 1 (R71, R73, R74). -/
def execClrRam (d : Die) (ram : Fin 2048) (b : PortDrive) (s : State) : Out :=
  s.onFabric (fun c => c.ramEdge d ram (if c.portClocked d ram false then { edge := true, clr := true } else {})
    (c.portNow d ram true b))

/-- RAM_CLEAR_SWEEP_DONE: the background clear completes (R75). -/
def execRamClearSweepDone (d : Die) (ram : Fin 2048) (s : State) : Out :=
  s.onChip (fun c => c.onRam d ram (fun m => { m with sweeping := false }))

/-- A write of CFG_RAM_CLEAR: the valid bits are cleared at once, and BUSY stands until the 32 cycles are over (R87, R88; log 197). -/
def Chip.ramClearWrite (s : Chip) (d : Nat) (v : W36) : Chip :=
  let ram := bits v 0 11
  if s.flag d F.CFG_RAM_STATUS_BUSY then s.setFlag d F.CFG_RAM_STATUS_REFUSED true
  else if !bit v 12 then s
  else if s.regionState d (ram / 128) != Rgn.isolated then s.setFlag d F.CFG_RAM_STATUS_REFUSED true
  else (if bit v 11 then s.clearRegionRams d (ram / 128) else s.clearRam d ram).setFlag d F.CFG_RAM_STATUS_BUSY true

/-- CFG_RAM_CLEAR (R87). -/
def execCfgRamClear (d : Die) (v : W36) (s : State) : Out := s.onChip (fun c => c.ramClearWrite d v)

/-- RAM_CLEAR_DONE: a register-started clear completes and BUSY falls (R87). -/
def execRamClearDone (d : Die) (s : State) : Out := s.onChip (fun c => c.setFlag d F.CFG_RAM_STATUS_BUSY false)

/-- CFG_REMAP_DATA as CFG_REMAP_SEL selects it (chapter 2). -/
def Chip.remapData (s : Chip) (d : Nat) : W36 :=
  let m := s.ram d (s.fld d F.CFG_REMAP_SEL_RAM)
  let count := m.remap.length * 2 ^ 12
  match m.remap[s.fld d F.CFG_REMAP_SEL_ENTRY]? with
  | some e => word (1 + ofBool e.field * 2 + e.addr * 4 + count)
  | none => word count

/-! ### Handshake gates (R118 to R127) -/

/-- A gate event recorded in CKM_GATE_STATUS with its half's host and gate (R121, R124). -/
def Chip.noteGate (s : Chip) (d r side g : Nat) : Chip :=
  let s := s.setFld d F.CKM_GATE_STATUS_REGION r
  let s := s.setFld d F.CKM_GATE_STATUS_SIDE side
  s.setFld d F.CKM_GATE_STATUS_GATE g

/-- The DETAIL of a gate event: CKM_GATE_STATUS [12:2] (R590). -/
def Chip.gateDetail (s : Chip) (d : Nat) : Nat := bits (s.reg d Reg.CKM_GATE_STATUS) 2 11

/-- A gate changed. -/
def Chip.onGate (s : Chip) (d r side g : Nat) (f : Gate → Gate) : Chip :=
  { s with gates := s.gates.upd (gateKey d r side g) f }

/-- When the oldest entry shown fails its check, it is recorded and logged once (R124). The read half's host is the region
across the side. -/
def Chip.checkGateHead (s : Chip) (d r side g : Nat) : Chip :=
  match s.gateShown d r side g, acrossSide r side with
  | some e, some n =>
    if checkBits e.data != e.chk && !e.logged then
      let s := s.setFlag d F.CKM_GATE_STATUS_CHECK_SEEN true
      let s := (s.noteGate d n (opposite side) g).satFld d F.CKM_GATE_STATUS_COUNT 1
      let s := s.logEv d Ev.gateCheck (s.gateDetail d)
      s.onGate d r side g (fun q => { q with entries := match q.entries with
        | e :: es => { e with logged := true } :: es
        | [] => [] })
    else s
  | _, _ => s

/-- The entry a write stores, changed by an armed flip of KIND 11 (R499). -/
def Chip.gateStore (s : Chip) (d r side g : Nat) (w : W36) : Chip :=
  let put (s : Chip) (w : W36) (c : BitVec 4) : Chip :=
    s.onGate d r side g (fun q => { q with entries := q.entries ++ [{ data := w, chk := c }] })
  if s.flipArmed d 11 (32 * side + g) && s.fld d F.MIE_FLIP_SEL_REGION == r then
    (put s (w ^^^ word (s.fld d F.MIE_FLIPMASK_MASK)) (checkBits w ^^^ BitVec.ofNat 4 (s.fld d F.MIE_FLIP_CHK_CHK))).flipDone d
  else put s w (checkBits w)

/-- Slot i of a gate's input selectors in its host cluster (R125). -/
def Chip.gateInput (s : Chip) (d r side g i : Nat) : Bool :=
  let c := sideCluster r side (3 * (g / 2) + g % 2)
  s.xbar d c.1 c.2 (selByte (s.frameWord (frameAddr d r (16000 + 32 * side + g)) (1 + i / 4)) i)

/-- Whether a gate half's clock delivers edges in its region (R125). -/
def Chip.gateClock (s : Chip) (d r side g : Nat) (readHalf : Bool) : Bool :=
  s.regionClocked d r && s.clockRuns d r (bits (s.gateCfg d r side g) (if readHalf then 8 else 1) 5)

/-- WDATA of a write half as its selectors give it; none where WR = 0 (R120, R125). -/
def Chip.gateDrive (s : Chip) (d r side g : Nat) : Option W36 :=
  if s.gateInput d r side g 0 then
    some (word ((List.range 36).foldl (fun v i => v + ofBool (s.gateInput d r side g (1 + i)) * 2 ^ i) 0))
  else none

/-- A write-clock edge at an enabled write half of a region whose logic runs, with the word that WR = 1 writes (R121). -/
def Chip.gateWrite (s : Chip) (d r side g : Nat) (w : Option W36) : Chip :=
  match w with
  | none => s
  | some w =>
    if s.gateOut d r side g && s.gateClock d r side g false && s.writesOn d r then
      if s.gateFull d r side g then
        let s := (s.setFlag d F.CKM_GATE_STATUS_OVERRUN_SEEN true).noteGate d r side g
        s.logEv d Ev.gateOverrun (s.gateDetail d)
      else s.gateStore d r side g w
    else s

/-- GATE_WRITE: a write-clock edge with the word given, or with WR and WDATA as the fabric drives them (R121). -/
def execGateWrite (d : Die) (r : Fin 16) (side : Side) (g : Fin 32) (wdata : Option W36) (s : State) : Out :=
  s.onFabric (fun c => c.gateWrite d r side g (match wdata with
    | some w => some w
    | none => c.gateDrive d r side g))

/-- RD of the read half of outgoing gate g of (r, side), as its selector across the side gives it (R120, R125). -/
def Chip.gateReadDrive (s : Chip) (d r side g : Nat) : Bool :=
  match acrossSide r side with
  | some n => s.gateInput d n (opposite side) g 37
  | none => false

/-- A read-clock edge with RD = 1 at the read half of outgoing gate g of (r, side), hosted across the side (R121); with EMPTY = 1
it has no effect. -/
def Chip.gateRead (s : Chip) (d r side g : Nat) : Chip :=
  match acrossSide r side with
  | none => s
  | some n =>
    if (s.gateShown d r side g).isSome && s.gateClock d n (opposite side) g true && s.writesOn d n then
      let s := s.checkGateHead d r side g
      (s.onGate d r side g (fun q => { entries := q.entries.drop 1, freeing := q.freeing + 1 })).checkGateHead d r side g
    else s

/-- GATE_READ: a read-clock edge with RD = 1 given, or as the fabric drives it (R121). -/
def execGateRead (d : Die) (r : Fin 16) (side : Side) (g : GateEdge) (s : State) : Out :=
  s.onFabric (fun c => c.when (g.given || c.gateReadDrive d r side g.gate) (fun c => c.gateRead d r side g.gate))

/-- The oldest entry not yet visible becomes visible. -/
def showNext : List GateEntry → List GateEntry
  | [] => []
  | e :: es => if e.visible then e :: showNext es else { e with visible := true } :: es

/-- GATE_ENTRY_VISIBLE: after two edges of the read clock, which must run, a written entry crosses to the read side (R122, R124). -/
def execGateEntryVisible (d : Die) (r : Fin 16) (side : Side) (g : Fin 32) (s : State) : Out :=
  s.onFabric (fun c => match acrossSide r side with
    | some n => c.when (c.gateClock d n (opposite side) g true) (fun c =>
      (c.onGate d r side g (fun q => { q with entries := showNext q.entries })).checkGateHead d r side g)
    | none => c)

/-- GATE_SLOT_FREED: after two edges of the write clock, which must run, a removed entry's slot becomes free to the write half
(R122). -/
def execGateSlotFreed (d : Die) (r : Fin 16) (side : Side) (g : Fin 32) (s : State) : Out :=
  s.onFabric (fun c => c.when (c.gateClock d r side g false) (fun c =>
    c.onGate d r side g (fun q => { q with freeing := q.freeing - 1 })))

/-- The gates of a die with a half in a region, by the region, side and number of their write half. -/
def Chip.gatesOf (s : Chip) (d r : Nat) : List (Nat × Nat × Nat) :=
  (SMap.keysIn s.gates (gateKey d 0 0 0) (gateKey (d + 1) 0 0 0)).filterMap (fun k =>
    let q := k / 128 % 16
    let side := k / 32 % 4
    if q = r || acrossSide q side = some r then some (q, side, k % 32) else none)

/-- As a region's collar opens, its gates show their heads again, and one that fails its check is recorded (R124, R135). -/
def Chip.checkGates (s : Chip) (d r : Nat) : Chip := s.each (s.gatesOf d r) (fun s (q, side, g) => s.checkGateHead d q side g)

end Sys2Proof.Machine
end

