-- ==== Sys2Proof/Machine/Bellows.lean ====
section
/-! DEFINITION. Bellows, the task scheduler of a die: matching store, ready lists, dispatch, workers, acceptance, failure,
ordered release, and the FAB port mailboxes (chapter 10). -/

namespace Sys2Proof.Machine

/-! ### Keys and stores -/

/-- The key of a store entry (R311). -/
def blwKey (d tpl flow seq : Nat) : Nat := ((d * 256 + tpl) * 1024 + flow) * 2 ^ 20 + seq % 2 ^ 20

def blwDie (key : Nat) : Nat := key / 2 ^ 38
def blwTpl (key : Nat) : Nat := key / 2 ^ 30 % 256
def blwFlow (key : Nat) : Nat := key / 2 ^ 20 % 1024
def blwSeq (key : Nat) : Nat := key % 2 ^ 20

/-- The key of a window position. -/
def winKey (d flow seq : Nat) : Nat := (d * 1024 + flow) * 2 ^ 20 + seq % 2 ^ 20

/-- An entry set. -/
def Chip.setEntry (s : Chip) (key : Nat) (e : Option BlwEntry) : Chip := { s with blwStore := s.blwStore.set key e }

/-- A window position set. -/
def Chip.setMark (s : Chip) (d flow seq : Nat) (m : Option BlwMark) : Chip :=
  { s with blwWindow := s.blwWindow.set (winKey d flow seq) m }

/-- A window position. -/
def Chip.mark (s : Chip) (d flow seq : Nat) : Option BlwMark := s.blwWindow.get (winKey d flow seq)

/-- A worker's record. -/
def Chip.worker (s : Chip) (d w : Nat) : BlwWorker := s.blwWorkers.get (d * 192 + w)

/-- A worker's record changed. -/
def Chip.onWorker (s : Chip) (d w : Nat) (f : BlwWorker → BlwWorker) : Chip :=
  { s with blwWorkers := s.blwWorkers.upd (d * 192 + w) f }

/-- A BLW_STAT counter advanced. -/
def Chip.blwStat (s : Chip) (d n : Nat) : Chip := s.addFld d (F.BLW_STAT_COUNT n) 1

/-- Store entries in use: entries and releases waiting in windows (R340, R352). -/
def Chip.storeUsed (s : Chip) (d : Nat) : Nat :=
  (SMap.keysIn s.blwStore (d * 2 ^ 38) ((d + 1) * 2 ^ 38)).length +
    (s.blwWindow.filter (fun e => e.1 / 2 ^ 30 = d && (match e.2 with
      | some m => m.release.isSome
      | none => false))).length

/-- BLW_STATUS.STORE_HIGH kept up. -/
def Chip.storeHigh (s : Chip) (d : Nat) : Chip :=
  let u := s.storeUsed d
  if s.fld d F.BLW_STATUS_STORE_HIGH < u then s.setFld d F.BLW_STATUS_STORE_HIGH u else s

/-- Words written into the store, changed by an armed flip of KIND 6, whose target is the die's one store (R499). -/
def Chip.blwWrite (s : Chip) (d : Nat) (x : BlwSlot) : Chip × BlwSlot :=
  if s.flipArmed d 6 (s.fld d F.MIE_FLIP_SEL_INDEX) then
    let w := x.w0 ^^^ word (s.fld d F.MIE_FLIPMASK_MASK)
    let chk := checkBits x.w0 ^^^ BitVec.ofNat 4 (s.fld d F.MIE_FLIP_CHK_CHK)
    (s.flipDone d, { x with w0 := w, bad := checkBits w != chk, marked := checkBits w ^^^ chk == 15#4 })
  else (s, { x with bad := false, marked := false })

/-- A failing word of the store as its macro's remap table tracks it; whether it now stands in a poisoned spare (R79, R497). -/
def Chip.blwMemFail (s : Chip) (d key n : Nat) (x : BlwSlot) : Chip × Bool :=
  if x.marked then (s, false)
  else
    let place := Config.storePlace key n
    let id := d * 2 ^ 16 + place.1.toNat
    let old := s.blwMems.get id
    let r := old.fails place.2.toNat
    let s := { s with blwMems := s.blwMems.set id r.1 }
    (if r.2 then s.logEv d Ev.ramRemapFull (Config.remapFullDetail (2 ^ 12 + id) place.2.toNat).toNat else s,
      old.remap.length < r.1.remap.length)

/-- Stored words sent on, by the number of what holds them: a failed check is logged and tracked (R79, R496, R497). -/
def Chip.blwCheck (s : Chip) (d key n : Nat) (x : BlwSlot) : Chip :=
  if x.bad then ((s.logEv d Ev.blwStoreCheck (Config.storeEntry key).toNat).blwMemFail d key n x).1 else s

/-- Operand n of a task as it is dispatched; one that the check finds failing again stays, in a poisoned spare (R79). -/
def Chip.blwCheckSlot (s : Chip) (d key n : Nat) (x : BlwSlot) : Chip :=
  if x.bad then
    let r := (s.logEv d Ev.blwStoreCheck (Config.storeEntry key).toNat).blwMemFail d key n x
    if r.2 then { r.1 with blwStore := r.1.blwStore.upd key (fun e => e.map (fun (e : BlwEntry) =>
      { e with slots := e.slots.set n (some { x with marked := true }) })) } else r.1
  else s

/-- The distance of a sequence from a flow's BASE (R338). -/
def Chip.distance (s : Chip) (d flow seq : Nat) : Nat := (seq + 2 ^ 20 - s.fld d (F.BLW_FLOW_BASE flow)) % 2 ^ 20

/-- A gated template. -/
def Chip.gated (s : Chip) (d tpl : Nat) : Bool := s.flag d (F.BLW_TPL_A_GATE tpl)

/-- A window position that has failed. -/
def Chip.itemFailed (s : Chip) (d flow seq : Nat) : Bool :=
  match s.mark d flow seq with
  | some m => m.failed.isSome
  | none => false

/-- When the first token of an item arrived, as its window position and its entries remember it; now for a new item (R351). -/
def Chip.firstOf (s : Chip) (d flow seq : Nat) : Nat :=
  match s.mark d flow seq with
  | some m => m.first
  | none => s.blwStore.foldl (fun n e => match e.2 with
    | some x => if blwDie e.1 = d && blwFlow e.1 = flow && blwSeq e.1 = seq % 2 ^ 20 then min n x.first else n
    | none => n) s.now

/-- An item shows itself in its flow's window: the time of its first token is kept (R351). -/
def Chip.present (s : Chip) (d flow seq : Nat) : Chip :=
  match s.mark d flow seq with
  | some _ => s
  | none => s.setMark d flow seq (some { first := s.firstOf d flow seq })

/-! ### Ready lists (R312, R313) -/

/-- The key of the ready list of a template's class and priority. -/
def Chip.listOf (s : Chip) (d tpl : Nat) : Nat :=
  (d * 16 + s.fld d (F.BLW_TPL_A_CLASS tpl)) * 8 + s.fld d (F.BLW_TPL_A_PRIORITY tpl)

/-- A task joins its ready list, at its head when it is re-dispatched. -/
def Chip.joinReady (s : Chip) (d key : Nat) (head : Bool) : Chip :=
  match s.blwStore.get key with
  | some e =>
    let s := s.setEntry key (some { e with phase := .ready, joined := s.now })
    { s with blwReady := s.blwReady.upd (s.listOf d (blwTpl key)) (fun l => if head then key :: l else l ++ [key]) }
  | none => s

/-- A complete task becomes ready, or window-held while its sequence lies ahead of its flow's window. -/
def Chip.taskReady (s : Chip) (d key : Nat) : Chip :=
  let s := s.countDie d 17 1
  if s.gated d (blwTpl key) && 256 ≤ s.distance d (blwFlow key) (blwSeq key) then
    match s.blwStore.get key with
    | some e =>
      { (s.setEntry key (some { e with phase := .held })) with blwHeld := s.blwHeld.upd d (fun l => l ++ [key]) }
    | none => s
  else s.joinReady d key false

/-- The held tasks that a window has reached join their lists (R312). -/
def Chip.releaseHeld (s : Chip) (d flow : Nat) : Chip :=
  let due := (s.blwHeld.get d).filter (fun k => blwFlow k = flow && s.distance d flow (blwSeq k) < 256)
  let s := { s with blwHeld := s.blwHeld.upd d (fun l => l.filter (fun k => !due.contains k)) }
  s.each due (fun s k => s.joinReady d k false)

/-! ### Workers (R319, R320) -/

def Wrk.off : Nat := 0
def Wrk.idle : Nat := 1
def Wrk.busy : Nat := 2
def Wrk.lost : Nat := 3
def Wrk.unavailable : Nat := 4
def Wrk.held : Nat := 5

/-- A worker's state. -/
def Chip.workerState (s : Chip) (d w : Nat) : Nat := s.fld d (F.BLW_WSTAT_STATE w)

/-- A worker's state set; a held worker remembers it for its release (R320). -/
def Chip.setWorker (s : Chip) (d w st : Nat) : Chip :=
  if s.workerState d w = Wrk.held then s.onWorker d w (fun x => { x with was := st })
  else s.setFld d (F.BLW_WSTAT_STATE w) st

/-- IDLE and BUSY follow the tags held. -/
def Chip.settleWorker (s : Chip) (d w : Nat) : Chip :=
  let st := s.workerState d w
  let st := if st = Wrk.held then (s.worker d w).was else st
  if st = Wrk.idle || st = Wrk.busy then
    s.setWorker d w (if (s.worker d w).tags.isEmpty then Wrk.idle else Wrk.busy)
  else s

/-- A tag freed. -/
def Chip.freeTag (s : Chip) (d w tag : Nat) : Chip :=
  (s.onWorker d w (fun x => { x with tags := x.tags.filter (fun t => t.1 != tag) })).settleWorker d w

/-- A tag becomes stale. -/
def Chip.staleTag (s : Chip) (d w tag : Nat) : Chip :=
  s.onWorker d w (fun x => { x with tags := x.tags.map (fun t => if t.1 = tag then (tag, none) else t) })

/-- How many tasks a worker may hold. -/
def Chip.workerDepth (s : Chip) (d w : Nat) : Nat := if w < 64 then 1 else s.fld d (F.BLW_WORKER_DEPTH_M1 w) + 1

/-- The lowest free tag of an eligible worker of a class (R320). -/
def Chip.freePlace (s : Chip) (d cls w : Nat) : Option Nat :=
  let st := s.workerState d w
  if s.flag d (F.BLW_WORKER_EN w) && (st = Wrk.idle || st = Wrk.busy) && s.fld d (F.BLW_WORKER_CLASS w) = cls then
    (List.range (s.workerDepth d w)).find? (fun t => !((s.worker d w).tags.any (fun x => x.1 = t)))
  else none

/-- The share of the last 1,000 samples in which a worker held a task, per mille (R351). -/
def BlwWorker.busyRatio (x : BlwWorker) : Nat := (List.range 1000).countP (fun i => x.samples.getLsbD i)

/-- One µs sample of every worker, enabled or not (R351). -/
def Chip.sampleWorkers (s : Chip) (d : Nat) : Chip :=
  s.each (SMap.keysIn s.blwWorkers (d * 192) (d * 192 + 192)) (fun s key => s.onWorker d (key % 192) (fun x =>
    { x with samples := (x.samples <<< 1) ||| BitVec.ofNat 1000 (ofBool (x.tags.any (fun t => t.2.isSome))) }))

/-- The least-loaded eligible worker of a class, with its free tag (R314). -/
def Chip.pickWorker (s : Chip) (d cls : Nat) : Option (Nat × Nat) :=
  let load (w : Nat) : Nat × Nat := ((s.worker d w).tags.length, (s.worker d w).busyRatio)
  (List.range 192).foldl (fun best w =>
    match s.freePlace d cls w with
    | none => best
    | some t =>
      match best with
      | none => some (w, t)
      | some (b, _) =>
        let x := load w
        let y := load b
        if x.1 < y.1 || (x.1 = y.1 && x.2 < y.2) then some (w, t) else best) none

/-- The entry of the worker table that names a port. -/
def Chip.workerAt (s : Chip) (d router port : Nat) : Option Nat :=
  (List.range 192).find? (fun w => s.flag d (F.BLW_WORKER_EN w) && s.fld d (F.BLW_WORKER_ROUTER w) = router &&
    s.fld d (F.BLW_WORKER_PORT w) = port)

/-! ### Failure of an item (R337) -/

def Cause.poison : Nat := 1
def Cause.abort : Nat := 2
def Cause.timeout : Nat := 3
def Cause.lost : Nat := 4
def Cause.declared : Nat := 5
def Cause.storeFull : Nat := 6
def Cause.tokenError : Nat := 7
def Cause.failHead : Nat := 8
def Cause.stageOverflow : Nat := 9

/-- An entry freed; a tag that holds its task becomes stale. -/
def Chip.dropEntry (s : Chip) (d key : Nat) : Chip :=
  match s.blwStore.get key with
  | some e =>
    let s := match e.phase with
      | .out w t => s.staleTag d w t
      | _ => s
    let l := s.listOf d (blwTpl key)
    { (s.setEntry key none) with
      blwReady := s.blwReady.upd l (fun l => l.filter (fun k => k != key))
      blwHeld := s.blwHeld.upd d (fun l => l.filter (fun k => k != key)) }
  | none => s

/-- The fields of BLW_FAULT for a failed item. -/
def faultWord (flow seq cause : Nat) : Nat := flow + seq % 2 ^ 20 * 2 ^ 10 + cause * 2 ^ 30

/-- An item fails: its window position is marked, its gated entries go, and the failure is recorded and logged. A sequence behind
the window has no position left to mark (R337, R338). -/
def Chip.failItem (s : Chip) (d flow seq cause tpl : Nat) : Chip :=
  let m := (s.mark d flow seq).getD { first := s.firstOf d flow seq }
  let s := s.when (s.distance d flow seq < 2 ^ 19)
    (fun s => s.setMark d flow seq (some { m with release := none, failed := some (cause, tpl) }))
  let keys := (s.blwStore.filter (fun e => blwDie e.1 = d && blwFlow e.1 = flow && blwSeq e.1 = seq % 2 ^ 20 &&
    s.gated d (blwTpl e.1))).map (·.1)
  let s := s.each keys (fun s k => s.dropEntry d k)
  let s := s.setFlag d (F.BLW_FLOW_STATUS_ERR_SEEN flow) true
  let s := (s.setReg d Reg.BLW_FAULT (word (faultWord flow seq cause + 2 ^ 34)))
  s.logEv d Ev.blwItemError (faultWord flow seq cause)

/-- A task fails for good: its item, or for a template without GATE its entry alone (R336, R337). -/
def Chip.failTaskItem (s : Chip) (d key cause : Nat) : Chip :=
  if s.gated d (blwTpl key) then s.failItem d (blwFlow key) (blwSeq key) cause (blwTpl key)
  else (s.dropEntry d key).logEv d Ev.blwItemError (faultWord (blwFlow key) (blwSeq key) cause)

/-- A task fails: counted failures use up RETRY_MAX; it joins the head of its list or its item fails (R335, R336). Its
staged tokens are gone. -/
def Chip.failTask (s : Chip) (d key cause : Nat) (counted : Bool) : Chip :=
  match s.blwStore.get key with
  | none => s
  | some e =>
    if counted && s.fld d (F.BLW_TPL_A_RETRY_MAX (blwTpl key)) ≤ e.attempt then s.failTaskItem d key cause
    else
      let s := if counted then (s.blwStat d 2).countDie d 19 1 else s.countDie d 20 1
      let s := s.setEntry key (some { e with
        phase := .ready, attempt := e.attempt + ofBool counted, staged := [], declared := false, retried := true })
      s.joinReady d key true

/-- Every task a worker holds fails; its tags become stale (R320, R335). -/
def Chip.failHeldTasks (s : Chip) (d w cause : Nat) (counted : Bool) : Chip :=
  s.each (s.worker d w).tags (fun s t => match t.2 with
    | some key => (s.staleTag d w t.1).failTask d key cause counted
    | none => s)

/-- A worker enters LOST (R320). -/
def Chip.loseWorker (s : Chip) (d w : Nat) : Chip :=
  if s.workerState d w = Wrk.off then s
  else (s.setWorker d w Wrk.lost).failHeldTasks d w Cause.lost true

/-- The fabric workers of every table on a region that has left ACTIVE, or enters it (R138, R320). -/
def Chip.regionWorkers (s : Chip) (d r : Nat) (active : Bool) : Chip :=
  s.upTo 4 (fun s b => s.upTo 128 (fun s i =>
    let w := 64 + i
    let router := s.fld b (F.BLW_WORKER_ROUTER w)
    if s.flag b (F.BLW_WORKER_EN w) && dieOf router = d && regionOf router = r then
      if active then
        s.when (s.workerState b w == Wrk.unavailable) (fun s =>
          (s.onWorker b w (fun x => { x with tags := [] })).setWorker b w Wrk.idle)
      else
        s.when (s.workerState b w == Wrk.idle || s.workerState b w == Wrk.busy) (fun s =>
          (s.setWorker b w Wrk.unavailable).failHeldTasks b w 0 false)
    else s))

/-- The fabric workers of the other dies that lie on a die entering reset (R349). -/
def Chip.dieWorkersLost (s : Chip) (d : Nat) : Chip :=
  s.upTo 4 (fun s b => s.upTo 128 (fun s i =>
    let w := 64 + i
    s.when (b != d && s.flag b (F.BLW_WORKER_EN w) && dieOf (s.fld b (F.BLW_WORKER_ROUTER w)) == d)
      (fun s => s.loseWorker b w)))

/-- The worker that a core of a die is, if the table names its port. -/
def Chip.coreWorker (s : Chip) (d n : Nat) : Option Nat := s.workerAt d (coreRouter d n) 2

/-- A halted core's worker is HELD; with DEBUG_STEAL its task is re-dispatched elsewhere (R322). -/
def Chip.holdWorker (s : Chip) (d n : Nat) : Chip :=
  match s.coreWorker d n with
  | some w =>
    let st := s.workerState d w
    if st = Wrk.held then s
    else
      let s := (s.onWorker d w (fun x => { x with was := st })).setFld d (F.BLW_WSTAT_STATE w) Wrk.held
      s.when (s.flag d F.BLW_CTRL_DEBUG_STEAL) (fun s => s.failHeldTasks d w 0 false)
  | none => s

/-- DEBUG_STEAL holds while cores are halted: the tasks of every HELD worker are re-dispatched elsewhere (R322). -/
def Chip.stealHeld (s : Chip) (d : Nat) : Chip :=
  s.upTo 64 (fun s w => s.when (s.workerState d w == Wrk.held) (fun s => s.failHeldTasks d w 0 false))

/-- Whether a worker's entry names a core of the die that debug has halted (R320, R322). -/
def Chip.namesHalted (s : Chip) (d w : Nat) : Bool :=
  (List.range 64).any (fun n => s.fld d (F.OBE_STATUS_STATE n) = 4 && coreRouter d n = s.fld d (F.BLW_WORKER_ROUTER w) &&
    s.fld d (F.BLW_WORKER_PORT w) = 2)

/-- A released core's worker returns to its previous state (R320, R630). -/
def Chip.unholdWorker (s : Chip) (d n : Nat) : Chip :=
  match s.coreWorker d n with
  | some w =>
    if s.workerState d w = Wrk.held then (s.setFld d (F.BLW_WSTAT_STATE w) (s.worker d w).was).settleWorker d w else s
  | none => s

/-! ### Tokens (R308, R311, R347) -/

/-- A token: its item, its place, its words, and whether it carries ERROR. -/
structure TokenIn where
  tpl : Nat
  slot : Nat
  flow : Nat
  seq : Nat
  err : Bool := false
  data : BlwSlot := {}

/-- Word 2 of a TOKEN packet (R308). -/
def TokenIn.word2 (t : TokenIn) (tpl : Nat) : W36 :=
  word (t.seq % 2 ^ 20 + tpl % 256 * 2 ^ 20 + t.slot % 4 * 2 ^ 28 + t.data.count % 4 * 2 ^ 30 + ofBool t.data.ref * 2 ^ 32 +
    ofBool t.err * 2 ^ 33)

/-- The token a TOKEN flit carries (R308). -/
def TokenIn.ofFlit (f : Flit) : TokenIn := {
  tpl := bits f.w2 20 8, slot := bits f.w2 28 2, flow := f.flow, seq := bits f.w2 0 20, err := bit f.w2 33,
  data := { count := bits f.w2 30 2, ref := bit f.w2 32, w0 := f.w3, w1 := f.w4, w2 := f.w5, poison := f.poison } }

/-- Payload word i of an operand, zero where its COUNT does not use it (R308). -/
def BlwSlot.word (x : BlwSlot) (i : Nat) : W36 :=
  if x.count ≤ i then 0 else if i = 0 then x.w0 else if i = 1 then x.w1 else x.w2

/-- A token sent to the home die of a FORWARD entry, its unused words zero (R308, R347). -/
def Chip.forwardToken (s : Chip) (d : Nat) (t : TokenIn) : Chip :=
  let home := s.fld d (F.BLW_TPL_A_HOME t.tpl)
  let remote := s.fld d (F.BLW_TPL_A_REMOTE t.tpl)
  (s.countDie d 25 1).submit (gatewayOf d) 3 {
    dev := s.ownDevice, router := gatewayOf home, port := 3, typ := Typ.token, flow := t.flow
    body := [{ w2 := t.word2 remote, w3 := t.data.word 0, w4 := t.data.word 1, w5 := t.data.word 2, poison := t.data.poison }]
    origin := .forward home t.tpl }

/-- A slot filled; the task is ready when its last slot fills (R311, R312). -/
def Chip.fillSlot (s : Chip) (d key slot : Nat) (e : BlwEntry) (x : BlwSlot) : Chip :=
  let (s, x) := s.blwWrite d x
  let e := { e with slots := e.slots.set slot (some x) }
  let s := s.setEntry key (some e)
  if (List.range (s.fld d (F.BLW_TPL_A_ARITY_M1 (blwTpl key)) + 1)).all (fun i => (e.slots.get i).isSome) then
    s.taskReady d key
  else s

/-- One token handled by the table of R311. -/
def Chip.handleToken (s : Chip) (d : Nat) (t : TokenIn) : Chip :=
  let s := (s.blwStat d 0).countDie d 16 1
  let gate := s.gated d t.tpl
  let key := blwKey d t.tpl t.flow t.seq
  if !s.flag d (F.BLW_TPL_A_VALID t.tpl) || s.fld d (F.BLW_TPL_A_ARITY_M1 t.tpl) < t.slot then s.blwStat d 9
  else if s.flag d (F.BLW_TPL_A_FORWARD t.tpl) then s.forwardToken d t
  else if gate && !s.flag d (F.BLW_FLOW_EN t.flow) then s.blwStat d 9
  else if gate && (2 ^ 19 ≤ s.distance d t.flow t.seq || s.itemFailed d t.flow t.seq) then s.blwStat d 4
  else if t.err then s.failItem d t.flow t.seq Cause.tokenError t.tpl
  else match s.blwStore.get key with
    | some e =>
      if (e.slots.get t.slot).isSome then
        (s.blwStat d 5).logEv d Ev.blwSlotDup (t.tpl + t.flow * 2 ^ 8)
      else (s.when gate (fun s => s.present d t.flow t.seq)).fillSlot d key t.slot e t.data
    | none =>
      if s.storeUsed d < 16384 then
        let s := s.when gate (fun s => s.present d t.flow t.seq)
        let e : BlwEntry := { first := s.firstOf d t.flow t.seq }
        ((s.setEntry key (some e)).storeHigh d).fillSlot d key t.slot e t.data
      else
        let s := ((s.blwStat d 7).countDie d 24 1).logEv d Ev.blwStoreFull (t.tpl + t.flow * 2 ^ 8)
        if gate then s.failItem d t.flow t.seq Cause.storeFull t.tpl else s

/-- Whether Bellows accepts tokens and dispatches (R305). -/
def Chip.bellowsRuns (s : Chip) (d : Nat) : Bool := s.flag d F.BLW_CTRL_RUN && 3 ≤ s.dieStage d

/-- A TOKEN that arrives at Bellows (R305, R311). -/
def Chip.tokenArrives (s : Chip) (d : Nat) (t : TokenIn) : Chip := if s.bellowsRuns d then s.handleToken d t else s.blwStat d 9

/-- f on the head flit of type t waiting at a die's gateway. -/
def Chip.atGateway (s : Chip) (d t : Nat) (f : Chip → Flit → Chip) : Chip :=
  match s.takeDelivered (gatewayOf d) 3 t with
  | (s', some x) => f s' x
  | (_, none) => s

/-- TOKEN (R311). -/
def execToken (d : Die) (s : State) : Out :=
  s.onDie d (fun c => c.atGateway d Typ.token (fun c f => c.tokenArrives d (TokenIn.ofFlit f)))

/-! ### Dispatch (R314 to R317) -/

/-- A time in ns as nc of Bellows, which lengthen at the spine's levels P1 to P3 (R305, R549, R551). -/
def Chip.blwNc (s : Chip) (d ns : Nat) : Nat :=
  ns * ([10, 8, 6, 4][s.fld d (F.PWR_DOM_STATUS_LEVEL 44)]?).getD 10 * 12 / 100

/-- The bin of BLW_WAIT for a wait in nc (R351). -/
def waitBin (nc : Nat) : Nat := if nc < 16 then 0 else min 15 ((nc / 16).log2 + 1)

/-- The DISPATCH packets of a task (R316). -/
def Chip.dispatchParts (s : Chip) (d key tag : Nat) (e : BlwEntry) : List Payload :=
  let tpl := blwTpl key
  let arity := s.fld d (F.BLW_TPL_A_ARITY_M1 tpl) + 1
  let slot (i : Nat) : BlwSlot := (e.slots.get i).getD {}
  let marks := (List.range arity).foldl (fun n i => n + ofBool (slot i).ref * 2 ^ (16 + i) + (slot i).count * 2 ^ (20 + 2 * i)) 0
  let w3 := tpl + s.fld d (F.BLW_TPL_A_PRIORITY tpl) * 2 ^ 8 + e.attempt * 2 ^ 11 + (arity - 1) * 2 ^ 14 + marks
  { w2 := word (tag * 2 ^ 8), w3 := word w3, w4 := word (blwSeq key) } ::
    (List.range arity).map (fun i =>
      let x := slot i
      { w2 := word (1 + i * 4 + x.count * 2 ^ 4 + ofBool x.ref * 2 ^ 6 + ofBool (i + 1 == arity) * 2 ^ 7 + tag * 2 ^ 8)
        w3 := x.w0, w4 := x.w1, w5 := x.w2, poison := x.poison || x.bad })

/-- A task sent to a worker's free place (R314 to R317). -/
def Chip.dispatchTask (s : Chip) (d cls key w tag : Nat) (e : BlwEntry) : Chip :=
  let s := s.addFld d (F.BLW_WAIT_COUNT cls (waitBin (s.blwNc d (s.now - e.joined)))) 1
  let s := (s.blwStat d 1).countDie d 18 1
  let s := s.setEntry key (some { e with phase := .out w tag, staged := [], declared := false })
  let s := (s.onWorker d w (fun x => { x with tags := x.tags ++ [(tag, some key)] })).settleWorker d w
  let s := s.upTo 4 (fun s i => match e.slots.get i with
    | some x => s.blwCheckSlot d key i x
    | none => s)
  let router := s.fld d (F.BLW_WORKER_ROUTER w)
  let port := s.fld d (F.BLW_WORKER_PORT w)
  s.each (s.dispatchParts d key tag e) (fun s b => s.submit (gatewayOf d) 3 {
    dev := s.ownDevice, router := router, port := port, typ := Typ.dispatch, flow := blwFlow key, body := [b],
    origin := .dispatch w })

/-- The head of the highest non-empty list of a class, with its list. -/
def Chip.nextTask (s : Chip) (d cls : Nat) : Option (Nat × Nat) :=
  ([7, 6, 5, 4, 3, 2, 1, 0].findSome? (fun p => match s.blwReady.get ((d * 16 + cls) * 8 + p) with
    | k :: _ => some ((d * 16 + cls) * 8 + p, k)
    | [] => none))

/-- DISPATCH_START: one dispatch of a class (R314). -/
def Chip.dispatchStart (s : Chip) (d cls : Nat) : Chip :=
  if !s.bellowsRuns d then s
  else match s.nextTask d cls, s.pickWorker d cls with
    | some (l, key), some (w, tag) =>
      match s.blwStore.get key with
      | some e => ({ s with blwReady := s.blwReady.upd l (fun q => q.drop 1) } : Chip).dispatchTask d cls key w tag e
      | none => s
    | _, _ => s

/-- DISPATCH_START (R314). -/
def execDispatchStart (d : Die) (cls : Fin 16) (s : State) : Out := s.onDie d (fun c => c.dispatchStart d cls)

/-! ### Results (R330 to R333) -/

/-- A release token committed to its flow's window (R340). -/
def Chip.commitRelease (s : Chip) (d key : Nat) (x : BlwSlot) : Chip :=
  let flow := blwFlow key
  let seq := blwSeq key
  let taken := match s.mark d flow seq with
    | some m => m.release.isSome || m.failed.isSome
    | none => false
  if taken || 2 ^ 19 ≤ s.distance d flow seq then s.blwStat d 5
  else if 16384 ≤ s.storeUsed d then s.failItem d flow seq Cause.storeFull (blwTpl key)
  else
    let (s, y) := s.blwWrite d x
    let y := { y with bad := y.bad || x.bad, marked := y.marked || (!y.bad && x.marked) }
    let m := (s.mark d flow seq).getD { first := s.firstOf d flow seq }
    (s.setMark d flow seq (some { m with release := some (y, blwTpl key) })).storeHigh d

/-- Staged token n committed (R333). -/
def Chip.commitStaged (s : Chip) (d key n : Nat) (g : BlwStaged) : Chip :=
  if g.release then s.commitRelease d key g.data
  else (s.blwCheck d key (4 + n) g.data).handleToken d {
    tpl := g.tpl, slot := g.slot, flow := blwFlow key, seq := blwSeq key,
    data := { g.data with poison := g.data.poison || g.data.bad, bad := false, marked := false } }

/-- The FREE tokens of an accepted task (R333). -/
def Chip.postFree (s : Chip) (d key : Nat) (e : BlwEntry) : Chip :=
  let free := s.fld d (F.BLW_TPL_B_FREE_TPL (blwTpl key))
  if free = 255 then s
  else s.upTo 4 (fun s i => match e.slots.get i with
    | some x =>
      if x.ref then (s.blwCheck d key i x).handleToken d {
        tpl := free, slot := 0, flow := blwFlow key, seq := blwSeq key,
        data := { x with poison := x.poison || x.bad, bad := false, marked := false } }
      else s
    | none => s)

/-- A task's results accepted (R333). -/
def Chip.acceptTask (s : Chip) (d key w tag : Nat) (e : BlwEntry) : Chip :=
  let s := if e.declared then s.failTaskItem d key Cause.declared else s.each e.staged.zipIdx (fun s g => s.commitStaged d key g.2 g.1)
  ((s.dropEntry d key).postFree d key e).freeTag d w tag

/-- The task an EMIT belongs to: its key, worker and entry (R331). -/
def Chip.emitTask (s : Chip) (d w : Nat) (f : Flit) : Option (Nat × BlwEntry) :=
  match (s.worker d w).tags.find? (fun t => t.1 = bits f.w2 21 2) with
  | some (_, some key) =>
    match s.blwStore.get key with
    | some e =>
      if blwFlow key = f.flow && e.attempt = bits f.w2 18 3 && blwSeq key % 2 ^ 13 = bits f.w2 23 13 then some (key, e) else none
    | none => none
  | _ => none

/-- The worker that a port is, enabled or not: the first entry naming it that holds the tag named, or else any tag (R331). -/
def Chip.emitWorker (s : Chip) (d : Nat) (f : Flit) : Option Nat :=
  let at0 (w : Nat) : Bool := f.srcDev = s.ownDevice && s.fld d (F.BLW_WORKER_ROUTER w) = f.srcRouter &&
    s.fld d (F.BLW_WORKER_PORT w) = f.srcPort && !(s.worker d w).tags.isEmpty
  match (List.range 192).find? (fun w => at0 w && (s.worker d w).tags.any (fun t => t.1 = bits f.w2 21 2)) with
  | some w => some w
  | none => (List.range 192).find? at0

/-- A stale EMIT: counted; with LAST or as an ABORT it frees its stale tag (R331). -/
def Chip.staleEmit (s : Chip) (d : Nat) (f : Flit) (ends : Bool) : Chip :=
  let s := (s.blwStat d 6).countDie d 23 1
  let tag := bits f.w2 21 2
  match s.emitWorker d f with
  | some w => s.when (ends && (s.worker d w).tags.contains (tag, none)) (fun s => s.freeTag d w tag)
  | none => s

/-- An EMIT of KIND token (R331 to R333). -/
def Chip.emitToken (s : Chip) (d : Nat) (f : Flit) : Chip :=
  let last := bit f.w2 13
  let tag := bits f.w2 21 2
  match s.emitWorker d f with
  | none => s.staleEmit d f last
  | some w =>
    match s.emitTask d w f with
    | none => s.staleEmit d f last
    | some (key, e) =>
      if 8 ≤ e.staged.length then
        let s := s.failTaskItem d key Cause.stageOverflow
        s.staleTag d w tag
      else
        let (s, x) := s.blwWrite d { count := bits f.w2 10 2, ref := bit f.w2 12, w0 := f.w3, w1 := f.w4, w2 := f.w5, poison := f.poison }
        let g : BlwStaged := { tpl := bits f.w2 0 8, slot := bits f.w2 8 2, release := bit f.w2 15, data := x }
        let e := { e with staged := e.staged ++ [g], declared := e.declared || bit f.w2 14 }
        let s := s.setEntry key (some e)
        if last then s.acceptTask d key w tag e else s

/-- An EMIT of KIND ABORT; one of cause RESET takes its worker to LOST whether or not it holds a task (R320, R330, R331, R335). -/
def Chip.emitAbort (s : Chip) (d : Nat) (f : Flit) : Chip :=
  let cause := bits f.w3 0 4
  match s.emitWorker d f with
  | none =>
    let s := s.staleEmit d f true
    if cause = 2 && f.srcDev = s.ownDevice then match s.workerAt d f.srcRouter f.srcPort with
      | some w => s.loseWorker d w
      | none => s
    else s
  | some w =>
    match s.emitTask d w f with
    | none => (s.staleEmit d f true).when (cause == 2) (fun s => s.loseWorker d w)
    | some (key, _) =>
      let s := s.freeTag d w (bits f.w2 21 2)
      if cause = 2 then (s.failTask d key 0 false).loseWorker d w
      else s.failTask d key (if cause = 1 then Cause.poison else Cause.abort) true

/-- READY: a waiting worker holds no task; what it was thought to hold has failed (R320, R321). -/
def Chip.workerReady (s : Chip) (d : Nat) (f : Flit) : Chip :=
  match s.workerAt d f.srcRouter f.srcPort with
  | some w =>
    let st := s.workerState d w
    if f.srcDev = s.ownDevice && (st = Wrk.idle || st = Wrk.busy || st = Wrk.lost) then
      let s := s.failHeldTasks d w Cause.lost true
      (s.onWorker d w (fun x => { x with tags := [] })).setWorker d w Wrk.idle
    else s
  | none => s

/-- The EMIT at the gateway's head, where it is of a kind (R330). -/
def Chip.atEmit (s : Chip) (d kind : Nat) (f : Chip → Flit → Chip) : Chip :=
  match (s.port (gatewayOf d) 3).delivered with
  | x :: _ =>
    if x.typ = Typ.emit && bits x.w2 16 2 = kind then
      s.atGateway d Typ.emit (fun s x => if s.bellowsRuns d then f s x else s.blwStat d 9)
    else s
  | [] => s

/-- EMIT_PACKET (R330 to R333); the reserved KIND 3 belongs to no task and is stale. -/
def execEmitPacket (d : Die) (s : State) : Out :=
  s.onDie d (fun c =>
    let kind := ((c.port (gatewayOf d) 3).delivered.head?.map (fun f => bits f.w2 16 2)).getD 0
    if kind = 3 then c.atEmit d 3 (fun c f => c.staleEmit d f false) else c.atEmit d 0 (fun c f => c.emitToken d f))

/-- EMIT_ABORT (R331, R335). -/
def execEmitAbort (d : Die) (s : State) : Out := s.onDie d (fun c => c.atEmit d 1 (fun c f => c.emitAbort d f))

/-- READY (R321). -/
def execReady (d : Die) (s : State) : Out := s.onDie d (fun c => c.atEmit d 2 (fun c f => c.workerReady d f))

/-- Whether the FINAL part of a dispatch to a worker's place still waits to be injected (R316, R317). -/
def Chip.finalWaits (s : Chip) (d w tag : Nat) : Bool :=
  let q := s.port (gatewayOf d) 3
  let final (w2 : W36) : Bool := bit w2 7 && bits w2 8 2 = tag
  q.waiting.any (fun p => p.origin = .dispatch w && p.body.any (fun b => final b.w2)) ||
    q.sent.any (fun p => p.origin = .dispatch w && p.unsent != 0 && p.flits.any (fun f => final f.w2))

/-- BLW_TIMEOUT: a dispatched task's TIMEOUT elapses, counted from the injection of its FINAL part; suspended while its worker is
HELD (R317, R322, R335). -/
def Chip.taskTimeout (s : Chip) (d key : Nat) : Chip :=
  match s.blwStore.get key with
  | some e =>
    match e.phase with
    | .out w tag =>
      if blwDie key = d && s.fld d (F.BLW_TPL_B_TIMEOUT (blwTpl key)) != 0 && s.workerState d w != Wrk.held && !s.finalWaits d w tag then
        let s := s.logEv d Ev.blwTimeout (blwTpl key + w * 2 ^ 8)
        (s.staleTag d w tag).failTask d key Cause.timeout true
      else s
    | _ => s
  | none => s

/-- BLW_TIMEOUT (R335). -/
def execBlwTimeout (d : Die) (task : Nat) (s : State) : Out := s.onDie d (fun c => c.taskTimeout d task)

/-! ### Release (R338 to R345) -/

/-- The header word of a result item (BLW_RESULT_POP). -/
def itemHead (flow seq : Nat) (x : BlwSlot) (err : Bool) : W36 :=
  word (seq % 2 ^ 20 + flow * 2 ^ 20 + x.count * 2 ^ 30 + ofBool x.ref * 2 ^ 32 + ofBool err * 2 ^ 33)

/-- BASE moves on past the released position (R340). -/
def Chip.advanceBase (s : Chip) (d flow seq : Nat) : Chip :=
  let s := s.setMark d flow seq none
  (s.setFld d (F.BLW_FLOW_BASE flow) ((seq + 1) % 2 ^ 20)).releaseHeld d flow

/-- An item released to where a REL_KIND sends it; false where the result queue is full (R341, R342). -/
def Chip.releaseTo (s : Chip) (d flow seq tpl kind : Nat) (x : BlwSlot) (err : Bool) : Chip :=
  if kind = 0 && 512 ≤ (s.blwQueue.get d).length then s.setFlag d F.BLW_RQ_FULL_SEEN true
  else
    let s := (s.advanceBase d flow seq).countDie d 21 1
    let s := if err then (s.blwStat d 3).countDie d 22 1 else s
    if kind = 0 then
      let item : BlwItem := { head := itemHead flow seq x err, data := x }
      { s with blwQueue := s.blwQueue.upd d (fun q => q ++ [item]) }
    else if kind = 1 then
      s.handleToken d {
        tpl := s.fld d (F.BLW_TPL_B_REL_TPL tpl), slot := s.fld d (F.BLW_TPL_B_REL_SLOT tpl), flow := flow, seq := seq,
        err := err, data := x }
    else s

/-- RELEASE_ITEM: the position at BASE released (R340, R341). -/
def Chip.releaseItem (s : Chip) (d flow : Nat) : Chip :=
  let seq := s.fld d (F.BLW_FLOW_BASE flow)
  match s.mark d flow seq with
  | none => s
  | some m =>
    match m.failed, m.release with
    | some (cause, tpl), _ =>
      let kind := s.fld d (F.BLW_TPL_B_REL_KIND tpl)
      s.releaseTo d flow seq tpl (if tpl < 256 && cause != Cause.failHead && kind = 1 then 1 else 0) {} true
    | none, some (x, tpl) =>
      if x.bad then
        ((s.blwCheck d (blwKey d tpl flow seq) 12 x).failItem d flow seq Cause.poison tpl)
      else
        let kind := s.fld d (F.BLW_TPL_B_REL_KIND tpl)
        s.releaseTo d flow seq tpl (if kind = 3 then 0 else kind) x false
    | none, none => s

/-- RELEASE_ITEM (R340). -/
def execReleaseItem (d : Die) (flow : Fin 1024) (s : State) : Out := s.onDie d (fun c => c.releaseItem d flow)

/-- A read of BLW_RESULT_POP that acts (R343). -/
def Chip.resultPop (s : Chip) (d : Nat) : Chip × W36 :=
  match s.blwQueue.get d with
  | [] => (s, word (2 ^ 35))
  | i :: rest =>
    let w (k v : Nat) : W36 := if k < i.data.count then word v else 0
    let s := { s with blwQueue := s.blwQueue.set d rest }
    let s := s.setReg d (Reg.BLW_RESULT_DATA 0) (w 0 i.data.w0.toNat)
    let s := s.setReg d (Reg.BLW_RESULT_DATA 1) (w 1 i.data.w1.toNat)
    let s := s.setReg d (Reg.BLW_RESULT_DATA 2) (w 2 i.data.w2.toNat)
    (s.countDie d 27 1, i.head)

/-- BLW_RESULT_POP (R343). -/
def execBlwResultPop (d : Die) (s : State) : Out :=
  s.onDie d (fun c => (fun (r : Chip × W36) => { r.1 with returned := [r.2] }) (c.resultPop d))

/-! ### Registers (R307, R318, R319, R324, R345, R346) -/

/-- A refused register write. -/
def Chip.blwRefuse (s : Chip) (d : Nat) : Chip := s.setFlag d F.BLW_STATUS_REFUSED true

/-- The window positions of a flow that hold any state; nothing behind the window is held (R338). -/
def Chip.marksOf (s : Chip) (d flow : Nat) : List (Nat × BlwMark) :=
  s.blwWindow.filterMap (fun e => if e.1 / 2 ^ 20 = d * 1024 + flow then (e.2.map (fun m => (e.1 % 2 ^ 20, m))) else none)

/-- A write of BLW_FLOW_f: FAIL_HEAD, and BASE and EN where R346 allows. -/
def Chip.blwFlowWrite (s : Chip) (d flow : Nat) (v : W36) : Chip :=
  let base := s.fld d (F.BLW_FLOW_BASE flow)
  let en := s.flag d (F.BLW_FLOW_EN flow)
  let s := s.when (bit v 21 && (s.marksOf d flow).any (fun m => s.distance d flow m.1 < 256))
    (fun s => s.failItem d flow base Cause.failHead 256)
  let changes := bits v 0 20 != base || (en && !bit v 20)
  let holds := !(s.marksOf d flow).isEmpty || s.blwStore.any (fun e => blwDie e.1 = d && blwFlow e.1 = flow && s.gated d (blwTpl e.1))
  if changes && holds then s.blwRefuse d
  else (s.setFld d (F.BLW_FLOW_BASE flow) (bits v 0 20)).setFld d (F.BLW_FLOW_EN flow) (bits v 20 1)

/-- FAIL_HEAD: a write of BLW_FLOW_f with FAIL_HEAD = 1 (R345). -/
def execFailHead (d : Die) (flow : Fin 1024) (v : W36) (s : State) : Out :=
  s.onDie d (fun c => c.blwFlowWrite d flow (v ||| 0x200000))

/-- BLW_FLOW_WRITE (R346). -/
def execBlwFlowWrite (d : Die) (flow : Fin 1024) (v : W36) (s : State) : Out := s.onDie d (fun c => c.blwFlowWrite d flow v)

/-- Whether any entry, task or staged token of a template exists (R307). -/
def Chip.tplInUse (s : Chip) (d t : Nat) : Bool :=
  s.blwStore.any (fun e => blwDie e.1 = d && (blwTpl e.1 = t || (match e.2 with
    | some x => x.staged.any (fun g => !g.release && g.tpl = t)
    | none => false)))

/-- A write of a template register (R307). -/
def Chip.blwTplWrite (s : Chip) (d t : Nat) (isB : Bool) (v : W36) : Chip :=
  if s.tplInUse d t then s.blwRefuse d else s.plainWrite d (if isB then Reg.BLW_TPL_B t else Reg.BLW_TPL_A t) v

/-- BLW_TPL_WRITE (R307). -/
def execBlwTplWrite (d : Die) (t : Fin 256) (isB : Bool) (v : W36) (s : State) : Out :=
  s.onDie d (fun c => c.blwTplWrite d t isB v)

/-- A write of a worker entry; one enabled while debug holds its core is HELD (R318 to R320, R322). -/
def Chip.blwWorkerWrite (s : Chip) (d w : Nat) (v : W36) : Chip :=
  let router := bits v 0 8
  let port := bits v 8 2
  let lawful := if w < 64 then port = 2 && dieOf router = d else port < 2
  let was := s.flag d (F.BLW_WORKER_EN w)
  let old := s.reg d (Reg.BLW_WORKER w)
  if bit v 16 && !lawful then s.blwRefuse d
  else if was then
    let s := s.when (bits v 0 16 != bits old 0 16) (fun s => s.blwRefuse d)
    if bit v 16 then s else (s.setFlag d (F.BLW_WORKER_EN w) false).setFld d (F.BLW_WSTAT_STATE w) Wrk.off
  else
    let s := s.setReg d (Reg.BLW_WORKER w) (putBits old 0 17 (bits v 0 17))
    if bit v 16 then
      if 64 ≤ w && s.regionState (dieOf router) (regionOf router) != Rgn.active then
        s.setFld d (F.BLW_WSTAT_STATE w) Wrk.unavailable
      else
        let s := (s.setFld d (F.BLW_WSTAT_STATE w) Wrk.idle).settleWorker d w
        s.when (w < 64 && s.namesHalted d w) (fun s =>
          (s.onWorker d w (fun x => { x with was := s.workerState d w })).setFld d (F.BLW_WSTAT_STATE w) Wrk.held)
    else s

/-- BLW_WORKER_WRITE (R318 to R320). -/
def execBlwWorkerWrite (d : Die) (w : Fin 192) (v : W36) (s : State) : Out := s.onDie d (fun c => c.blwWorkerWrite d w v)

/-- Every BLW_WAIT counter zeroed (R351). -/
def Chip.histClear (s : Chip) (d : Nat) : Chip := s.resetRegs d (Reg.BLW_WAIT 0 0) (Reg.BLW_WAIT 15 15 + 1)

/-- A write of BLW_CTRL (R322, R351). -/
def Chip.blwCtrlWrite (s : Chip) (d : Nat) (v : W36) : Chip :=
  let s := (s.plainWrite d Reg.BLW_CTRL v).when (bit v 2) (fun s => s.histClear d)
  s.when (s.flag d F.BLW_CTRL_DEBUG_STEAL) (fun s => s.stealHeld d)

/-- HIST_CLR: a write of BLW_CTRL with HIST_CLR = 1 (R351). -/
def execHistClr (d : Die) (v : W36) (s : State) : Out := s.onDie d (fun c => c.blwCtrlWrite d (v ||| 4))

/-- The values that a read of a BLW_ register finds beside the stored fields (R344, R351). -/
def Chip.blwView (s : Chip) (d off : Nat) : W36 :=
  let r := s.reg d off
  if off = Reg.BLW_STATUS then putBits r 0 15 (s.storeUsed d)
  else if off = Reg.BLW_RESULT_POP || off = Reg.BLW_RESULT_PEEK then
    match s.blwQueue.get d with
    | [] => word (2 ^ 35)
    | i :: _ => i.head
  else if off = Reg.BLW_RQ then putBits r 0 10 (s.blwQueue.get d).length
  else if Reg.BLW_WSTAT 0 ≤ off && off < Reg.BLW_WSTAT 192 then
    let x := s.worker d (off - Reg.BLW_WSTAT 0)
    let stale := x.tags.foldl (fun n t => if t.2.isNone then n ||| 2 ^ t.1 else n) 0
    putBits (putBits (putBits r 3 3 x.tags.length) 6 4 stale) 10 10 x.busyRatio
  else if Reg.BLW_FLOW 0 ≤ off && off < Reg.BLW_FLOW 1024 && off % 2 = 1 then
    let flow := (off - Reg.BLW_FLOW 0) / 2
    let marks := (s.marksOf d flow).filter (fun m => s.distance d flow m.1 < 256)
    let oldest := marks.foldl (fun n m => min n m.2.first) s.now
    let base := s.fld d (F.BLW_FLOW_BASE flow)
    let hold := s.blwStore.any (fun e => blwDie e.1 = d && blwFlow e.1 = flow && blwSeq e.1 = base && (match e.2 with
      | some x => x.retried
      | none => false))
    putBits (putBits (putBits r 0 9 marks.length) 9 16 (min ((s.now - oldest) / 1000) 65535)) 25 1 (ofBool hold)
  else if Reg.BLW_DEPTH 0 0 ≤ off && off < Reg.BLW_DEPTH 16 0 then
    let i := off - Reg.BLW_DEPTH 0 0
    let held := (s.blwHeld.get d).countP (fun k => s.listOf d (blwTpl k) = d * 128 + i)
    putBits (putBits r 0 15 (s.blwReady.get (d * 128 + i)).length) 15 15 held
  else r

/-! ### FAB port mailboxes (R324 to R328) -/

/-- The router and port of FAB port q (R324). -/
def fabRouter (d q : Nat) : Nat := routerAt d (q / 2 % 8) (q / 16)

/-- The reservoir RAM of FAB port q (R324). -/
def fabRam (d q : Nat) : Nat :=
  let x := q / 2 % 8
  let y := q / 16
  128 * regionOf (fabRouter d q) + 2 * (8 * (4 * (y % 2) + 2) + (4 * (x % 2) + 2)) + q % 2

/-- A port engine's record. -/
def Chip.mail (s : Chip) (d q : Nat) : FabMail := s.fabMail.get (d * 128 + q)

/-- A port engine's record changed. -/
def Chip.onMail (s : Chip) (d q : Nat) (f : FabMail → FabMail) : Chip := { s with fabMail := s.fabMail.upd (d * 128 + q) f }

/-- Both rings of a port start again at lap 0 (R326). -/
def Chip.fabPortStart (s : Chip) (d q : Nat) : Chip :=
  let s := s.setReg d (Reg.BLW_FABPORT q) (putBits (s.reg d (Reg.BLW_FABPORT q)) 1 14 0)
  s.onMail d q (fun _ => {})

/-- A write of BLW_FABPORT_q (R324, R326). -/
def Chip.blwFabportWrite (s : Chip) (d q : Nat) (v : W36) : Chip :=
  if bit v 0 && s.cascaded d (fabRam d q) then s.blwRefuse d
  else
    let s := s.plainWrite d (Reg.BLW_FABPORT q) v
    if bit v 0 then s.fabPortStart d q else s

/-- BLW_FABPORT_WRITE (R324). -/
def execBlwFabportWrite (d : Die) (q : Fin 128) (v : W36) (s : State) : Out := s.onDie d (fun c => c.blwFabportWrite d q v)

/-- The engines of a region's FAB ports start again as it enters LOADING (R326). -/
def Chip.fabPortsReset (s : Chip) (d r : Nat) : Chip :=
  s.upTo 128 (fun s q => s.when (regionOf (fabRouter d q) == r) (fun s => s.fabPortStart d q))

/-- A word of the port RAM read by the engine: its value and whether it fails its check. -/
def Chip.mailRead (s : Chip) (d q a : Nat) : Chip × W36 × Bool :=
  let w := s.ramWord d (fabRam d q) a
  let syn := w.syndrome
  (if syn = 0 then s else s.ramReadFail d (fabRam d q) a syn, w.value, syn != 0)

/-- A word of the port RAM written by the engine. -/
def Chip.mailWrite (s : Chip) (d q a : Nat) (w : W36) : Chip :=
  s.storeRam d (fabRam d q) a { data := w, chk := checkBits w, valid := true }

/-- Whether a port's engine works: served, its region has power and clocks, and its collar is open (R132, R136). -/
def Chip.fabServed (s : Chip) (d q : Nat) : Bool :=
  s.flag d (F.BLW_FABPORT_EN q) && !s.asleep d (regionOf (fabRouter d q)) && s.collarOpen d (regionOf (fabRouter d q))

/-- The number of response flits that a packet's first flit asks for (R202). -/
def responsesFor (typ : Nat) (w3 : W36) : Nat :=
  if typ = Typ.readReq then (bits w3 0 6 + 4) / 4 else if typ = Typ.regRead then 1 else 0

/-- A packet taken from the transmit ring submitted at its port (R327). -/
def Chip.fabSubmit (s : Chip) (d q slot : Nat) (parts : List Flit) : Chip :=
  match parts with
  | f :: _ =>
    s.submit (fabRouter d q) (q % 2) {
      dev := f.dstDev, router := f.dstRouter, port := f.dstPort, typ := f.typ, flow := f.flow
      body := parts.map (fun x => { w2 := x.w2, w3 := x.w3, w4 := x.w4, w5 := x.w5, poison := x.poison })
      resp := responsesFor f.typ f.w3, origin := .fabSlot q slot }
  | [] => s

/-- FAB_TX_SLOT: a FULL transmit slot taken by the engine (R326, R327). -/
def Chip.fabTx (s : Chip) (d q : Nat) : Chip :=
  let i := s.fld d (F.BLW_FABPORT_TX_NEXT q)
  let phase := !s.flag d (F.BLW_FABPORT_TX_LAP q)
  let base := 512 + 8 * i
  if !s.fabServed d q || !(s.port (fabRouter d q) (q % 2)).waiting.isEmpty then s
  else if bit (s.ramWord d (fabRam d q) (base + 6)).value 0 != phase then s
  else
    let (s, w0, b0) := s.mailRead d q base
    let (s, w1, b1) := s.mailRead d q (base + 1)
    let (s, w2, b2) := s.mailRead d q (base + 2)
    let (s, w3, b3) := s.mailRead d q (base + 3)
    let (s, w4, b4) := s.mailRead d q (base + 4)
    let (s, w5, b5) := s.mailRead d q (base + 5)
    let bad := b0 || b1 || b2 || b3 || b4 || b5
    let s := s.when bad (fun s => s.setFlag d (F.BLW_FABPORT_CHECK_SEEN q) true)
    let f : Flit := { w0 := w0, w1 := word (bits w1 0 2 ||| ofBool bad), w2 := w2, w3 := w3, w4 := w4, w5 := w5 }
    let s := s.mailWrite d q (base + 7) (word (ofBool phase))
    let s := s.setFld d (F.BLW_FABPORT_TX_NEXT q) ((i + 1) % 64)
    let s := s.when (i == 63) (fun s => s.setFlag d (F.BLW_FABPORT_TX_LAP q) phase)
    let parts := (s.mail d q).parts ++ [f]
    if bit w1 1 then (s.onMail d q (fun m => { m with parts := [] })).fabSubmit d q i parts
    else s.onMail d q (fun m => { m with parts := parts })

/-- FAB_TX_SLOT (R327). -/
def execFabTxSlot (d : Die) (q : Fin 128) (s : State) : Out := s.onDie d (fun c => c.fabTx d q)

/-- Whether the next receive slot is free (R326). -/
def Chip.fabRxFree (s : Chip) (d q : Nat) : Bool :=
  let i := s.fld d (F.BLW_FABPORT_RX_NEXT q)
  !(s.mail d q).rxLapped || bit (s.ramWord d (fabRam d q) (8 * i + 7)).value 0 == s.flag d (F.BLW_FABPORT_RX_LAP q)

/-- Six words and a FULL mark written into the next receive slot (R326, R328). -/
def Chip.fabRxPut (s : Chip) (d q : Nat) (ws : List W36) (fail : Bool) : Chip :=
  let i := s.fld d (F.BLW_FABPORT_RX_NEXT q)
  let phase := !s.flag d (F.BLW_FABPORT_RX_LAP q)
  let s := s.upTo 6 (fun s j => s.mailWrite d q (8 * i + j) ((ws[j]?).getD 0))
  let s := s.mailWrite d q (8 * i + 6) (word (ofBool phase + 2 * ofBool fail))
  let s := s.setFld d (F.BLW_FABPORT_RX_NEXT q) ((i + 1) % 64)
  s.when (i == 63) (fun s => (s.setFlag d (F.BLW_FABPORT_RX_LAP q) phase).onMail d q (fun m => { m with rxLapped := true }))

/-- FAB_RX_FLIT: a failure record, or a delivered flit, written into the receive ring (R328). -/
def Chip.fabRx (s : Chip) (d q : Nat) : Chip :=
  if !s.fabServed d q || !s.fabRxFree d q then s
  else match (s.mail d q).failures with
    | (w0, w1) :: rest => (s.onMail d q (fun m => { m with failures := rest })).fabRxPut d q [w0, w1] true
    | [] =>
      match (s.port (fabRouter d q) (q % 2)).delivered with
      | f :: rest =>
        (s.onPort (fabRouter d q) (q % 2) (fun p => { p with delivered := rest })).fabRxPut d q
          [f.w0, f.w1, f.w2, f.w3, f.w4, f.w5] false
      | [] => s

/-- FAB_RX_FLIT (R328). -/
def execFabRxFlit (d : Die) (q : Fin 128) (s : State) : Out := s.onDie d (fun c => c.fabRx d q)

/-- A packet of a FAB port has failed: its failure record waits for a receive slot (R328). -/
def Chip.fabFailed (s : Chip) (d q : Nat) (f : Flit) : Chip :=
  (s.onMail d q (fun m => { m with failures := m.failures ++ [(f.w0, f.w1)] })).when (s.fabServed d q && s.fabRxFree d q)
    (fun s => s.fabRx d q)

end Sys2Proof.Machine
end

