-- ==== Sys2Proof/Machine/Chanter.lean ====
section
/-! DEFINITION. The position timebase: encoder channels, device time, agreement across the dies (chapter 11, R353 to R372). -/

namespace Sys2Proof.Machine

/-! ### Channels (R353 to R361) -/

/-- A channel's record changed. -/
def Chip.onChan (s : Chip) (d c : Nat) (f : ChnCh → ChnCh) : Chip := { s with chn := s.chn.upd (2 * d + c) f }

/-- A die's record changed. -/
def Chip.onChnDie (s : Chip) (d : Nat) (f : ChnDie → ChnDie) : Chip := { s with chnDies := s.chnDies.upd d f }

/-- Whether the POR sequence has reached its step 2, 50 µs after PORST_N rose, or the sequence is over (R157, R353). -/
def Chip.pastStep2 (s : Chip) : Bool := s.dev != .por || (s.cfg.sequencing && s.cfg.porAt + 50000 ≤ s.now)

/-- Whether a die counts: from step 2 of POR until OFF, PORST_N low or its own reset, SECURE_HALT included (R353). -/
def Chip.chnRuns (s : Chip) (d : Nat) : Bool := s.dev ≠ .off && !s.cfg.porstLow && s.pastStep2 && !s.dieInReset d

/-- f on the chip while the position timebase of a die runs. -/
def State.onChn (s : State) (d : Nat) (f : Chip → Chip) : Out := s.onChip (fun c => c.when (c.chnRuns d) f)

/-- Whether a die's time is aligned; always on the master (R364, R365). -/
def Chip.timeOk (s : Chip) (d : Nat) : Bool := s.chnAll.master = d || s.flag d F.CHN_TIME_STATUS_TIME_OK

/-- Whether a channel follows another device's position (R462). -/
def Chip.chnFollows (s : Chip) (c : Nat) : Bool := s.flag 0 (if c = 0 then F.KRN_SYS_POS_EN_0 else F.KRN_SYS_POS_EN_1)

/-- Whether a channel is VALID on a die: counting, not FAULTED, not LOADING; a follower needs TIME_OK too (R353, R462). -/
def Chip.chnValid (s : Chip) (d c : Nat) : Bool :=
  s.flag d (F.CHN_CH_CFG_EN c) && !s.flag d (F.CHN_CH_STATUS_FAULTED c) && !s.flag d (F.CHN_CH_STATUS_LOADING c) &&
    (!s.chnFollows c || s.timeOk d)

/-- The integer moved by n, modulo 2^48. -/
def addInt (i : Nat) (n : Int) : Nat := unsigned 48 ((i : Int) + n)

/-- The intervals kept for coasting: the last sixteen (R358). -/
def keep16 (l : List Nat) (p : Nat) : List Nat := (l ++ [p]).drop (l.length + 1 - 16)

/-- A count accepted at a stamp: the integer, the interval P and the fraction (R355, R361). -/
def ChnCh.count (x : ChnCh) (up : Bool) (stamp : Nat) : ChnCh :=
  let gap : Option Nat := x.stamp.map (fun t => stamp - t)
  { x with
    int := addInt x.int (if up then 1 else -1)
    frac := 0
    stamp := some stamp
    period := if up && x.forward then gap else none
    forward := up
    intervals := match gap with
      | some p => keep16 x.intervals p
      | none => x.intervals
    revRun := if up then 0 else x.revRun + 1 }

/-- The place of levels AB in the forward sequence 00, 10, 11, 01 (R355). -/
def quadPlace (a b : Bool) : Nat := if a then (if b then 2 else 1) else if b then 3 else 0

/-- A count on a channel, with the reversal watch (R355, R359). -/
def Chip.chnCount (s : Chip) (d c : Nat) (up : Bool) (stamp : Nat) : Chip :=
  let s := s.onChan d c (fun x => { x.count up stamp with accepted := s.time d })
  let limit := s.fld d (F.CHN_CH_CFG_REV_LIMIT c)
  if !up && limit != 0 && (s.chan d c).revRun = limit then
    let s := (s.setFlag d (F.CHN_CH_STATUS_REVERSED c) true).logEv d Ev.chnReversed c
    s.when (s.flag d (F.CHN_CH_CFG_AUTO_REV c)) (fun s => s.onChan d c (fun x => { x with revFix := true }))
  else s

/-- A and B changed at one stamp: counted in QERR and logged at most once per millisecond (R355). -/
def Chip.quadError (s : Chip) (d c : Nat) : Chip :=
  let s := s.satFld d (F.CHN_CH_STATUS_QERR c) 1
  let due : Bool := match (s.chan d c).quadLog with
    | some t => decide (1000000 ≤ s.time d - t)
    | none => true
  if due then (s.onChan d c (fun x => { x with quadLog := some (s.time d) })).logEv d Ev.chnQuadErr c else s

/-- Accepted levels of A, B and Z at one stamp (R354 to R356). -/
def Chip.acceptedChange (s : Chip) (d c : Nat) (a b z : Bool) (stamp : Nat) : Chip :=
  let x := s.chan d c
  let s := s.onChan d c (fun x => { x with a := a, b := b, z := z })
  let counts := s.flag d (F.CHN_CH_CFG_EN c) && !s.flag d (F.CHN_CH_STATUS_FAULTED c) && !s.chnFollows c
  let s :=
    if !counts || (a == x.a && b == x.b) then s
    else if a != x.a && b != x.b then s.quadError d c
    else
      let up := (quadPlace a b + 4 - quadPlace x.a x.b) % 4 = 1
      s.chnCount d c (up != s.flag d (F.CHN_CH_CFG_DIR_INV c)) stamp
  s.when (z && !x.z && a && b) (fun s => s.onChan d c (fun y => { y with zlat := s.chnPos d c, zseen := true }))

/-- ACCEPTED_CHANGE: one encoder's pairs are wired to all dies in parallel, and every die of the set that counts accepts the change
on its own (R18, R353, R355). -/
def execAcceptedChange (dies : BitVec 4) (c : Fin 2) (a b z : Bool) (stamp : BitVec 64) (s : State) : Out :=
  s.onChip (fun x => x.upTo 4 (fun x d => x.when (dies.getLsbD d && x.chnRuns d) (fun x => x.acceptedChange d c a b z stamp.toNat)))

/-! ### Encoder faults (R357, R358) -/

/-- The mean of the count intervals kept, if there are any. -/
def ChnCh.meanGap (x : ChnCh) : Option Nat :=
  if x.intervals.isEmpty then none else some (x.intervals.foldl (· + ·) 0 / x.intervals.length)

/-- A channel becomes FAULTED: it holds, fraction included, or coasts (R358). -/
def Chip.chnFault (s : Chip) (d c : Nat) : Chip :=
  if s.flag d (F.CHN_CH_STATUS_FAULTED c) then s
  else
    let f := s.chnFrac d c
    let coast := if s.flag d (F.CHN_CH_CFG_ON_FAULT c) then (s.chan d c).meanGap else none
    let s := s.setFlag d (F.CHN_CH_STATUS_FAULTED c) true
    match coast with
    | some m => (s.onChan d c (fun x => { x with coast := some m, coastUp := x.forward })).setFlag d (F.CHN_CH_STATUS_COASTING c) true
    | none => s.onChan d c (fun x => { x with frac := f, period := none, forward := false })

/-- The position holds where it stands (R358). -/
def Chip.chnHold (s : Chip) (d c : Nat) : Chip :=
  let f := s.chnFrac d c
  (s.onChan d c (fun x => { x with frac := f, period := none, forward := false, coast := none })).setFlag d
    (F.CHN_CH_STATUS_COASTING c) false

/-- A channel's fault ends: counting resumes from the held or coasted value (R358). -/
def Chip.chnFaultEnd (s : Chip) (d c : Nat) : Chip :=
  if s.flag d (F.CHN_CH_STATUS_FAULTED c) then
    let s := (s.chnHold d c).setFlag d (F.CHN_CH_STATUS_FAULTED c) false
    s.onChan d c (fun x => { x with intervals := [], stamp := none })
  else s

/-- An OPEN or SHORT of a pair is detected: its bit, its event once, and on A or B the channel's fault (R357, R358). -/
def Chip.encFault (s : Chip) (d c line : Nat) (short : Bool) : Chip :=
  let f := if short then F.CHN_CH_STATUS_SHORT c else F.CHN_CH_STATUS_OPEN c
  if (s.fld d f).testBit line then s
  else
    let s := s.setFld d f (s.fld d f ||| 2 ^ line)
    let s := s.logEv d (if short then Ev.chnEncShort else Ev.chnEncOpen) (c + line * 2)
    s.when (line < 2) (fun s => s.chnFault d c)

/-- CHN_ENC_OPEN (R357). -/
def execChnEncOpen (d : Die) (c : Fin 2) (line : Fin 3) (s : State) : Out := s.onChn d (fun x => x.encFault d c line false)

/-- CHN_ENC_SHORT (R357). -/
def execChnEncShort (d : Die) (c : Fin 2) (line : Fin 3) (s : State) : Out := s.onChn d (fun x => x.encFault d c line true)

/-- A pair has been driven normally for 10 µs: both its bits clear (R357, R358). -/
def Chip.encClear (s : Chip) (d c line : Nat) : Chip :=
  let o := s.fld d (F.CHN_CH_STATUS_OPEN c)
  let h := s.fld d (F.CHN_CH_STATUS_SHORT c)
  let drop (v : Nat) : Nat := if v.testBit line then v - 2 ^ line else v
  let s := (s.setFld d (F.CHN_CH_STATUS_OPEN c) (drop o)).setFld d (F.CHN_CH_STATUS_SHORT c) (drop h)
  if drop o % 4 = 0 && drop h % 4 = 0 && !s.chnFollows c then s.chnFaultEnd d c else s

/-- ENCODER_FAULT_CLEAR (R357). -/
def execEncoderFaultClear (d : Die) (c : Fin 2) (line : Fin 3) (s : State) : Out := s.onChn d (fun x => x.encClear d c line)

/-- COAST_MAX_EXPIRE (R358). -/
def execCoastMaxExpire (d : Die) (c : Fin 2) (s : State) : Out :=
  s.onChn d (fun x => x.when (x.flag d (F.CHN_CH_STATUS_COASTING c)) (fun x => x.chnHold d c))

/-- One count of a coasting channel, in the direction of the last count before the fault (R358). -/
def Chip.coastCount (s : Chip) (d c : Nat) : Chip :=
  match (s.chan d c).coast with
  | some m =>
    let t := s.time d
    s.onChan d c (fun x => { x with
      int := addInt x.int (if x.coastUp then 1 else -1), frac := 0, stamp := some t, accepted := t,
      period := if x.coastUp then some m else none, forward := x.coastUp })
  | none => s

/-- COAST_COUNT (R358). -/
def execCoastCount (d : Die) (c : Fin 2) (s : State) : Out := s.onChn d (fun x => x.coastCount d c)

/-! ### Device time (R363 to R366) -/

/-- The die that is time master: D0 while it is out of reset and aligned, else the lowest-numbered such die, else the
lowest-numbered die out of reset, which takes TIME_OK (R363). A returned D0 takes the role at a pulse time, not between pulses while
another die holds it (R365). -/
def Chip.electMaster (s : Chip) (pulse : Bool) : Chip :=
  let up := (List.range 4).filter (fun d => !s.dieInReset d)
  let now := s.chnAll.master
  let ok := up.filter (fun d => (s.flag d F.CHN_TIME_STATUS_TIME_OK || d = now) && (pulse || d != 0 || now = 0 || s.dieInReset now))
  match ok ++ up with
  | m :: _ => { (s.setFlag m F.CHN_TIME_STATUS_TIME_OK true) with chnAll := { s.chnAll with master := m } }
  | [] => s

/-- Whether a device time is a pulse time: a multiple of 2^20 from the first on, or the ns after one, since a rate correction can
pass over the multiple itself (R364, R366). -/
def pulseTime (t : Nat) : Bool := 2 ^ 20 ≤ t && t % 2 ^ 20 ≤ 1

/-- TIME_PULSE_SEND: the master drives a pulse at a pulse time; a returned D0 takes the role then (R364, R365). -/
def Chip.pulseSend (s : Chip) (d : Nat) : Chip :=
  if s.chnAll.master = d && pulseTime (s.time d) then
    let s := s.onChnDie d (fun x => { x with pulse := s.time d })
    s.electMaster true
  else s

/-- TIME_PULSE_SEND (R364). -/
def execTimePulseSend (d : Die) (s : State) : Out := s.onChn d (fun x => x.pulseSend d)

/-- Device time of a die set. -/
def Chip.setTime (s : Chip) (d t : Nat) : Chip := { s with devTime := s.devTime.set d (t % 2 ^ 64) }

/-- Device time moved by k at one instant, with every count timestamp the die stores, so that no interval changes (R366). -/
def Chip.stepTime (s : Chip) (d : Nat) (k : Int) : Chip :=
  let move (t : Nat) : Nat := unsigned 64 ((t : Int) + k)
  let s := s.setTime d (move (s.time d))
  s.upTo 2 (fun s c => s.onChan d c (fun x => { x with
    stamp := x.stamp.map move, accepted := move x.accepted, quadLog := x.quadLog.map move, due := x.due.map (fun e => (e.1, move e.2.1, e.2.2)) }))

/-- An error acted on: removed by slewing, or by a step; the die's rate is adjusted to the master's, and a die that gains TIME_OK may
be the master (R363 to R365, log 106). -/
def Chip.actOnError (s : Chip) (d : Nat) (masterTime : Nat) : Chip :=
  let rate := signed 24 (s.fld s.chnAll.master F.CHN_TIME_RATE_RATE)
  let e : Int := signed 64 (unsigned 64 ((s.time d : Int) - masterTime))
  let s := s.setFld d F.CHN_TIME_STATUS_LAST_ERR (unsigned 20 (clampInt (-524288) 524287 e))
  let s :=
    if e.natAbs ≤ 1000 && !(s.chnDies.get d).afterReset then s.onChnDie d (fun x => { x with slew := e, slewDone := 0 })
    else
      let s := (s.stepTime d (-e)).setFlag d F.CHN_TIME_STATUS_STEPPED true
      s.onChnDie d (fun x => { x with slew := 0, slewDone := 0, afterReset := false })
  ((s.onChnDie d (fun x => { x with rate := rate })).setFlag d F.CHN_TIME_STATUS_TIME_OK true).electMaster false

/-- TIME_PULSE_RECEIVE: a pulse at the corrected moment of the master's time given; relayed to the other neighbour (R364). -/
def Chip.pulseReceive (s : Chip) (d masterTime : Nat) : Chip :=
  if s.chnAll.master = d then s else (s.actOnError d masterTime).onChnDie d (fun x => { x with pulse := masterTime })

/-- TIME_PULSE_RECEIVE (R364). -/
def execTimePulseReceive (d : Die) (e : Fin 2) (masterTime : BitVec 64) (s : State) : Out :=
  s.onChn d (fun x => (x.setFld d F.CRL_SIDEBAND_TPULSE_SEEN (x.fld d F.CRL_SIDEBAND_TPULSE_SEEN ||| 2 ^ e.val)).pulseReceive d
    masterTime.toNat)

/-- One nanosecond of a die's device time: the rate of CHN_TIME_RATE on the master, the adjusted rate and the error being removed
elsewhere (R364, R366). -/
def Chip.timeTick (s : Chip) (d : Nat) : Chip :=
  let x := s.chnDies.get d
  let leads := decide (s.chnAll.master = d)
  let acc := x.rateAcc + (if leads then signed 24 (s.fld d F.CHN_TIME_RATE_RATE) else x.rate)
  let whole := acc / 4294967296
  let k : Int := x.slewDone
  let slews := !leads && x.slew != 0
  let cut := if slews then x.slew * (k + 1) / 1048576 - x.slew * k / 1048576 else 0
  let ended := decide (1048576 ≤ x.slewDone + 1)
  (s.setTime d (unsigned 64 ((s.time d : Int) + 1 + whole - cut))).onChnDie d (fun x => { x with
    rateAcc := acc - whole * 4294967296
    slewDone := if slews then x.slewDone + 1 else x.slewDone
    slew := if slews && ended then 0 else x.slew })

/-- A write of CHN_TIME_STEP: on the master, time and every stored count stamp move together (R366). -/
def Chip.timeStepWrite (s : Chip) (d : Nat) (v : W36) : Chip :=
  if s.chnAll.master = d then
    s.stepTime d (signed 36 v.toNat)
  else s.setFlag d F.CHN_TIME_STATUS_REFUSED true

/-- CHN_TIME_STEP (R366). -/
def execChnTimeStep (d : Die) (v : W36) (s : State) : Out := s.onChn d (fun x => x.timeStepWrite d v)

/-- A write of CHN_TIME_RATE (R366). -/
def Chip.timeRateWrite (s : Chip) (d : Nat) (v : W36) : Chip :=
  if s.chnAll.master = d then s.plainWrite d Reg.CHN_TIME_RATE v else s.setFlag d F.CHN_TIME_STATUS_REFUSED true

/-- CHN_TIME_RATE (R366). -/
def execChnTimeRate (d : Die) (v : W36) (s : State) : Out := s.onChn d (fun x => x.timeRateWrite d v)

/-! ### Frames (R367, R368) -/

/-- The CRC-8 of a POS_D frame over bits [247:0] in ascending order (R368, R677). -/
def posCrc (f : BitVec 256) : BitVec 8 := crc8 ((List.range 248).map (fun i => f.getLsbD i))

/-- A frame whose SYNC and CRC-8 are right. -/
def posGood (f : BitVec 256) : Bool := bits f 0 8 = 0xA7 && (posCrc f).toNat = bits f 248 8

def posOrigin (f : BitVec 256) : Nat := bits f 8 2
def posRelay (f : BitVec 256) : Bool := bit f 10
def posTick (f : BitVec 256) : Nat := bits f 11 8
def posQ (f : BitVec 256) (c : Nat) : Nat := bits f (19 + 56 * c) 56
def posValid (f : BitVec 256) (c : Nat) : Bool := bit f (131 + c)
def posCfg (f : BitVec 256) (c : Nat) : Nat := bits f (133 + 24 * c) 24

/-- The snapshot of a channel at a tick. -/
def ChnCh.snapAt (x : ChnCh) (n : Nat) : Option (Nat × Bool) := (x.snaps.find? (fun e => e.1 = n)).map (fun e => e.2)

/-- A die's own frame of tick n with an operation (R368). -/
def Chip.posFrame (s : Chip) (d n : Nat) (op : Option (Nat × Nat × Nat)) : BitVec 256 :=
  let q (c : Nat) : Nat := (((s.chan d c).snapAt n).map (·.1)).getD 0
  let v (c : Nat) : Nat := ofBool ((((s.chan d c).snapAt n).map (·.2)).getD false)
  let cfg (c : Nat) : Nat := bits (s.reg d (Reg.CHN_CH_CFG c)) 0 24
  let (o, val, app) : Nat × Nat × Nat := match op with
    | some (o, val, first) => (o, val, (first + 4) % 256)
    | none => (0, 0, 0)
  let body := 0xA7 + d * 2 ^ 8 + n % 256 * 2 ^ 11 + q 0 * 2 ^ 19 + q 1 * 2 ^ 75 + v 0 * 2 ^ 131 + v 1 * 2 ^ 132 +
    cfg 0 * 2 ^ 133 + cfg 1 * 2 ^ 157 + o * 2 ^ 181 + app * 2 ^ 184 + val % 2 ^ 56 * 2 ^ 192
  let f := BitVec.ofNat 256 body
  f ||| (BitVec.ofNat 256 ((posCrc f).toNat * 2 ^ 248))

/-- A frame relayed: RELAY set, its CRC-8 again in force. -/
def posRelayed (f : BitVec 256) : BitVec 256 :=
  let g := putBits (putBits f 10 1 1) 248 8 0
  putBits g 248 8 (posCrc g).toNat

/-- An operation noted from a frame, once, while its tick of application is still to come, at most four ticks ahead (R371). -/
def Chip.noteOp (s : Chip) (d op value apply : Nat) : Chip :=
  let ahead := (apply + 256 - s.chnAll.tick % 256) % 256
  if op = 0 || 4 < op || ahead = 0 || 4 < ahead then s
  else s.onChnDie d (fun x => if x.ops.contains (op, value, apply) then x else { x with ops := x.ops ++ [(op, value, apply)] })

/-- A LOADING channel adopts the CFG of a direct neighbour's own frame in which it is VALID, the lower-numbered die's where
both send one (R372). -/
def Chip.adoptCfg (s : Chip) (d : Nat) (f : BitVec 256) : Chip :=
  if posRelay f then s
  else s.upTo 2 (fun s c =>
    let lower := (s.chnDies.get d).frames.any (fun g =>
      !posRelay g.2 && posTick g.2 = posTick f && posValid g.2 c && posOrigin g.2 < posOrigin f)
    if s.flag d (F.CHN_CH_STATUS_LOADING c) && (s.chan d c).adopted.isNone && posValid f c && !lower then
      (s.setReg d (Reg.CHN_CH_CFG c) (word (posCfg f c))).onChan d c (fun x => { x with heard := true })
    else s)

/-- POS_D_FRAME: a frame arrives on an edge of a die; a bad one is ignored, a good one kept (R368, R371, R372). -/
def Chip.posReceive (s : Chip) (d e : Nat) (f : BitVec 256) : Chip :=
  if !posGood f then s
  else
    let s := s.onChnDie d (fun x => { x with frames := (x.frames ++ [(e, f)]).drop (x.frames.length + 1 - 32) })
    let s := s.noteOp d (bits f 181 3) (bits f 192 56) (bits f 184 8)
    s.adoptCfg d f

/-- POS_D_FRAME (R368). -/
def execPosDFrame (d : Die) (e : Fin 2) (frame : BitVec 256) (s : State) : Out := s.onChn d (fun x => x.posReceive d e frame)

/-! ### Agreement (R359, R367 to R372) -/

/-- The reversal correction at a tick (R359). -/
def Chip.reverseFix (s : Chip) (d c n : Nat) : Chip :=
  if (s.chan d c).revFix then
    let s := s.setFlag d (F.CHN_CH_CFG_DIR_INV c) (!s.flag d (F.CHN_CH_CFG_DIR_INV c))
    let s := s.setFlag d (F.CHN_CH_CFG_AUTO_REV c) false
    let s := s.onChan d c (fun x => { x with
      int := addInt x.int (2 * x.revRun), revRun := 0, revFix := false, corrected := n })
    s.setFlag d (F.CHN_CH_STATUS_REV_CORRECTED c) true
  else s

/-- A preset or a CFG takes force on a die (R371). -/
def Chip.applyOp (s : Chip) (d op value : Nat) : Chip :=
  let c := (op - 1) % 2
  let s :=
    if op ≤ 2 then s.setReg d (Reg.CHN_CH_CFG c) (word (value % 2 ^ 24))
    else s.onChan d c (fun x => { x with
      int := value / 256 % 2 ^ 48, frac := value % 256, period := none, forward := false, stamp := none, intervals := [] })
  s.when (d == 0) (fun s => s.setFlag d (F.CHN_CH_STATUS_PENDING c) false)

/-- The operations a die applies at tick n (R371). -/
def Chip.applyOps (s : Chip) (d n : Nat) : Chip :=
  let due := (s.chnDies.get d).ops.filter (fun o => o.2.2 = n % 256)
  let s := s.onChnDie d (fun x => { x with ops := x.ops.filter (fun o => o.2.2 != n % 256) })
  s.each due (fun s o => s.applyOp d o.1 o.2.1)

/-- The votes of tick n for a channel as a die holds them, by die: its own where VALID, the others' from frames (R369). -/
def Chip.votes (s : Chip) (d c n : Nat) : List (Nat × Nat) :=
  (List.range 4).filterMap (fun o =>
    if o = d then
      match (s.chan d c).snapAt n with
      | some (q, true) => some (o, q / 256)
      | _ => none
    else ((s.chnDies.get d).frames.find? (fun g => posOrigin g.2 = o && posTick g.2 = n % 256 && posValid g.2 c)).map
      (fun g => (o, posQ g.2 c / 256)))

/-- The signed difference of two integers modulo 2^48. -/
def diff48 (a b : Nat) : Int := signed 48 (unsigned 48 ((a : Int) - b))

/-- The vote M at place ⌈m/2⌉ of the order by difference from the lowest-numbered die's vote (R369). -/
def median (votes : List (Nat × Nat)) : Nat :=
  match votes with
  | (_, r) :: _ =>
    let sorted := sortBy (fun a b => decide (diff48 a r ≤ diff48 b r)) (votes.map (·.2))
    (sorted[(votes.length + 1) / 2 - 1]?).getD r
  | [] => 0

/-- A dissent recorded in a die's CHN_AGREE (R369). -/
def Chip.noteDissent (s : Chip) (d c die : Nat) (delta : Int) : Chip :=
  let s := s.setFlag d F.CHN_AGREE_SEEN true
  let s := s.setFld d F.CHN_AGREE_CH c
  let s := s.setFld d F.CHN_AGREE_DIE die
  let s := s.setFld d F.CHN_AGREE_DELTA (unsigned 20 (clampInt (-524288) 524287 delta))
  s.satFld d F.CHN_AGREE_COUNT 1

/-- The DETAIL of CHN_DISAGREE. -/
def Chip.agreeDetail (s : Chip) (d : Nat) : Nat := bits (s.reg d Reg.CHN_AGREE) 1 32

/-- A die votes on tick n for a channel (R369, R370). -/
def Chip.vote (s : Chip) (d c n : Nat) : Chip :=
  let votes := s.votes d c n
  if votes.isEmpty || ((s.chan d c).corrected != 0 && n ≤ (s.chan d c).corrected) then s
  else
    let m := median votes
    let near := votes.countP (fun v => (diff48 v.2 m).natAbs ≤ 1)
    if votes.length < 2 * near then
      let s := s.setFlag d (F.CHN_CH_STATUS_SPLIT c) false
      s.each (votes.filter (fun v => 1 < (diff48 v.2 m).natAbs)) (fun s v =>
        let delta := diff48 m v.2
        let s := s.noteDissent d c v.1 delta
        if v.1 = d then
          (s.onChan d c (fun x => { x with int := addInt x.int delta, corrected := s.chnAll.tick })).logEv d Ev.chnDisagree (s.agreeDetail d)
        else s)
    else
      let mine := votes.any (fun v => v.1 = d)
      let s := s.when mine (fun s => (s.setFlag d (F.CHN_CH_STATUS_SPLIT c) true).setFlag d F.CHN_AGREE_NOMAJ true)
      s.when ((votes.head?.map (·.1)) == some d) (fun s => s.logEv d Ev.chnDisagree (s.agreeDetail d))

/-- A LOADING channel takes over a neighbour's count: the tick after the frame it sets q, fraction included, which stands until the
next count; the tick after that it is VALID (R372, log 213). -/
def Chip.loadStep (s : Chip) (d c n : Nat) : Chip :=
  if !s.flag d (F.CHN_CH_STATUS_LOADING c) then s
  else if (s.chan d c).adopted.isSome then
    (s.setFlag d (F.CHN_CH_STATUS_LOADING c) false).onChan d c (fun x => { x with adopted := none, heard := false })
  else
    let direct := (s.chnDies.get d).frames.filter (fun g => !posRelay g.2 && posTick g.2 = (n + 255) % 256 && posValid g.2 c)
    match sortBy (fun (a b : Nat × BitVec 256) => decide (posOrigin a.2 ≤ posOrigin b.2)) direct, (s.chan d c).snapAt (n - 1) with
    | g :: _, some (own, _) =>
      let q := (posQ g.2 c + (s.chnPos d c + 2 ^ 56 - own)) % 2 ^ 56
      s.onChan d c (fun x => { x with int := q / 256, frac := q % 256, period := none, adopted := some n })
    | _, _ => s

/-- The snapshot of a tick, the last four kept. -/
def Chip.snapshot (s : Chip) (d c n : Nat) : Chip :=
  let e := (n, s.chnPos d c, s.chnValid d c)
  s.onChan d c (fun x => { x with snaps := (x.snaps ++ [e]).drop (x.snaps.length + 1 - 4) })

/-- D0's next operation starts at tick n (R371). -/
def Chip.startOp (s : Chip) (n : Nat) : Chip :=
  let a := s.chnAll
  let a := match a.current with
    | some (_, _, first) => if first + 4 ≤ n then { a with current := none } else a
    | none => a
  match a.current, a.queue with
  | none, (op, value) :: rest =>
    ({ s with chnAll := { a with current := some (op, value, n), queue := rest } } : Chip).noteOp 0 op value ((n + 4) % 256)
  | _, _ => { s with chnAll := a }

/-- The frames a die sends at tick n: on each edge its own, and a copy of the other neighbour's own frame of tick n - 1 (R367). -/
def Chip.sendFrames (s : Chip) (d n : Nat) : Chip :=
  let own := s.posFrame d n (if d = 0 then s.chnAll.current else none)
  let relay (e : Nat) : List (Nat × BitVec 256) :=
    (((s.chnDies.get d).frames.find? (fun g => g.1 = 1 - e && !posRelay g.2 && posTick g.2 = (n + 255) % 256)).map
      (fun g => (e, posRelayed g.2))).toList
  s.onChnDie d (fun x => { x with out := (0, own) :: relay 0 ++ (1, own) :: relay 1 })

/-- After tick n the frames of that tick and the one before are kept, with those of a tick still to come; older ones have had their
votes and their relay (R367, R369). -/
def Chip.dropFrames (s : Chip) (d n : Nat) : Chip :=
  s.onChnDie d (fun x => { x with frames := x.frames.filter (fun g => (posTick g.2 + 257 - n % 256) % 256 ≤ 2) })

/-- One die's part of an agreement tick: adoption, snapshot, reversal correction, operations, vote, frames. -/
def Chip.dieTick (s : Chip) (n d : Nat) : Chip :=
  if !s.chnRuns d then s
  else
    let s := s.upTo 2 (fun s c => (s.loadStep d c n).snapshot d c n)
    let s := s.upTo 2 (fun s c => s.reverseFix d c n)
    let s := s.when (d == 0) (fun s => s.startOp n)
    let s := s.applyOps d n
    let s := s.upTo 2 (fun s c => s.when (2 < n) (fun s => s.vote d c (n - 2)))
    (s.sendFrames d n).dropFrames d n

/-- An agreement tick on every die (R367). -/
def Chip.agreementTick (s : Chip) : Chip :=
  let n := s.chnAll.tick + 1
  let s := { s with chnAll := { s.chnAll with tick := n } }
  s.upTo 4 (fun s d => s.dieTick n d)

/-- LOADING_TIMEOUT: a channel for which no frame came becomes VALID from its own count (R372). -/
def execLoadingTimeout (d : Die) (c : Fin 2) (s : State) : Out :=
  s.onChn d (fun x => x.when (x.flag d (F.CHN_CH_STATUS_LOADING c) && !(x.chan d c).heard && (x.chan d c).adopted.isNone)
    (fun x => x.setFlag d (F.CHN_CH_STATUS_LOADING c) false))

/-! ### Registers (R366, R371) -/

/-- A write of a channel's CFG or PRESET registers refused (R371). -/
def Chip.chnRefuses (s : Chip) (d c : Nat) : Bool := d != 0 || s.flag 0 (F.CHN_CH_STATUS_PENDING c)

/-- An operation queued on D0 (R371). -/
def Chip.queueOp (s : Chip) (c op value : Nat) : Chip :=
  ({ s with chnAll := { s.chnAll with queue := s.chnAll.queue ++ [(op, value)] } } : Chip).setFlag 0 (F.CHN_CH_STATUS_PENDING c) true

/-- A write of CHN_CH_c_CFG (R371). -/
def Chip.chnCfgWrite (s : Chip) (d c : Nat) (v : W36) : Chip :=
  if s.chnRefuses d c then s.setFlag d (F.CHN_CH_STATUS_REFUSED c) true else s.queueOp c (1 + c) (bits v 0 24)

/-- CHN_CH_CFG_WRITE (R371). -/
def execChnChCfgWrite (d : Die) (c : Fin 2) (v : W36) (s : State) : Out := s.onChn d (fun x => x.chnCfgWrite d c v)

/-- A write of CHN_CH_c_PRESET_LO or PRESET_HI; GO queues the preset (R371). -/
def Chip.chnPresetWrite (s : Chip) (d c : Nat) (hi : Bool) (v : W36) : Chip :=
  if s.chnRefuses d c then s.setFlag d (F.CHN_CH_STATUS_REFUSED c) true
  else if hi then
    let s := s.plainWrite d (Reg.CHN_CH_PRESET_HI c) v
    s.when (bit v 20) (fun s =>
      s.queueOp c (3 + c) (s.fld d (F.CHN_CH_PRESET_LO_Q c) + s.fld d (F.CHN_CH_PRESET_HI_Q c) * 2 ^ 36))
  else s.plainWrite d (Reg.CHN_CH_PRESET_LO c) v

/-- PRESET_GO: a write of PRESET_HI with GO = 1 (R371). -/
def execPresetGo (d : Die) (c : Fin 2) (v : W36) (s : State) : Out := s.onChn d (fun x => x.chnPresetWrite d c true (v ||| 0x100000))

/-- The values a read of a CHN_ register finds beside the stored fields. -/
def Chip.chnView (s : Chip) (d off : Nat) : W36 :=
  let r := s.reg d off
  if off = Reg.CHN_TIME_LO then word (s.time d)
  else if off = Reg.CHN_TIME_STATUS then
    putBits (putBits (putBits r 0 2 s.chnAll.master) 2 1 (ofBool (s.chnAll.master = d))) 3 1 (ofBool (s.timeOk d))
  else if Reg.CHN_CH_CFG 0 ≤ off && off < Reg.CHN_CH_CFG 2 then
    let c := (off - Reg.CHN_CH_CFG 0) / 16
    let i := (off - Reg.CHN_CH_CFG 0) % 16
    if i = 1 then putBits r 0 1 (ofBool (s.chnValid d c))
    else if i = 2 then word (s.chnPos d c)
    else if i = 4 then word (s.chan d c).zlat
    else r
  else r

/-- A read of a CHN_ register that acts: the RX registers latch their high parts (R11). -/
def Chip.chnRead (s : Chip) (d off : Nat) : Chip × W36 :=
  let v := s.chnView d off
  if off = Reg.CHN_TIME_LO then (s.setFld d F.CHN_TIME_HI_TIME (s.time d / 2 ^ 36), v)
  else if off = Reg.CHN_CH_POS_LO 0 || off = Reg.CHN_CH_POS_LO 1 then
    let c := if off = Reg.CHN_CH_POS_LO 0 then 0 else 1
    (s.setFld d (F.CHN_CH_POS_HI_Q c) (s.chnPos d c / 2 ^ 36), v)
  else if off = Reg.CHN_CH_ZLAT_LO 0 || off = Reg.CHN_CH_ZLAT_LO 1 then
    let c := if off = Reg.CHN_CH_ZLAT_LO 0 then 0 else 1
    let x := s.chan d c
    let s := (s.setFld d (F.CHN_CH_ZLAT_HI_Q c) (x.zlat / 2 ^ 36)).setFlag d (F.CHN_CH_ZLAT_HI_SEEN c) x.zseen
    (s.onChan d c (fun x => { x with zseen := false }), v)
  else (s, v)

/-- The result of a register read kept as what the command returned. -/
def returning (r : Chip × W36) : Chip := { r.1 with returned := [r.2] }

/-- CHN_TIME_LO (R363). -/
def execChnTimeLo (d : Die) (s : State) : Out := s.onChn d (fun x => returning (x.chnRead d Reg.CHN_TIME_LO))

/-- CHN_POS_LO (R360). -/
def execChnPosLo (d : Die) (c : Fin 2) (s : State) : Out := s.onChn d (fun x => returning (x.chnRead d (Reg.CHN_CH_POS_LO c)))

/-- CHN_ZLAT_LO (R356). -/
def execChnZlatLo (d : Die) (c : Fin 2) (s : State) : Out := s.onChn d (fun x => returning (x.chnRead d (Reg.CHN_CH_ZLAT_LO c)))

/-- A write of a CHN_ register outside the cue registers. -/
def Chip.chnWrite (s : Chip) (d off : Nat) (v : W36) : Chip :=
  if off = Reg.CHN_TIME_RATE then s.timeRateWrite d v
  else if off = Reg.CHN_TIME_STEP then s.timeStepWrite d v
  else if off = Reg.CHN_AGREE then
    let s := s.plainWrite d off v
    if bit v 0 then s.setFld d F.CHN_AGREE_COUNT 0 else s
  else if Reg.CHN_CH_CFG 0 ≤ off && off < Reg.CHN_CH_CFG 2 then
    let c := (off - Reg.CHN_CH_CFG 0) / 16
    let i := (off - Reg.CHN_CH_CFG 0) % 16
    if i = 0 then s.chnCfgWrite d c v
    else if i = 6 then s.chnPresetWrite d c false v
    else if i = 7 then s.chnPresetWrite d c true v
    else s.plainWrite d off v
  else s.plainWrite d off v

end Sys2Proof.Machine
end

