-- ==== Sys2Proof/Machine/Flags.lean ====
section
/-! DEFINITION. Oboe arithmetic and the flags each operation sets (R258, R259, R283 to R285, R301). -/

namespace Sys2Proof.Machine

/-- What an operation does to the flags: C, Z, N, E set to a value or left (none), V set or left (R285, R249). -/
structure Flags where
  c : Option Bool := none
  z : Option Bool := none
  n : Option Bool := none
  e : Option Bool := none
  v : Bool := false
deriving DecidableEq, Repr

/-- Bits [55:47] of a 56-bit value not all equal: the guard bits are used (R249, R259). -/
def guardUsed (a : Nat) : Bool := a / 2 ^ 47 % 512 != 0 && a / 2 ^ 47 % 512 != 511

/-- A 24-bit operand as it enters an addition: its value times 2^24 (R283). -/
def aligned (x : Nat) : Int := signed 24 x * 2 ^ 24

/-- Whether an exact result lies outside 56 bits (R258, R284). -/
def outside56 (r : Int) : Bool := r < -(2 ^ 55) || 2 ^ 55 ≤ r

/-- Z, N, E of a 56-bit result (R285). -/
def znE (r : Nat) : Flags := { z := some (r == 0), n := some (r.testBit 55), e := some (guardUsed r) }

/-- A product of two 24-bit operands under SR.FR and NG (R258, R284). -/
def product (fr ng : Bool) (a b : Nat) : Int :=
  let p := signed 24 a * signed 24 b
  let p := if fr then 2 * p else p
  if ng then -p else p

/-- The class-M operations, in the order of their codes (R284). -/
inductive AluOp where
  | move | mpy | mac | dmpy | dmac | sum | dif | add | sub | adda | suba | tfr | clr | neg | abs | cmp | and | or | xor
  | maxi | mini
deriving DecidableEq, Repr

/-- The OP code of an operation (R284). -/
def AluOp.code : AluOp → Nat
  | .move => 0x00 | .mpy => 0x01 | .mac => 0x02 | .dmpy => 0x03 | .dmac => 0x04 | .sum => 0x05 | .dif => 0x06
  | .add => 0x07 | .sub => 0x08 | .adda => 0x09 | .suba => 0x0A | .tfr => 0x0B | .clr => 0x0C | .neg => 0x0D
  | .abs => 0x0E | .cmp => 0x0F | .and => 0x10 | .or => 0x11 | .xor => 0x12 | .maxi => 0x13 | .mini => 0x14

/-- Every class-M operation. -/
def AluOp.all : List AluOp :=
  [.move, .mpy, .mac, .dmpy, .dmac, .sum, .dif, .add, .sub, .adda, .suba, .tfr, .clr, .neg, .abs, .cmp, .and, .or, .xor,
   .maxi, .mini]

/-- The operation of an OP code; none for the reserved codes (R284). -/
def AluOp.ofCode (n : Nat) : Option AluOp := AluOp.all[n]?

/-- Whether an operation uses S1, S2, D and NG (the unused-fields column of R284). -/
def AluOp.usesS1 : AluOp → Bool
  | .move | .adda | .suba | .clr | .neg | .abs => false
  | _ => true

def AluOp.usesS2 : AluOp → Bool
  | .mpy | .mac | .dmpy | .dmac | .sum | .dif => true
  | _ => false

def AluOp.usesD : AluOp → Bool
  | .move | .dmpy | .dmac | .maxi | .mini => false
  | _ => true

def AluOp.usesNg : AluOp → Bool
  | .mpy | .mac | .dmpy | .dmac => true
  | _ => false

/-- What a class-M operation gives: the new ACd (AC0 for DMPY and DMAC), the new other accumulator, the flags. -/
structure AluOut where
  acc : Option Nat := none
  other : Option Nat := none
  flags : Flags := {}
deriving DecidableEq, Repr

/-- Exact result r into ACd with Z, N, E, and V where r does not fit (R258, R284, R285). -/
def aluExact (r : Int) : AluOut :=
  let a := unsigned 56 r
  { acc := some a, flags := { znE a with v := outside56 r } }

/-- Exact sum or difference of two 56-bit values with the carry out of bit 55 or the borrow (R285). -/
def aluSum (subtract : Bool) (x y : Int) : AluOut :=
  let r := if subtract then x - y else x + y
  let a := unsigned 56 r
  let c := if subtract then decide (unsigned 56 x < unsigned 56 y) else decide (2 ^ 56 ≤ unsigned 56 x + unsigned 56 y)
  { acc := some a, flags := { znE a with c := some c, v := outside56 r } }

/-- A logic operation on ACd.H: Z from the new ACd.H, N from bit 47 (R285). -/
def aluLogic (acd h : Nat) : AluOut :=
  { acc := some (acd % 2 ^ 24 + h * 2 ^ 24 + acd / 2 ^ 48 * 2 ^ 48),
    flags := { z := some (h == 0), n := some (h.testBit 23) } }

/-- A class-M operation on S1, S2, S1's partner, ACd and the other accumulator (R284). MAXI and MINI have their own
function. -/
def aluOp (op : AluOp) (fr ng : Bool) (s1 s2 partner acd aco : Nat) : AluOut :=
  let a := signed 56 acd
  let o := signed 56 aco
  match op with
  | .move | .maxi | .mini => {}
  | .mpy => aluExact (product fr ng s1 s2)
  | .mac => aluExact (a + product fr ng s1 s2)
  | .dmpy =>
    let r0 := aluExact (product fr ng s1 s2)
    let r1 := product fr ng partner s2
    { r0 with other := some (unsigned 56 r1), flags := { r0.flags with v := r0.flags.v || outside56 r1 } }
  | .dmac =>
    let r0 := aluExact (a + product fr ng s1 s2)
    let r1 := o + product fr ng partner s2
    { r0 with other := some (unsigned 56 r1), flags := { r0.flags with v := r0.flags.v || outside56 r1 } }
  | .sum => aluSum false (aligned s1) (aligned s2)
  | .dif => aluSum true (aligned s1) (aligned s2)
  | .add => aluSum false a (aligned s1)
  | .sub => aluSum true a (aligned s1)
  | .adda => aluSum false a o
  | .suba => aluSum true a o
  | .tfr => aluExact (aligned s1)
  | .clr => aluExact 0
  | .neg => aluExact (-a)
  | .abs => aluExact (if a < 0 then -a else a)
  | .cmp => { (aluSum true a (aligned s1)) with acc := none }
  | .and => aluLogic acd (acd / 2 ^ 24 % 2 ^ 24 &&& s1)
  | .or => aluLogic acd (acd / 2 ^ 24 % 2 ^ 24 ||| s1)
  | .xor => aluLogic acd (acd / 2 ^ 24 % 2 ^ 24 ^^^ s1)

/-- MAXI and MINI on a sample: new MXV, MXI, IXC and whether MXV changed (R259). -/
def extremum (greatest : Bool) (s mxv mxi ixc : Nat) : Nat × Nat × Nat × Bool :=
  let better := if greatest then decide (signed 24 s > signed 24 mxv) else decide (signed 24 s < signed 24 mxv)
  (if better then s else mxv, if better then ixc else mxi, (ixc + 1) % 8192, better)

/-- An arithmetic right shift of ACd: flags Z, N, E (R301). -/
def shiftRight (acd n : Nat) : AluOut :=
  let a := unsigned 56 (signed 56 acd / 2 ^ n)
  { acc := some a, flags := znE a }

/-- A left shift of ACd: flags Z, N, E, and V where the bits shifted out and the new bit 55 are not all equal (R301). -/
def shiftLeft (acd n : Nat) : AluOut := aluExact (signed 56 acd * 2 ^ n)

/-- How many bits from bit 22 downward equal bit 23 of a sample (R259). -/
def headroom (v : Nat) : Nat :=
  let rec go : Nat → Nat
    | 0 => 0
    | i + 1 => if v.testBit i == v.testBit 23 then 1 + go i else 0
  go 23

end Sys2Proof.Machine
end

