-- ==== Sys2Proof/Machine/OboeIsa.lean ====
section
/-! DEFINITION. The Oboe instruction word: its instructions, their encoding and decoding (R278 to R303). -/

namespace Sys2Proof.Machine

/-- A parallel move: none, a load of X0, X1, Y0 or Y1, or a store; p the pointer, m its modification, r the register (R286). -/
inductive PMove where
  | none
  | load (p : Fin 8) (m : Fin 4) (r : Fin 4)
  | store (p : Fin 8) (m : Fin 4) (r : Fin 8)
deriving DecidableEq, Repr

/-- An Oboe instruction. Registers are named by their R280 codes; `isCall` tells CALL from B. -/
inductive OInstr where
  | alu (op : AluOp) (s1 s2 : Fin 4) (d : Fin 2) (ng : Fin 2) (x y : PMove)
  | nop | rts | rti | waittask | emit | abort | sleep | kick | enddo | bexr
  | rep (n : Fin 4096)
  | repLc
  | lock (n : Fin 16)
  | setipl (level : Fin 16)
  | branch (isCall : Fin 2) (cond : Fin 16) (target : Fin 8192)
  | branchAp (isCall : Fin 2) (cond : Fin 16) (n : Fin 8)
  | doImm (count : Fin 65536) (fin : Fin 8192)
  | doReg (reg : Fin 64) (fin : Fin 8192)
  | ldi (reg : Fin 64) (imm : Fin 16777216)
  | movr (dst src : Fin 64)
  | movcRead (dst : Fin 64) (h : Fin 2) (off : Fin 65536)
  | movcWrite (src : Fin 64) (h : Fin 2) (off : Fin 65536)
  | mem (store : Fin 2) (y : Fin 2) (reg : Fin 64) (mode : Fin 8) (n : Fin 8) (addr : Fin 8192)
  | moda (n : Fin 8) (m : Fin 8192)
  | asr (d : Fin 2) (n : Fin 64)
  | asl (d : Fin 2) (n : Fin 64)
  | norm (d : Fin 2) (src : Fin 64)
  | scale (d : Fin 2) (k : Fin 8) (src : Fin 64)
deriving DecidableEq, Repr

/-- The code of PC, read only (R280). -/
def pcCode : Nat := 0x12

/-- Whether a register code is not reserved (R280). -/
def codeOk (c : Nat) : Bool := c < 0x13 || (0x18 ≤ c && c < 0x38)

/-- Whether two parallel moves may stand together: not two loads of one register, nor two modifications of one pointer
(R287). -/
def movesOk : PMove → PMove → Bool
  | .load p m r, .load p' m' r' => r != r' && !(p == p' && m != 0 && m' != 0)
  | .load p m _, .store p' m' _ => !(p == p' && m != 0 && m' != 0)
  | .store p m _, .load p' m' _ => !(p == p' && m != 0 && m' != 0)
  | .store p m _, .store p' m' _ => !(p == p' && m != 0 && m' != 0)
  | _, _ => true

/-- Well formed: no reserved code, no unused field other than zero, no forbidden pair of moves (R279). -/
def OInstr.wf : OInstr → Bool
  | .alu op s1 s2 d ng x y =>
    (op.usesS1 || s1 == 0) && (op.usesS2 || s2 == 0) && (op.usesD || d == 0) && (op.usesNg || ng == 0) && movesOk x y
  | .setipl level => level.val ≤ 8
  | .doReg reg _ => codeOk reg
  | .ldi reg _ => codeOk reg && reg.val != pcCode
  | .movr dst src => codeOk dst && dst.val != pcCode && codeOk src
  | .movcRead dst _ _ => codeOk dst && dst.val != pcCode
  | .movcWrite src _ _ => codeOk src
  | .mem store _ reg mode n addr =>
    codeOk reg && (store == 1 || reg.val != pcCode) && mode.val != 7 && (mode.val != 0 || n == 0) &&
      (mode.val == 0 || 5 ≤ mode.val || addr == 0)
  | .asr _ n => 1 ≤ n.val && n.val ≤ 55
  | .asl _ n => 1 ≤ n.val && n.val ≤ 55
  | .norm _ src => codeOk src
  | .scale _ _ src => codeOk src
  | _ => true

/-! ### Encoding -/

/-- A move field (R286). -/
def PMove.encode : PMove → Nat
  | .none => 0
  | .load p m r => 0x200 + p.val * 0x40 + m.val * 0x10 + r.val * 2
  | .store p m r => 0x400 + p.val * 0x40 + m.val * 0x10 + r.val * 2

/-- A class-C word (R288). -/
def encodeC (fn operand : Nat) : Nat := fn * 2 ^ 25 + operand

/-- The word of an instruction (R278 to R301). -/
def OInstr.encode : OInstr → Nat
  | .alu op s1 s2 d ng x y =>
    2 ^ 35 + op.code * 2 ^ 30 + s1.val * 2 ^ 28 + s2.val * 2 ^ 26 + d.val * 2 ^ 25 + ng.val * 2 ^ 24 + x.encode * 2 ^ 11 +
      y.encode
  | .nop => encodeC 0x00 0
  | .rts => encodeC 0x01 0
  | .rti => encodeC 0x02 0
  | .waittask => encodeC 0x03 0
  | .emit => encodeC 0x04 0
  | .abort => encodeC 0x05 0
  | .sleep => encodeC 0x06 0
  | .kick => encodeC 0x07 0
  | .enddo => encodeC 0x08 0
  | .bexr => encodeC 0x09 0
  | .rep n => encodeC 0x0A n.val
  | .repLc => encodeC 0x0B 0
  | .lock n => encodeC 0x0C n.val
  | .setipl level => encodeC 0x0D level.val
  | .branch call cond target => 1 * 2 ^ 31 + call.val * 2 ^ 29 + cond.val * 2 ^ 24 + target.val
  | .branchAp call cond n => 1 * 2 ^ 31 + (2 + call.val) * 2 ^ 29 + cond.val * 2 ^ 24 + n.val * 2 ^ 21
  | .doImm count fin => 2 * 2 ^ 31 + count.val * 2 ^ 14 + fin.val
  | .doReg reg fin => 2 * 2 ^ 31 + 2 ^ 30 + reg.val * 2 ^ 24 + fin.val
  | .ldi reg imm => 3 * 2 ^ 31 + reg.val * 2 ^ 25 + imm.val
  | .movr dst src => 4 * 2 ^ 31 + dst.val * 2 ^ 25 + src.val * 2 ^ 19
  | .movcRead dst h off => 4 * 2 ^ 31 + dst.val * 2 ^ 25 + 2 ^ 18 + h.val * 2 ^ 16 + off.val
  | .movcWrite src h off => 4 * 2 ^ 31 + src.val * 2 ^ 19 + 2 ^ 18 + 2 ^ 17 + h.val * 2 ^ 16 + off.val
  | .mem store y reg mode n addr =>
    5 * 2 ^ 31 + store.val * 2 ^ 30 + y.val * 2 ^ 28 + reg.val * 2 ^ 22 + mode.val * 2 ^ 19 + n.val * 2 ^ 16 + addr.val
  | .asr d n => 6 * 2 ^ 31 + 0 * 2 ^ 28 + d.val * 2 ^ 27 + n.val * 2 ^ 15
  | .asl d n => 6 * 2 ^ 31 + 1 * 2 ^ 28 + d.val * 2 ^ 27 + n.val * 2 ^ 15
  | .norm d src => 6 * 2 ^ 31 + 2 * 2 ^ 28 + d.val * 2 ^ 27 + src.val * 2 ^ 21
  | .scale d k src => 6 * 2 ^ 31 + 3 * 2 ^ 28 + d.val * 2 ^ 27 + src.val * 2 ^ 21 + k.val * 2 ^ 15
  | .moda n m => 7 * 2 ^ 31 + n.val * 2 ^ 28 + m.val

/-! ### Decoding -/

/-- The field of n + 1 values at bit lo of a word. -/
def finAt (w lo n : Nat) : Fin (n + 1) := Fin.ofNat (n + 1) (w / 2 ^ lo)

/-- A move field decoded; none where KIND is 0b11, a load names a reserved register, bit 0 is set, or an unused field is not
zero (R279, R286). -/
def PMove.decode (v : Nat) : Option PMove :=
  if v % 2 = 1 then Option.none
  else if v / 0x200 % 4 = 0 then (if v % 0x200 = 0 then some .none else Option.none)
  else if v / 0x200 % 4 = 1 then
    (if v / 8 % 2 = 1 then Option.none else some (.load (finAt v 6 7) (finAt v 4 3) (finAt v 1 3)))
  else if v / 0x200 % 4 = 2 then some (.store (finAt v 6 7) (finAt v 4 3) (finAt v 1 7))
  else Option.none

/-- A candidate kept where it is well formed and its encoding is the word itself, so that every reserved bit is zero
(R279). -/
def keep (w : Nat) (i : OInstr) : Option OInstr := if i.wf && i.encode == w then some i else none

/-- A class-M word. -/
def decodeM (w : Nat) : Option OInstr :=
  match AluOp.ofCode (w / 2 ^ 30 % 32), PMove.decode (w / 2 ^ 11 % 2 ^ 11), PMove.decode (w % 2 ^ 11) with
  | some op, some x, some y => keep w (.alu op (finAt w 28 3) (finAt w 26 3) (finAt w 25 1) (finAt w 24 1) x y)
  | _, _, _ => none

/-- A class-C word by its FN (R288). -/
def decodeC (w : Nat) : Option OInstr :=
  match w / 2 ^ 25 % 64 with
  | 0x00 => keep w .nop
  | 0x01 => keep w .rts
  | 0x02 => keep w .rti
  | 0x03 => keep w .waittask
  | 0x04 => keep w .emit
  | 0x05 => keep w .abort
  | 0x06 => keep w .sleep
  | 0x07 => keep w .kick
  | 0x08 => keep w .enddo
  | 0x09 => keep w .bexr
  | 0x0A => keep w (.rep (finAt w 0 4095))
  | 0x0B => keep w .repLc
  | 0x0C => keep w (.lock (finAt w 0 15))
  | 0x0D => keep w (.setipl (finAt w 0 15))
  | _ => none

/-- A class-S word by its FN (R301). -/
def decodeS (w : Nat) : Option OInstr :=
  match w / 2 ^ 28 % 8 with
  | 0 => keep w (.asr (finAt w 27 1) (finAt w 15 63))
  | 1 => keep w (.asl (finAt w 27 1) (finAt w 15 63))
  | 2 => keep w (.norm (finAt w 27 1) (finAt w 21 63))
  | 3 => keep w (.scale (finAt w 27 1) (finAt w 15 7) (finAt w 21 63))
  | _ => none

/-- A class-R word (R297). -/
def decodeR (w : Nat) : Option OInstr :=
  if w / 2 ^ 18 % 2 = 0 then keep w (.movr (finAt w 25 63) (finAt w 19 63))
  else if w / 2 ^ 17 % 2 = 0 then keep w (.movcRead (finAt w 25 63) (finAt w 16 1) (finAt w 0 65535))
  else keep w (.movcWrite (finAt w 19 63) (finAt w 16 1) (finAt w 0 65535))

/-- The instruction of a word; none where R279 makes it ILLEGAL on its own. -/
def OInstr.decode (w : Nat) : Option OInstr :=
  if w / 2 ^ 35 % 2 = 1 then decodeM w
  else match w / 2 ^ 31 % 16 with
    | 0 => decodeC w
    | 1 =>
      if w / 2 ^ 30 % 2 = 0 then keep w (.branch (finAt w 29 1) (finAt w 24 15) (finAt w 0 8191))
      else keep w (.branchAp (finAt w 29 1) (finAt w 24 15) (finAt w 21 7))
    | 2 =>
      if w / 2 ^ 30 % 2 = 0 then keep w (.doImm (finAt w 14 65535) (finAt w 0 8191))
      else keep w (.doReg (finAt w 24 63) (finAt w 0 8191))
    | 3 => keep w (.ldi (finAt w 25 63) (finAt w 0 16777215))
    | 4 => decodeR w
    | 5 => keep w (.mem (finAt w 30 1) (finAt w 28 1) (finAt w 22 63) (finAt w 19 7) (finAt w 16 7) (finAt w 0 8191))
    | 6 => decodeS w
    | 7 => keep w (.moda (finAt w 28 7) (finAt w 0 8191))
    | _ => none

/-! ### Placement (R257, R261, R268, R295, R303) -/

/-- The instructions that count as branches. -/
def OInstr.isBranch : OInstr → Bool
  | .branch .. | .branchAp .. | .rts | .rti => true
  | _ => false

/-- REP, DO, LOCK, WAITTASK, EMIT and SLEEP, barred from delay slots, repetition and LOCK sequences. -/
def OInstr.isControl : OInstr → Bool
  | .rep _ | .repLc | .doImm .. | .doReg .. | .lock _ | .waittask | .emit | .sleep => true
  | _ => false

/-- Whether an instruction may be repeated by REP (R303). -/
def OInstr.repeatable : OInstr → Bool
  | .movcRead .. | .movcWrite .. | .abort => false
  | i => !i.isBranch && !i.isControl

/-- The mnemonic under which a word is issued: one per row of the command table. -/
inductive OMn where
  | alu (op : AluOp)
  | nop | rts | rti | waittask | emit | abort | sleep | kick | enddo | bexr | rep | repLc | lock | setipl
  | b | call | bAp | callAp | doLoop | ldi | movr | movc | mem | moda | asr | asl | norm | scale
deriving DecidableEq, Repr

/-- The mnemonic of an instruction. -/
def OInstr.mnemonic : OInstr → OMn
  | .alu op .. => .alu op
  | .nop => .nop | .rts => .rts | .rti => .rti | .waittask => .waittask | .emit => .emit | .abort => .abort
  | .sleep => .sleep | .kick => .kick | .enddo => .enddo | .bexr => .bexr
  | .rep _ => .rep | .repLc => .repLc | .lock _ => .lock | .setipl _ => .setipl
  | .branch call .. => if call = 1 then .call else .b
  | .branchAp call .. => if call = 1 then .callAp else .bAp
  | .doImm .. | .doReg .. => .doLoop
  | .ldi .. => .ldi | .movr .. => .movr
  | .movcRead .. | .movcWrite .. => .movc
  | .mem .. => .mem | .moda .. => .moda
  | .asr .. => .asr | .asl .. => .asl | .norm .. => .norm | .scale .. => .scale

/-- The mnemonic under which a word that R279 makes ILLEGAL is issued: the first of its class; NOP for reserved classes. -/
def illegalMnemonic (w : Nat) : OMn :=
  if w / 2 ^ 35 % 2 = 1 then .alu .move
  else match w / 2 ^ 31 % 16 with
    | 1 => .b
    | 2 => .doLoop
    | 3 => .ldi
    | 4 => .movr
    | 5 => .mem
    | 6 => .asr
    | 7 => .moda
    | _ => .nop

/-- The mnemonic under which a word is issued. -/
def mnemonicOf (w : Nat) : OMn :=
  match OInstr.decode w with
  | some i => i.mnemonic
  | none => illegalMnemonic w

end Sys2Proof.Machine
end

