-- ==== Sys2Proof/Machine/Operands.lean ====
section
/-! DEFINITION. Oboe operands: registers as a reader sees them in the pipeline, their moves, core memories, and address
generation (R247 to R260, R280, R281, R286, R287, R299). -/

namespace Sys2Proof.Machine

/-! ### Register file and pipeline (R248, R255) -/

def Rc.ac0 : Nat := 0x04
def Rc.ac1 : Nat := 0x05
def Rc.lc : Nat := 0x0C
def Rc.sr : Nat := 0x0D
def Rc.bex : Nat := 0x0E
def Rc.mxv : Nat := 0x0F
def Rc.mxi : Nat := 0x10
def Rc.ixc : Nat := 0x11
def Rc.ap (n : Nat) : Nat := 0x18 + n
def Rc.am (n : Nat) : Nat := 0x20 + n
def Rc.ab (n : Nat) : Nat := 0x28 + n
def Rc.al (n : Nat) : Nat := 0x30 + n

/-- Bits of SR (R249). -/
def Sr.c : Nat := 0
def Sr.z : Nat := 1
def Sr.n : Nat := 2
def Sr.e : Nat := 3
def Sr.v : Nat := 4
def Sr.lk : Nat := 9
def Sr.lkb : Nat := 10
def Sr.tv : Nat := 11
def Sr.fr : Nat := 12
def Sr.nmi : Nat := 13

/-- The reset values of R248. -/
def coreDefault (code : Nat) : Nat := if code = Rc.sr then 0x100 else if code = Rc.bex then 23 else 0

/-- A number with its bits [lo + width - 1 : lo] replaced. -/
def putNat (v lo width x : Nat) : Nat := v % 2 ^ lo + x % 2 ^ width * 2 ^ lo + v / 2 ^ (lo + width) * 2 ^ (lo + width)

/-- A register's value after a write (R259, R281). -/
def WriteOp.apply (v : Nat) : WriteOp → Nat
  | .put lo width x => putNat v lo width x
  | .minBex r => min v r

/-- A register as it stands after every write that has landed and been committed. -/
def Core.committed (c : Core) (code : Nat) : Nat := SMap.getD coreDefault c.file code

/-- A register set at once. -/
def Core.setNow (c : Core) (code v : Nat) : Core := { c with file := SMap.setD coreDefault c.file code v }

/-- Writes in the order in which they land. -/
def landOrder (a b : CoreWrite) : Bool := a.land ≤ b.land

/-- A register with those pending writes applied that the reader sees. -/
def Core.seen (c : Core) (code : Nat) (sees : CoreWrite → Bool) : Nat :=
  (sortBy landOrder (c.pend.filter (fun w => w.code = code && sees w))).foldl (fun v w => w.op.apply v) (c.committed code)

/-- LC as the loop hardware sees it in oc t: its own writes, by DO, loop tests and ENDDO, count at once (R262, R295). -/
def Core.loopCount (c : Core) (t : Nat) : Nat := c.seen Rc.lc (fun w => w.fwd || w.land < t)

/-- A register as a reader sees it that reads in oc tr: every write that landed in an earlier oc (R255). -/
def Core.readAt (c : Core) (code tr : Nat) : Nat := c.seen code (fun w => w.land < tr)

/-- An accumulator as a MAC, ALU or class-S operation in AG at oc t sees it: forwarded results up to the oc of its EX, other
writes as in RD (R255). -/
def Core.accAt (c : Core) (acc t : Nat) : Nat :=
  c.seen (Rc.ac0 + acc) (fun w => if w.fwd then w.land ≤ t + 2 else w.land < t + 1)

/-- Every write that landed before oc t committed. -/
def Core.commit (c : Core) (t : Nat) : Core :=
  let due := sortBy landOrder (c.pend.filter (fun w => w.land < t))
  { c with
    file := due.foldl (fun m w => SMap.setD coreDefault m w.code (w.op.apply (SMap.getD coreDefault m w.code))) c.file
    pend := c.pend.filter (fun w => t ≤ w.land) }

/-- A write put into the pipeline. -/
def Core.write (c : Core) (land code lo width v : Nat) : Core :=
  { c with pend := c.pend ++ [{ land := land, code := code, op := .put lo width v }] }

/-- LC written in WB by the loop hardware at an instruction in AG at oc t (R255, R262). -/
def Core.writeLoop (c : Core) (t v : Nat) : Core :=
  { c with pend := c.pend ++ [{ land := t + 3, code := Rc.lc, op := .put 0 16 v, fwd := true }] }

/-- A bit of SR as it stands. -/
def Core.srBit (c : Core) (i : Nat) : Bool := (c.committed Rc.sr).testBit i

/-- A bit of SR set at once. -/
def Core.setSr (c : Core) (i : Nat) (b : Bool) : Core := c.setNow Rc.sr (putNat (c.committed Rc.sr) i 1 (ofBool b))

/-- SR.IPL set at once. -/
def Core.setIpl (c : Core) (level : Nat) : Core := c.setNow Rc.sr (putNat (c.committed Rc.sr) 5 4 level)

/-- Flags written at the end of oc `land` (R285). -/
def Core.writeFlags (c : Core) (land : Nat) (f : Flags) : Core :=
  let one (c : Core) (i : Nat) (b : Option Bool) : Core := match b with
    | some b => c.write land Rc.sr i 1 (ofBool b)
    | none => c
  one (one (one (one (one c Sr.c f.c) Sr.z f.z) Sr.n f.n) Sr.e f.e) Sr.v (if f.v then some true else none)

/-! ### Moves to and from registers (R281) -/

/-- A register read as a 24-bit value in oc tr, and whether the read sets V (R259); pc is the reading instruction's. -/
def Core.readReg (c : Core) (code tr pc : Nat) : Nat × Bool :=
  let r (k : Nat) : Nat := c.readAt k tr
  if code = 4 || code = 5 then ((r code) / 2 ^ 24 % 2 ^ 24, guardUsed (r code))
  else if 6 ≤ code && code < 12 then
    let a := r (Rc.ac0 + (code - 6) / 3)
    match (code - 6) % 3 with
    | 0 => (unsigned 24 (signed 8 (a / 2 ^ 48)), false)
    | 1 => (a / 2 ^ 24 % 2 ^ 24, false)
    | _ => (a % 2 ^ 24, false)
  else if code = pcCode then (pc, false)
  else if 0x20 ≤ code && code < 0x28 then (unsigned 24 (signed 13 (r code)), false)
  else (r code, false)

/-- A 24-bit value written to a register at the end of oc `land` (R281). -/
def Core.writeReg (c : Core) (code v land : Nat) : Core :=
  if code < 4 || code = Rc.mxv then c.write land code 0 24 v
  else if code = 4 || code = 5 then c.write land code 0 56 (unsigned 56 (aligned v))
  else if code < 12 then
    let a := Rc.ac0 + (code - 6) / 3
    match (code - 6) % 3 with
    | 0 => c.write land a 48 8 v
    | 1 => c.write land a 24 24 v
    | _ => c.write land a 0 24 v
  else if code = Rc.lc then c.write land code 0 16 v
  else if code = Rc.sr then
    let c := c.write land code 0 5 v
    let c := c.write land code 5 4 (min (v / 2 ^ 5 % 16) 8)
    (c.write land code Sr.fr 1 (v / 2 ^ Sr.fr)).write land code Sr.lkb 1 0
  else if code = Rc.bex then c.write land code 0 5 (min (v % 32) 23)
  else if code = pcCode then c
  else c.write land code 0 13 v

/-! ### Address generation (R260) -/

/-- A pointer updated by m with its base and length (R260). -/
def updatePointer (p : Nat) (m : Int) (base len : Nat) : Nat :=
  let q := (p : Int) + m
  if len = 0 then unsigned 13 q
  else if q ≥ (base : Int) + len then unsigned 13 (q - len)
  else if q < base then unsigned 13 (q + len)
  else unsigned 13 q

/-- APn updated by m, as an instruction in AG at oc t computes it. -/
def Core.stepped (c : Core) (n t : Nat) (m : Int) : Nat :=
  updatePointer (c.readAt (Rc.ap n) t) m (c.readAt (Rc.ab n) t) (c.readAt (Rc.al n) t)

/-- The modifier that MOD names for pointer n: none, +1, -1 or AMn (R286). -/
def Core.modifier (c : Core) (n t : Nat) (m : Nat) : Option Int :=
  match m with
  | 0 => none
  | 1 => some 1
  | 2 => some (-1)
  | _ => some (signed 13 (c.readAt (Rc.am n) t))

/-- APn post-modified in AG at oc t. -/
def Core.postModify (c : Core) (n t : Nat) (m : Option Int) : Core :=
  match m with
  | none => c
  | some m => c.write t (Rc.ap n) 0 13 (c.stepped n t m)

/-- The address of a class-L instruction and the pointer's modification (R299). -/
def Core.memAddress (c : Core) (t mode n addr : Nat) : Nat × Option Int :=
  let p := c.readAt (Rc.ap n) t
  match mode with
  | 0 => (addr, none)
  | 1 => (p, none)
  | 2 => (p, some 1)
  | 3 => (p, some (-1))
  | 4 => (p, some (signed 13 (c.readAt (Rc.am n) t)))
  | 5 => (c.stepped n t (signed 13 addr), none)
  | _ => (p, some (signed 13 addr))

/-! ### Core records and memories (R247, R250 to R253) -/

/-- The key of core n of a die. -/
def coreKey (d n : Nat) : Nat := 64 * d + n

/-- A core. -/
def Chip.core (s : Chip) (d n : Nat) : Core := s.cores.get (coreKey d n)

/-- A core changed. -/
def Chip.onCore (s : Chip) (d n : Nat) (f : Core → Core) : Chip := { s with cores := s.cores.upd (coreKey d n) f }

def Obe.reset : Nat := 0
def Obe.run : Nat := 1
def Obe.waittask : Nat := 2
def Obe.sleep : Nat := 3
def Obe.halted : Nat := 4
def Obe.faultHalt : Nat := 5

/-- A core's state code (R245). -/
def Chip.coreState (s : Chip) (d n : Nat) : Nat := s.fld d (F.OBE_STATUS_STATE n)

/-- A core enters a state. -/
def Chip.setCoreState (s : Chip) (d n st : Nat) : Chip := s.setFld d (F.OBE_STATUS_STATE n) st

/-- The key of memory m (0 P, 1 X, 2 Y) of a core, and of one of its words. -/
def coreMemKey (d n m : Nat) : Nat := coreKey d n * 3 + m
def coreWordKey (d n m a : Nat) : Nat := coreMemKey d n m * 8192 + a % 8192

/-- The 3 check bits of a sample: bit j is the parity of sample bits 3m + j (R251). -/
def checkSample (v : Nat) : BitVec 4 :=
  BitVec.ofNat 4 (((List.range 8).foldl (fun c m => c ^^^ (v >>> (3 * m))) 0) % 8)

/-- The check bits of a word of memory m. -/
def memCheck (m : Nat) (v : W36) : BitVec 4 := if m = 0 then checkBits v else checkSample v.toNat

/-- All check bits of memory m inverted: the syndrome of a word stored poisoned (R252). -/
def memPoison (m : Nat) : BitVec 4 := if m = 0 then 15#4 else 7#4

/-- What a word of memory m reads as, and its syndrome (R251). -/
def Chip.coreWord (s : Chip) (d n m a : Nat) : Nat × BitVec 4 :=
  let w := s.coreMem.get (coreWordKey d n m a)
  if w.valid then (w.data.toNat, memCheck m w.data ^^^ w.chk) else (0, 0)

/-- A word of memory m written, changed by an armed flip of KIND 2 to 4; poisoned where asked (R252, R499). -/
def Chip.writeCoreWord (s : Chip) (d n m a v : Nat) (poison : Bool) : Chip :=
  let data := if m = 0 then word v else word (v % 2 ^ 24)
  let chk := if poison then memCheck m data ^^^ memPoison m else memCheck m data
  let put (s : Chip) (data : W36) (chk : BitVec 4) : Chip :=
    { s with coreMem := s.coreMem.set (coreWordKey d n m a) { data := data, chk := chk, valid := true } }
  if s.flipArmed d (2 + m) n then
    let mask := s.fld d F.MIE_FLIPMASK_MASK
    (put s (data ^^^ (if m = 0 then word mask else word (mask % 2 ^ 24)))
      (chk ^^^ (BitVec.ofNat 4 (s.fld d F.MIE_FLIP_CHK_CHK) &&& memPoison m))).flipDone d
  else put s data chk

/-- A read by any path found a failing word not stored poisoned: OBE_MEM_STATUS, and the remap rule of R79 (R252, R274). -/
def Chip.coreMemFail (s : Chip) (d n m a : Nat) : Chip :=
  let s := s.setFlag d (F.OBE_MEM_STATUS_CHECK_SEEN n) true
  let s := s.setFld d (F.OBE_MEM_STATUS_MEM n) m
  let s := s.setFld d (F.OBE_MEM_STATUS_ADDR n) a
  let s := (s.satFld d (F.OBE_MEM_STATUS_COUNT n) 1).countCore d n 44 1
  let key := coreMemKey d n m
  let r := s.coreMems.get key
  if r.lastFail = some a then
    if r.remap.length < 8 then
      { s with
        coreMems := s.coreMems.set key { remap := r.remap ++ [{ addr := a, field := true }], lastFail := none }
        coreMem := s.coreMem.set (coreWordKey d n m a) { data := 0, chk := memPoison m, valid := true } }
    else s.logEv d Ev.ramRemapFull (Config.remapFullDetail key a).toNat
  else { s with coreMems := s.coreMems.set key { r with lastFail := some a } }

/-- The core's own stores that landed before oc t reach memory (R253). -/
def Chip.commitStores (s : Chip) (d n t : Nat) : Chip :=
  let c := s.core d n
  let due := sortBy (fun (a b : CoreStore) => decide (a.land ≤ b.land)) (c.stores.filter (fun w => w.land < t))
  if due.isEmpty then s
  else (s.each due (fun s w => s.writeCoreWord d n w.mem w.addr w.value false)).onCore d n (fun c =>
    { c with stores := c.stores.filter (fun w => t ≤ w.land) })

/-- A word read through the shared port in the core's present oc: its value, with every store of an earlier oc, and whether it
fails (R250, R253, R274). -/
def Chip.sharedRead (s : Chip) (d n m a : Nat) : Chip × Nat × Bool :=
  let s := s.commitStores d n (s.core d n).cycle
  let (v, syn) := s.coreWord d n m a
  let s := s.countCore d n (if m = 0 then 26 else if m = 1 then 24 else 25) 1
  if syn = 0 then (s, v, false)
  else (if syn = memPoison m then s else s.coreMemFail d n m a, v, true)

/-- A word written through the shared port in the core's present oc: after every store of that oc or an earlier one (R250, R252,
R253). -/
def Chip.sharedWrite (s : Chip) (d n m a v : Nat) (poison : Bool) : Chip :=
  let s := s.commitStores d n ((s.core d n).cycle + 1)
  (s.countCore d n (if m = 0 then 26 else if m = 1 then 24 else 25) 1).writeCoreWord d n m a v poison

/-- Every valid bit of a core's memory cleared (R247, R498). -/
def Chip.clearCoreMem (s : Chip) (d n m : Nat) : Chip :=
  { s with coreMem := SMap.dropRange s.coreMem (coreMemKey d n m * 8192) ((coreMemKey d n m + 1) * 8192) }

/-- The core's own stores that landed before oc t reach memory; its register writes are committed (R253, R255). -/
def Chip.commitCore (s : Chip) (d n t : Nat) : Chip := (s.commitStores d n t).onCore d n (fun c => c.commit t)

/-- Every earlier instruction completes: all writes land, and the next instruction enters AG after them (R265, R289). -/
def Chip.drainCore (s : Chip) (d n : Nat) : Chip :=
  let c := s.core d n
  let last := c.pend.foldl (fun m w => max m (w.land + 1)) (c.stores.foldl (fun m w => max m (w.land + 1)) c.cycle)
  (s.commitCore d n last).onCore d n (fun c => { c with cycle := last })

/-- A sample of X or Y as the core reads it in oc tr: its own landed stores stand over memory (R255). -/
def Chip.coreSample (s : Chip) (d n m a tr : Nat) : Nat × BitVec 4 :=
  let mine := sortBy (fun (x y : CoreStore) => decide (x.land ≤ y.land))
    ((s.core d n).stores.filter (fun w => w.mem = m && w.addr = a % 8192 && w.land < tr))
  match mine.getLast? with
  | some w => (w.value, 0)
  | none => s.coreWord d n m a

end Sys2Proof.Machine
end

