-- ==== Sys2Proof/Machine/Pmc.lean ====
section
/-! DEFINITION. Performance-counter blocks of the cores and of the die (R634 to R642). A block is named by its core, or by
none for the die's PMC_ block. Its counters are numbered 0 the cycle counter, 1 to 8 the SELECT counters, 9 to 56 the EVERY
counters. -/

namespace Sys2Proof.Machine

/-- The key of a counter block. -/
def pmcKey (d : Nat) : Option Nat → Nat
  | some n => 64 * d + n
  | none => 256 + d

/-- A block's fields and registers, of a core or of the die. -/
def pmcMode : Option Nat → Fld
  | some n => F.OBE_PMC_CFG_MODE n
  | none => F.PMC_CFG_MODE

def pmcHi : Option Nat → Fld
  | some n => F.OBE_PMC_HI_HI n
  | none => F.PMC_HI_HI

def pmcOvfCnt : Option Nat → Fld
  | some n => F.OBE_PMC_OVF_CNT n
  | none => F.PMC_OVF_CNT

def pmcOvfCyc : Option Nat → Fld
  | some n => F.OBE_PMC_OVF_CYC n
  | none => F.PMC_OVF_CYC

def pmcCfgReg : Option Nat → Nat
  | some n => Reg.OBE_PMC_CFG n
  | none => Reg.PMC_CFG

/-- The INVALID bit of an event: its field of one bit. -/
def pmcInvalid (blk : Option Nat) (ev : Nat) : Fld :=
  let lo := match blk with
    | some n => Reg.OBE_PMC_INV_LO n
    | none => Reg.PMC_INV_LO
  if ev < 36 then ⟨lo, ev, 1⟩ else ⟨lo + 1, ev - 36, 1⟩

/-- A counter block. -/
def Chip.pmcBlock (s : Chip) (d : Nat) (blk : Option Nat) : Pmc := s.pmc.get (pmcKey d blk)

/-- A counter block changed. -/
def Chip.onPmc (s : Chip) (d : Nat) (blk : Option Nat) (f : Pmc → Pmc) : Chip := { s with pmc := s.pmc.upd (pmcKey d blk) f }

/-- Every counter, INVALID and OVF bit of a block zeroed (R634). -/
def Chip.pmcClear (s : Chip) (d : Nat) (blk : Option Nat) : Chip :=
  let s := s.onPmc d blk (fun _ => {})
  let s := (s.setFld d (pmcOvfCnt blk) 0).setFld d (pmcOvfCyc blk) 0
  let inv := (pmcInvalid blk 0).off
  (s.setReg d inv 0).setReg d (inv + 1) 0

/-- A write of OBE_PMC_CFG or PMC_CFG: a change of MODE, or CLEAR = 1, zeroes the block (R634). -/
def Chip.pmcCfgWrite (s : Chip) (d : Nat) (blk : Option Nat) (v : W36) : Chip :=
  let clear := bits v 0 1 != s.fld d (pmcMode blk) || bit v 2
  let s := s.plainWrite d (pmcCfgReg blk) v
  if clear then s.pmcClear d blk else s

/-- An EVERY word that fails its check is restarted and its event reported once (R639). -/
def Chip.pmcLost (s : Chip) (d : Nat) (blk : Option Nat) (ev : Nat) : Chip :=
  if (s.pmcBlock d blk).bad.contains ev then
    let s := s.onPmc d blk (fun p => { p with
      words := p.words.set ev 0, fast := p.fast.set ev 0, bad := p.bad.filter (· != ev) })
    if s.flag d (pmcInvalid blk ev) then s
    else (s.setFlag d (pmcInvalid blk ev) true).logEv d Ev.pmcLost (blk.getD 0 + ev * 64 + ofBool blk.isNone * 2 ^ 12)
  else s

/-- The flush engine visits an event (R638). -/
def Chip.pmcFlush (s : Chip) (d : Nat) (blk : Option Nat) (ev : Nat) : Chip :=
  if s.flag d (pmcMode blk) then s
  else (s.pmcLost d blk ev).onPmc d blk (fun p => { p with
    words := p.words.set ev ((p.words.get ev + p.fast.get ev) % 2 ^ 40), fast := p.fast.set ev 0 })

/-- The value of counter i as the mode shows it; a counter of the other mode reads as zero (R638, R641). -/
def Pmc.value (p : Pmc) (select : Bool) (i : Nat) : Nat :=
  if select then (if i = 0 then p.cyc else if i < 9 then p.cnt.get (i - 1) else 0)
  else if 9 ≤ i then (p.words.get (i - 9) + p.fast.get (i - 9)) % 2 ^ 40 else 0

/-- A read of counter i: bits [35:0]; an active read copies the upper bits into HI (R639, R641). -/
def Chip.pmcRead (s : Chip) (d : Nat) (blk : Option Nat) (i : Nat) (active : Bool) : Chip × W36 :=
  let select := s.flag d (pmcMode blk)
  let s := if active && !select && 9 ≤ i then s.pmcLost d blk (i - 9) else s
  let v := (s.pmcBlock d blk).value select i
  (if active then s.setFld d (pmcHi blk) (v / 2 ^ 36) else s, word v)

/-- A write of counter i: HI times 2^36 plus the written value (R641). -/
def Chip.pmcWrite (s : Chip) (d : Nat) (blk : Option Nat) (i : Nat) (v : W36) : Chip :=
  let select := s.flag d (pmcMode blk)
  let x := s.fld d (pmcHi blk) * 2 ^ 36 + v.toNat
  if select then
    (if i = 0 then s.onPmc d blk (fun p => { p with cyc := x % 2 ^ 64 })
     else if i < 9 then s.onPmc d blk (fun p => { p with cnt := p.cnt.set (i - 1) (x % 2 ^ 48) })
     else s)
  else if 9 ≤ i then s.onPmc d blk (fun p => { p with
    words := p.words.set (i - 9) (x % 2 ^ 40), fast := p.fast.set (i - 9) 0, bad := p.bad.filter (· != i - 9) })
  else s

/-- A SELECT counter that has wrapped is reported in OVF, and to the core where OVF_IRQ asks for it (R640). -/
def Chip.pmcOverflow (s : Chip) (d : Nat) (blk : Option Nat) (i : Nat) : Chip :=
  if (s.pmcBlock d blk).wrapped.contains i then
    let s := s.onPmc d blk (fun p => { p with wrapped := p.wrapped.filter (· != i) })
    let s := s.setFld d (pmcOvfCnt blk) (s.fld d (pmcOvfCnt blk) ||| 2 ^ i)
    match blk with
    | some n =>
      if s.flag d (F.OBE_PMC_SEL_OVF_IRQ n i) then
        s.setFld d (F.OBE_INT_PEND_PEND n) (s.fld d (F.OBE_INT_PEND_PEND n) ||| 2 ^ 6)
      else s
    | none => s
  else s

/-- k cycles counted by the SELECT cycle counter of a block, whose wrap sets OVF bit 8 (R634, R635, R640). -/
def Chip.pmcCycles (s : Chip) (d : Nat) (blk : Option Nat) (k : Nat) : Chip :=
  if s.flag d (pmcMode blk) then
    let v := (s.pmcBlock d blk).cyc + k
    let s := s.onPmc d blk (fun p => { p with cyc := v % 2 ^ 64 })
    if 2 ^ 64 ≤ v then s.setFld d (pmcOvfCyc blk) 1 else s
  else s

/-- k oc of a core's clock, counted under the event of its state (0 RUN, 15 WAITTASK, 16 SLEEP) and by the SELECT cycle counter
(R635, R636). -/
def Chip.coreOcs (s : Chip) (d n ev k : Nat) : Chip :=
  let st := s.fld d (F.OBE_STATUS_STATE n)
  let s := s.countCore d n ev k
  if s.flag d (F.OBE_PMC_CFG_EN n) && (st = 1 || st = 2 || st = 3) then s.pmcCycles d (some n) k else s

/-- A write of OBE_PMC_USER, accepted from a REG_WRITE command of OWNER authority or a DBG WRITE, else refused (R642). -/
def Chip.pmcUserWrite (s : Chip) (d n : Nat) (v : W36) (trusted : Bool) : Chip :=
  if trusted then s.plainWrite d (Reg.OBE_PMC_USER n) v else s.setFlag d (F.OBE_PMC_CFG_REFUSED n) true

/-- The counter at an offset relative to a block's first register, if any. -/
def pmcCounterAt (rel : Nat) : Option Nat :=
  if rel = 8 then some 0
  else if 0x11 ≤ rel && rel < 0x21 && rel % 2 = 1 then some (1 + (rel - 0x11) / 2)
  else if 0x40 ≤ rel && rel < 0x70 then some (9 + (rel - 0x40))
  else none

/-- A read of a register of a counter block at a relative offset. -/
def Chip.pmcRegRead (s : Chip) (d : Nat) (blk : Option Nat) (rel : Nat) (active : Bool) : Chip × W36 :=
  match pmcCounterAt rel with
  | some i => s.pmcRead d blk i active
  | none => (s, s.reg d (pmcCfgReg blk + rel))

/-- A write of a register of a counter block at a relative offset. -/
def Chip.pmcRegWrite (s : Chip) (d : Nat) (blk : Option Nat) (rel : Nat) (v : W36) (trusted : Bool) : Chip :=
  match pmcCounterAt rel, blk with
  | some i, _ => s.pmcWrite d blk i v
  | none, some n =>
    if rel = 0 then s.pmcCfgWrite d blk v
    else if rel = 1 then s.pmcUserWrite d n v trusted
    else s.plainWrite d (Reg.OBE_PMC_CFG n + rel) v
  | none, none => if rel = 0 then s.pmcCfgWrite d blk v else s.plainWrite d (Reg.PMC_CFG + rel) v

/-- PMC_CFG_WRITE (R634). -/
def execPmcCfgWrite (d : Die) (blk : Option (Fin 64)) (v : W36) (s : State) : Out :=
  s.onDie d (fun c => c.pmcCfgWrite d (blk.map (·.val)) v)

/-- PMC_COUNTER_READ (R641). -/
def execPmcCounterRead (d : Die) (blk : Option (Fin 64)) (i : Fin 57) (s : State) : Out :=
  s.onDie d (fun c =>
    let (c, v) := c.pmcRead d (blk.map (·.val)) i true
    { c with returned := [v] })

/-- PMC_COUNTER_WRITE (R641). -/
def execPmcCounterWrite (d : Die) (blk : Option (Fin 64)) (i : Fin 57) (v : W36) (s : State) : Out :=
  s.onDie d (fun c => c.pmcWrite d (blk.map (·.val)) i v)

/-- PMC_FLUSH (R638). -/
def execPmcFlush (d : Die) (blk : Option (Fin 64)) (ev : Fin 48) (s : State) : Out :=
  s.onDie d (fun c => c.pmcFlush d (blk.map (·.val)) ev)

/-- PMC_OVERFLOW (R640). -/
def execPmcOverflow (d : Die) (blk : Option (Fin 64)) (i : Fin 8) (s : State) : Out :=
  s.onDie d (fun c => c.pmcOverflow d (blk.map (·.val)) i)

/-- OBE_PMC_USER_WRITE: a write of OBE_PMC_USER; `trusted` tells whether it is an OWNER's REG_WRITE command or a DBG WRITE
(R642). -/
def execObePmcUserWrite (d : Die) (n : Fin 64) (v : W36) (trusted : Bool) (s : State) : Out :=
  s.onDie d (fun c => c.pmcUserWrite d n v trusted)

end Sys2Proof.Machine
end

