-- ==== Sys2Proof/Machine/OboeCtl.lean ====
section
/-! DEFINITION. Oboe core states, task interface, NMI and traps, DMA, the OBOE port and the OBE_ registers (chapter 8). -/

namespace Sys2Proof.Machine

/-- Whether a core's clock runs: its die runs and its quad is in RUN (R537). -/
def Chip.coreClocked (s : Chip) (d n : Nat) : Bool := s.runs d && !s.asleep d (Dom.quad (n / 4))

/-- Whether the die is past stage 3 of the release (R187). -/
def Chip.pastStage3 (s : Chip) (d : Nat) : Bool := 3 ≤ s.dieStage d

/-- Interrupt source of a core pending (R263). -/
def Chip.raiseInt (s : Chip) (d n source : Nat) : Chip :=
  s.setFld d (F.OBE_INT_PEND_PEND n) (s.fld d (F.OBE_INT_PEND_PEND n) ||| 2 ^ source)

/-! ### Task interface (R246, R271 to R273, R321, R330) -/

/-- An EMIT packet to the die's Bellows. -/
def Chip.emitPacket (s : Chip) (d flow w2 : Nat) (p0 p1 p2 : W36) : Packet :=
  { dev := s.ownDevice, router := gatewayOf d, port := 3, typ := Typ.emit, flow := flow,
    body := [{ w2 := word w2, w3 := p0, w4 := p1, w5 := p2 }] }

/-- An EMIT packet numbered as the core's latest (R321). -/
def Core.numbered (c : Core) (p : Packet) : Packet := { p with origin := .emit (c.emits + 1) }

/-- A packet of the task interface leaves at once, or waits for room in the port's FIFO and behind the tokens still unsent (R192,
R272). -/
def Chip.interfaceSend (s : Chip) (d n : Nat) (p : Packet) : Chip :=
  let p := (s.core d n).numbered p
  let s := s.onCore d n (fun c => { c with emits := c.emits + 1 })
  if (s.core d n).tokens.isEmpty && s.hasRoom (coreRouter d n) 2 then s.submit (coreRouter d n) 2 p
  else s.onCore d n (fun c => { c with tokens := c.tokens ++ [p] })

/-- Attempt and sequence fields of an EMIT's word 2 (R330). -/
def taskBits (t : HeldTask) : Nat := t.attempt * 2 ^ 18 + t.seq % 8192 * 2 ^ 23

/-- The held task is aborted with a cause; the core holds none after it (R246, R273, R275). -/
def Chip.abortTask (s : Chip) (d n cause : Nat) : Chip :=
  match (s.core d n).task with
  | some t =>
    let s := s.onCore d n (fun c => { c with task := none, lastFailed := false })
    s.interfaceSend d n (s.emitPacket d t.flow (2 ^ 16 + taskBits t) (word cause) 0 0)
  | none => s

/-- READY is announced (R321). -/
def Chip.announceReady (s : Chip) (d n : Nat) : Chip := s.interfaceSend d n (s.emitPacket d 0 (2 * 2 ^ 16) 0 0 0)

/-- Whether a waiting core announces READY: a worker without a task that has received no DISPATCH since RESET, or whose last
EMIT or ABORT was reported failed (R321). -/
def Chip.readyDue (s : Chip) (d n : Nat) : Bool :=
  let c := s.core d n
  s.flag d (F.OBE_CTRL_WORKER n) && c.task.isNone && (!c.gotDispatch || c.lastFailed)

/-! ### Core states (R245 to R247) -/

/-- The core enters RUN from RESET: registers take the values of R248, PC := OBE_START. -/
def Chip.startCore (s : Chip) (d n : Nat) : Chip :=
  let pc := s.fld d (F.OBE_START_ADDR n)
  let s := s.onCore d n (fun c => {
    pc := pc, agPc := pc, cycle := c.cycle, wdogBase := c.wdogBase, wdogLeft := c.wdogLeft, tokens := c.tokens, emits := c.emits, dma := c.dma, reads := c.reads,
    writing := c.writing })
  s.setCoreState d n Obe.run

/-- The core leaves RESET where OBE_CTRL.RUN = 1 and the die is past stage 3 (R245). -/
def Chip.tryStart (s : Chip) (d n : Nat) : Chip :=
  s.when (s.coreState d n == Obe.reset && s.flag d (F.OBE_CTRL_RUN n) && s.pastStage3 d) (fun s => s.startCore d n)

/-- The core enters RESET; a held task is aborted with cause RESET unless the die itself is reset, and a halted core's worker is
HELD no longer (R245, R246, R320). -/
def Chip.resetCore (s : Chip) (d n : Nat) (abort : Bool) : Chip :=
  let s := if abort then s.abortTask d n 2 else s
  let s := s.when (s.coreState d n == Obe.halted) (fun s => s.unholdWorker d n)
  let s := s.onCore d n (fun c => { ((c.setSr Sr.tv false).setSr Sr.lk false) with
    task := none, parts := [], areaReady := false, gotDispatch := false, pend := [], stores := [], slots := 0,
    target := none, rep := 0, lock := 0, sys := [], loops := [], nmiWdog := false, nmiClk := false, wdogSeen := false,
    inPoison := false, haltAsked := false, stepping := false, hlatch := 0 })
  s.setCoreState d n Obe.reset

/-! ### NMI and FAULT_HALT (R264 to R267) -/

/-- The handler address of a vector (R263). -/
def Chip.vectorAddr (s : Chip) (d n v : Nat) : Nat :=
  (s.coreWord d n 0 (s.fld d (F.OBE_VBASE_BASE n) + v)).1 % 8192

/-- The syndrome of a vector word, 0 where it passes its check (R251). -/
def Chip.vectorCheck (s : Chip) (d n v : Nat) : BitVec 4 := (s.coreWord d n 0 (s.fld d (F.OBE_VBASE_BASE n) + v)).2

/-- A LOCK sequence, delay slots and repetition end (R266, R268). -/
def Core.breakOff (c : Core) : Core := { c.setSr Sr.lk false with lock := 0, slots := 0, target := none, rep := 0 }

/-! ### POISON (R274, R275) -/

/-- The part handles a POISON trap itself: a held task is aborted, both stacks emptied, and the core resumes at OBE_START; with
SR.TV = 0 there is nothing to abort (R275). -/
def Chip.poisonResume (s : Chip) (d n : Nat) : Chip :=
  let s := s.when ((s.core d n).srBit Sr.tv) (fun s => s.abortTask d n 1)
  let start := s.fld d (F.OBE_START_ADDR n)
  ((s.onCore d n (fun c => { c.setNow Rc.sr 0x100 with
    sys := [], loops := [], inPoison := false, pc := start, cycle := c.cycle + 6 })).setCoreState d n Obe.run).coreOcs d n 0 6

/-- OBE_TRAP and OBE_POISON of a word of memory m at a, read at the instruction at pc; a check failure is noted in OBE_MEM_STATUS
too (R274). -/
def Chip.recordTrap (s : Chip) (d n pc m a : Nat) (syn : BitVec 4) : Chip :=
  let stored := decide (syn = memPoison m)
  let s := if stored then s else s.coreMemFail d n m a
  let s := s.setReg d (Reg.OBE_TRAP n) (word (pc + a % 8192 * 2 ^ 13 + m * 2 ^ 26 + ofBool stored * 2 ^ 28 + 2 ^ 29))
  let s := s.logEv d Ev.obePoison (n + bits (s.reg d (Reg.OBE_TRAP n)) 0 29 * 2 ^ 6)
  (s.countCore d n 14 1).countCore d n 47 1

/-- A POISON trap at the instruction at pc: a read of memory m at a, an instruction fetch or the fetch of a vector word failed. A
vector-1 word that fails in its turn leaves the part's own handling (R274, R275, log 210). -/
def Chip.readTrap (s : Chip) (d n pc m a : Nat) (syn : BitVec 4) : Chip :=
  let s := (((s.drainCore d n).recordTrap d n pc m a syn).onCore d n (fun c => c.breakOff))
  if !s.flag d (F.OBE_CTRL_POISON_USER n) then s.poisonResume d n
  else
    let bad := s.vectorCheck d n 1
    if bad != 0 then (s.recordTrap d n pc 0 (s.fld d (F.OBE_VBASE_BASE n) + 1) bad).poisonResume d n
    else
      let v := s.vectorAddr d n 1
      ((s.onCore d n (fun c => { c.setIpl 8 with
        pc := v, inPoison := true, poisonAt := c.sys.length, cycle := c.cycle + 6 })).setCoreState d n Obe.run).coreOcs d n 0 6

/-- Handler v entered by f where its vector word passes; a POISON trap at the instruction at pc where it does not (R263, R274). -/
def Chip.viaVector (s : Chip) (d n pc v : Nat) (f : Chip → Nat → Chip) : Chip :=
  let bad := s.vectorCheck d n v
  if bad != 0 then s.readTrap d n pc 0 (s.fld d (F.OBE_VBASE_BASE n) + v) bad else f s (s.vectorAddr d n v)

/-- The core goes to FAULT_HALT (R245, R267). -/
def Chip.faultHalt (s : Chip) (d n : Nat) : Chip :=
  let s := s.setFlag d (F.OBE_NMI_CAUSE_FAULT_HALT n) true
  let s := s.logEv d Ev.obeFaultHalt (n + bits (s.reg d (Reg.OBE_NMI_CAUSE n)) 0 4 * 2 ^ 6)
  let s := s.abortTask d n (Config.faultAbortCause (coreKey d n)).val
  (s.onCore d n (fun c => c.breakOff.setSr Sr.tv false)).setCoreState d n Obe.faultHalt

/-- Entry into the NMI: return address and SR pushed, SR.NMI and IPL 8 set, vector 0 (R264, R266). -/
def Chip.enterNmi (s : Chip) (d n ret : Nat) (wdog : Bool) : Chip :=
  let s := s.drainCore d n
  let s := s.countCore d n 13 1
  s.viaVector d n ret 0 (fun s pc => ((s.onCore d n (fun c =>
    let c := c.breakOff
    let c := { c with sys := (ret, c.committed Rc.sr) :: c.sys, hlatch := 0, wdogSeen := wdog, pc := pc, cycle := c.cycle + 6 }
    (c.setSr Sr.nmi true).setIpl 8)).setCoreState d n Obe.run).coreOcs d n 0 6)

/-- A STACK or ILLEGAL fault at an instruction, which has no effect (R257, R266, R267). -/
def Chip.coreFault (s : Chip) (d n pc : Nat) (stack : Bool) : Chip :=
  let s := s.drainCore d n
  let s := s.setFlag d (if stack then F.OBE_NMI_CAUSE_STACK n else F.OBE_NMI_CAUSE_ILLEGAL n) true
  let s := (s.setFld d (F.OBE_NMI_CAUSE_PC n) pc).countCore d n 47 1
  if (s.core d n).srBit Sr.nmi then s.faultHalt d n
  else
    let s := if 16 ≤ (s.core d n).sys.length then s.setFlag d (F.OBE_NMI_CAUSE_STACK n) true else s
    s.enterNmi d n pc false

/-- Whether acceptance is held off at the next instruction: a delay slot, a repetition, a LOCK sequence (R264). -/
def Core.heldOff (c : Core) : Bool := c.slots != 0 || c.rep != 0 || c.lock != 0

/-- Whether a core can accept an interrupt or NMI now. -/
def Chip.canAccept (s : Chip) (d n : Nat) : Bool :=
  let st := s.coreState d n
  s.coreClocked d n && (st = Obe.run || st = Obe.waittask || st = Obe.sleep) && !(s.core d n).heldOff && !(s.core d n).stepping && !(s.core d n).haltAsked

/-- The pending, enabled source of highest level at least IPL, the lowest number on a tie: its number and level (R263). -/
def Chip.wantedInt (s : Chip) (d n ipl : Nat) : Option (Nat × Nat) :=
  let pend := s.fld d (F.OBE_INT_PEND_PEND n)
  let en := s.fld d (F.OBE_INT_EN n)
  let levels := s.fld d (F.OBE_INT_LEVEL n)
  (List.range 8).foldl (fun best i =>
    let level := levels / 2 ^ (3 * i) % 8
    if pend.testBit i && en.testBit i && ipl ≤ level then
      match best with
      | some (_, l) => if l < level then some (i, level) else best
      | none => some (i, level)
    else best) none

/-- An interrupt accepted (R263 to R265). -/
def Chip.acceptInt (s : Chip) (d n : Nat) : Chip :=
  if !s.canAccept d n then s
  else
    let c := s.core d n
    match s.wantedInt d n (c.readAt Rc.sr c.cycle / 2 ^ 5 % 16) with
    | none => s
    | some (src, level) =>
      let t := c.cycle
      if 16 ≤ c.sys.length then s.coreFault d n c.pc true
      else
        let s := (s.drainCore d n).countCore d n 12 1
        s.viaVector d n c.pc (2 + src) (fun s pc => ((s.onCore d n (fun c =>
          let c := { c with sys := (c.pc, c.committed Rc.sr) :: c.sys, hlatch := 0, pc := pc, cycle := max c.cycle (t + 6) }
          c.setIpl (level + 1))).setCoreState d n Obe.run).coreOcs d n 0 6)

/-- INTERRUPT_ACCEPT (R263). -/
def execInterruptAccept (d : Die) (n : Fin 64) (s : State) : Out := s.onDie d (fun c => c.acceptInt d n)

/-- A recorded WDOG or CLKFAIL cause is taken (R266, R267); a push beyond 16 entries is a STACK fault instead. -/
def Chip.takeNmi (s : Chip) (d n : Nat) : Chip :=
  let c := s.core d n
  if !s.canAccept d n || !(c.nmiWdog || c.nmiClk) || (c.readAt Rc.sr c.cycle).testBit Sr.nmi then s
  else if 16 ≤ c.sys.length then s.coreFault d n c.pc true
  else
    let s := s.onCore d n (fun c => if c.nmiWdog then { c with nmiWdog := false } else { c with nmiClk := false })
    s.enterNmi d n c.pc c.nmiWdog

/-- NMI_ENTRY (R266). -/
def execNmiEntry (d : Die) (n : Fin 64) (s : State) : Out := s.onDie d (fun c => c.takeNmi d n)

/-- The watchdog's full period in oc (R269). -/
def Chip.wdogPeriod (s : Chip) (d n : Nat) : Nat := 1024 * max 1 (s.fld d (F.OBE_WDOG_PERIOD n))

/-- The oc the watchdog has left: it counts with the core's oc while EN = 1, and is frozen otherwise (R269). -/
def Chip.wdogNow (s : Chip) (d n : Nat) : Nat :=
  let c := s.core d n
  if s.flag d (F.OBE_WDOG_EN n) then c.wdogLeft - (c.cycle - c.wdogBase) else c.wdogLeft

/-- The watchdog reloaded (R269). -/
def Chip.reloadWdog (s : Chip) (d n : Nat) : Chip :=
  (s.onCore d n (fun c => { c with wdogBase := c.cycle, wdogLeft := s.wdogPeriod d n })).countCore d n 42 1

/-- The watchdog reaches zero: WDOG is raised and the period reloaded; a second expiry under SR.NMI halts the core (R267,
R269). -/
def Chip.wdogExpire (s : Chip) (d n : Nat) : Chip :=
  if s.coreClocked d n && s.flag d (F.OBE_WDOG_EN n) && s.coreState d n == Obe.run then
    let s := (s.setFlag d (F.OBE_NMI_CAUSE_WDOG n) true).reloadWdog d n
    let c := s.core d n
    if c.srBit Sr.nmi && c.wdogSeen then (s.drainCore d n).faultHalt d n
    else s.onCore d n (fun c => { c with nmiWdog := true, wdogSeen := c.wdogSeen || c.srBit Sr.nmi })
  else s

/-- WATCHDOG_EXPIRE (R269). -/
def execWatchdogExpire (d : Die) (n : Fin 64) (s : State) : Out := s.onDie d (fun c => c.wdogExpire d n)

/-- CLKFAIL raised in a core that is past RESET (R266). -/
def Chip.clkfailNmi (s : Chip) (d n : Nat) : Chip :=
  s.when (s.coreState d n != Obe.reset) (fun s =>
    (s.setFlag d (F.OBE_NMI_CAUSE_CLKFAIL n) true).onCore d n (fun c => { c with nmiClk := true }))

/-- CORE_TIMER_EXPIRE: the timer counts in RUN and WAITTASK (R270). -/
def execCoreTimerExpire (d : Die) (n : Fin 64) (s : State) : Out :=
  s.onDie d (fun c => c.when (c.coreClocked d n && c.flag d (F.OBE_TIMER_EN n) &&
    (c.coreState d n == Obe.run || c.coreState d n == Obe.waittask)) (fun c => (c.raiseInt d n 5).countCore d n 43 1))

/-! ### DMA (R276, R277) -/

/-- A channel's record. -/
def Core.chan (c : Core) (k : Nat) : DmaChan := c.dma.get k

/-- Field width and fields per word of a DMA mode (R276). -/
def dmaShape (mode : Nat) : Nat × Nat := if mode = 0 then (24, 1) else if mode = 1 then (12, 3) else if mode = 2 then (18, 2) else (36, 1)

/-- Whether MODE, MEM and SH go together (R276). -/
def dmaPaired (mode mem sh : Nat) : Bool :=
  if mode = 3 then mem = 0 && sh = 0
  else (mem = 1 || mem = 2) && sh ≤ (if mode = 0 then 0 else if mode = 1 then 12 else 6)

/-- A channel ends with DONE or ERR: its interrupt source is raised (R263, R277). -/
def Chip.dmaEnd (s : Chip) (d n k : Nat) (err : Bool) : Chip :=
  let s := s.setFlag d (F.OBE_DMA_STATUS_BUSY n k) false
  let s := s.setFlag d (if err then F.OBE_DMA_STATUS_ERR n k else F.OBE_DMA_STATUS_DONE n k) true
  s.raiseInt d n k

/-- START written (R276); ignored while BUSY. -/
def Chip.dmaStart (s : Chip) (d n k : Nat) : Chip :=
  if s.flag d (F.OBE_DMA_STATUS_BUSY n k) then s
  else
    let ctrl := s.reg d (Reg.OBE_DMA_CTRL n k)
    if !dmaPaired (bits ctrl 4 2) (bits ctrl 2 2) (bits ctrl 7 4) then s.dmaEnd d n k true
    else
      let words := s.fld d (F.OBE_DMA_COUNT_WORDS n k) + 1
      let c : DmaChan := {
        ctrl := ctrl, localReg := s.reg d (Reg.OBE_DMA_LOCAL n k), ghi := s.fld d (F.OBE_DMA_GHI_GADDR_HI n k),
        glo := s.fld d (F.OBE_DMA_GLO_GADDR_LO n k), words := words }
      let s := s.onCore d n (fun x => { x with dma := x.dma.set k c })
      (s.setFlag d (F.OBE_DMA_STATUS_BUSY n k) true).setFld d (F.OBE_DMA_STATUS_REMAIN n k) words

/-- The local address of sample j of a transfer (R276). -/
def DmaChan.local (c : DmaChan) (j : Nat) : Nat :=
  unsigned 13 ((bits c.localReg 0 13 : Int) + signed 13 (bits c.localReg 13 13) * j)

/-- The destination of a channel's packets: device, router, port (R24). -/
def DmaChan.dest (c : DmaChan) : Nat × Nat × Nat :=
  (c.ghi / 2 ^ 11 % 2 ^ 11, 16 * (c.ghi / 2 ^ 7 % 16) + c.ghi / 2 ^ 3 % 16, c.ghi % 8)

/-- One outbound field of a sample: the field and whether significant bits were dropped (R276). -/
def dmaPack (width sh : Nat) (sx : Bool) (v : Nat) : Nat × Bool :=
  let y := unsigned 24 (signed 24 v / 2 ^ sh)
  let f := y % 2 ^ width
  let top := y / 2 ^ width
  let ones := 2 ^ (24 - width) - 1
  (f, if sx then top != (if f.testBit (width - 1) then ones else 0) else top != 0)

/-- One outbound word of a channel: word, poison, overflow. -/
def Chip.dmaGather (s : Chip) (d n : Nat) (c : DmaChan) (w : Nat) : Chip × W36 × Bool × Bool :=
  let mode := bits c.ctrl 4 2
  let mem := bits c.ctrl 2 2
  let (width, per) := dmaShape mode
  if mode = 3 then
    let (s, v, bad) := s.sharedRead d n 0 (c.local w)
    (s, word v, bad, false)
  else
    let r := (List.range per).foldl (fun (a : Chip × Nat × Bool × Bool) i =>
      let (s, v, bad) := a.1.sharedRead d n mem (c.local (per * w + i))
      let (f, ovf) := dmaPack width (bits c.ctrl 7 4) (bit c.ctrl 6) v
      (s, a.2.1 + f * 2 ^ (width * i), a.2.2.1 || bad, a.2.2.2 || ovf)) (s, 0, false, false)
    let v := if mode = 0 && bit c.ctrl 6 && r.2.1.testBit 23 then r.2.1 + 0xFFF * 2 ^ 24 else r.2.1
    (r.1, word v, r.2.2.1, r.2.2.2)

/-- An inbound word stored as samples (R276, R277). -/
def Chip.dmaScatter (s : Chip) (d n : Nat) (c : DmaChan) (w : Nat) (v : W36) (poison : Bool) : Chip :=
  let mode := bits c.ctrl 4 2
  let (width, per) := dmaShape mode
  if mode = 3 then s.sharedWrite d n 0 (c.local w) v.toNat poison
  else s.upTo per (fun s i =>
    let f := bits v (width * i) width
    let x := if bit c.ctrl 6 then signed width f else (f : Int)
    s.sharedWrite d n (bits c.ctrl 2 2) (c.local (per * w + i)) (unsigned 24 (x * 2 ^ bits c.ctrl 7 4)) poison)

/-- A channel stops with ERR after a failed packet (R277). -/
def Chip.dmaFail (s : Chip) (d n k : Nat) : Chip :=
  if s.flag d (F.OBE_DMA_STATUS_BUSY n k) then
    let s := s.onPort (coreRouter d n) 2 (fun q => { q with waiting := q.waiting.filter (fun p => p.origin != .dma k) })
    let s := s.onCore d n (fun c => { c with reads := c.reads.filter (fun r => r.chan != k) })
    (s.dmaEnd d n k true).countCore d n 31 1
  else s

/-- The write packet of a run of words: offset and count in the first flit, then the data (R194). -/
def writeBody (offset : Nat) (ws : List (W36 × Bool)) : List Payload :=
  let w (i : Nat) : W36 := ((ws[i]?).map (·.1)).getD 0
  let b (i : Nat) : Bool := ((ws[i]?).map (·.2)).getD false
  { w2 := word offset, w3 := word (ws.length - 1), w4 := w 0, w5 := w 1, poison := b 0 || b 1 } ::
    (List.range ((ws.length - 2 + 3) / 4)).map (fun j =>
      let i := 2 + 4 * j
      { w2 := w i, w3 := w (i + 1), w4 := w (i + 2), w5 := w (i + 3),
        poison := b i || b (i + 1) || b (i + 2) || b (i + 3) })

/-- The next packet of a channel submitted at the OBOE port (R276); one that can never fit the window fails the channel
(R202, R277). -/
def Chip.dmaOffer (s : Chip) (d n k : Nat) : Chip :=
  let c := (s.core d n).chan k
  let router := coreRouter d n
  let count := min (bits c.ctrl 11 6 + 1) (c.words - c.next)
  let (dev, dr, dp) := c.dest
  let offset := (c.glo + c.next) % 2 ^ 36
  let flow := bits c.localReg 26 10
  let advance (s : Chip) : Chip := s.onCore d n (fun x => { x with dma := x.dma.set k { c with next := c.next + count } })
  if !bit c.ctrl 1 then
    let p : Packet := { dev := dev, router := dr, port := dp, typ := Typ.readReq, flow := flow,
                        body := [{ w2 := word offset, w3 := word (count - 1) }], resp := (count + 3) / 4, origin := .dma k }
    if s.fits router 2 p then
      let s := (advance s).onCore d n (fun x => { x with
        reads := x.reads ++ [{ chan := k, word := c.next, left := count, key := txKey dev dr dp flow }] })
      (s.submit router 2 p).countCore d n 30 1
    else s.dmaFail d n k
  else
    let r := (List.range count).foldl (fun (a : Chip × List (W36 × Bool) × Bool) i =>
      let (s, v, bad, ovf) := a.1.dmaGather d n c (c.next + i)
      (s, a.2.1 ++ [(v, bad)], a.2.2 || ovf)) (s, [], false)
    let p : Packet := { dev := dev, router := dr, port := dp, typ := Typ.writeReq, flow := flow,
                        body := writeBody offset r.2.1, origin := .dma k }
    if r.1.fits router 2 p then
      let s := advance r.1
      let s := if r.2.2 then s.setFlag d (F.OBE_DMA_STATUS_OVF n k) true else s
      let s := if r.2.1.any (·.2) then s.setFlag d (F.OBE_DMA_STATUS_POISON_SEEN n k) true else s
      ((s.submit router 2 p).countCore d n 30 1).countCore d n 29 count
    else s.dmaFail d n k

/-- Whether the shared ports of a core are stalled by a LOCK sequence (R268). -/
def Chip.sharedStalled (s : Chip) (d n : Nat) : Bool := (s.core d n).srBit Sr.lk || !s.coreClocked d n

/-- Before a port injects: the lowest channel with words left submits its next packet while none waits (R276). -/
def Chip.dmaRefill (s : Chip) (d n : Nat) : Chip :=
  if s.sharedStalled d n || !(s.port (coreRouter d n) 2).waiting.isEmpty then s
  else match (List.range 4).find? (fun k =>
      s.flag d (F.OBE_DMA_STATUS_BUSY n k) && ((s.core d n).chan k).next < ((s.core d n).chan k).words) with
    | some k => s.dmaOffer d n k
    | none => s

/-- Words of a channel done (R277). -/
def Chip.dmaDone (s : Chip) (d n k words : Nat) : Chip :=
  if s.flag d (F.OBE_DMA_STATUS_BUSY n k) then
    let c := (s.core d n).chan k
    let done := c.done + words
    let s := s.onCore d n (fun x => { x with dma := x.dma.set k { c with done := done } })
    let s := s.setFld d (F.OBE_DMA_STATUS_REMAIN n k) (c.words - done)
    if c.words ≤ done then s.dmaEnd d n k false else s
  else s

/-- A READ_RESP flit for a DMA read (R277). -/
def Chip.dmaReadResp (s : Chip) (d n : Nat) (f : Flit) : Chip :=
  let key := txKey f.srcDev f.srcRouter f.srcPort f.flow
  match (s.core d n).reads.findIdx? (fun r => r.key = key) with
  | none => s
  | some i =>
    match (s.core d n).reads[i]? with
    | none => s
    | some r =>
      let c := (s.core d n).chan r.chan
      let take := min 4 r.left
      let w (j : Nat) : W36 := if j = 0 then f.w2 else if j = 1 then f.w3 else if j = 2 then f.w4 else f.w5
      let s := s.upTo take (fun s j => s.dmaScatter d n c (r.word + j) (w j) f.poison)
      let next : DmaRead := { r with word := r.word + take, left := r.left - take }
      let s := s.onCore d n (fun x =>
        { x with reads := if r.left = take then x.reads.eraseIdx i else x.reads.set i next })
      let s := if f.poison then s.setFlag d (F.OBE_DMA_STATUS_POISON_SEEN n r.chan) true else s
      (s.countCore d n 28 take).dmaDone d n r.chan take

/-! ### The OBOE port (R250, R252, R271, R277) -/

/-- The memory and address of a word offset at the OBOE port, if valid (R250). -/
def oboeOffset (off : Nat) : Option (Nat × Nat) :=
  if off / 2 ^ 16 = 0 && off / 2 ^ 13 ≤ 2 then some (off / 2 ^ 13, off % 2 ^ 13) else none

/-- The first offset of a run that names no memory word, logged (R250). -/
def Chip.oboeRange (s : Chip) (d n off count : Nat) : Chip :=
  match (List.range count).find? (fun i => (oboeOffset (off + i)).isNone) with
  | some i => s.logEv d Ev.obeRange (n + (off + i) % 2 ^ 16 * 2 ^ 6)
  | none => s

/-- READ_RESP flits answering a request with words, numbered from its RSEQ (R194, R208). -/
def Chip.respond (s : Chip) (router port : Nat) (f : Flit) (rseq : Nat) (ws : List (W36 × Bool)) : Chip :=
  let flits := (ws.length + 3) / 4
  let w (i : Nat) : W36 := ((ws[i]?).map (·.1)).getD 0
  let b (i : Nat) : Bool := ((ws[i]?).map (·.2)).getD false
  s.upTo flits (fun s j =>
    let i := 4 * j
    s.sendFlit router port {
      w0 := head0 f.srcDev f.srcRouter f.srcPort Typ.readResp f.flow
      w1 := head1 s.ownDevice router port (rseq + j) (j + 1 == flits) (b i || b (i + 1) || b (i + 2) || b (i + 3))
      w2 := w i, w3 := w (i + 1), w4 := w (i + 2), w5 := w (i + 3) })

/-- A READ_REQ served through the shared port (R250, R274). -/
def Chip.oboeRead (s : Chip) (d n : Nat) (f : Flit) : Chip :=
  let off := f.w2.toNat
  let count := bits f.w3 0 6 + 1
  let r := (List.range count).foldl (fun (a : Chip × List (W36 × Bool)) i =>
    match oboeOffset (off + i) with
    | some (m, addr) =>
      let (s, v, bad) := a.1.sharedRead d n m addr
      let v := if m = 0 then v else unsigned 36 (signed 24 v)
      (s, a.2 ++ [(word v, bad)])
    | none => (a.1, a.2 ++ [(0, false)])) (s, [])
  let s := (r.1.oboeRange d n off count).countCore d n 45 1
  s.respond (coreRouter d n) 2 f (bits f.w3 6 12) r.2

/-- Words written through the OBOE port from an offset on; offsets that name none are passed over (R250, R252). -/
def Chip.oboeStore (s : Chip) (d n off : Nat) (ws : List W36) (poison : Bool) : Chip :=
  s.upTo ws.length (fun s i =>
    match oboeOffset (off + i) with
    | some (m, addr) => s.sharedWrite d n m addr ((ws[i]?).getD 0).toNat poison
    | none => s)

/-- A WRITE_REQ flit: the first carries offset, count and two words, each later one four; the request's run of offsets is judged once
(R194, R250). -/
def Chip.oboeWrite (s : Chip) (d n : Nat) (f : Flit) : Chip :=
  let key := streamKey f
  match (s.core d n).writing.find? (fun w => w.1 = key) with
  | some (_, off, left) =>
    let ws := [f.w2, f.w3, f.w4, f.w5].take left
    let s := s.oboeStore d n off ws f.poison
    s.onCore d n (fun c => { c with writing :=
      (c.writing.filter (fun w => w.1 != key)) ++ (if left ≤ 4 then [] else [(key, off + 4, left - 4)]) })
  | none =>
    let count := bits f.w3 0 6 + 1
    let ws := [f.w4, f.w5].take count
    let s := ((s.oboeStore d n f.w2.toNat ws f.poison).oboeRange d n f.w2.toNat count).countCore d n 46 1
    s.onCore d n (fun c => { c with writing := c.writing ++ (if count ≤ 2 then [] else [(key, f.w2.toNat + 2, count - 2)]) })

/-- An inbox's length in samples. -/
def Chip.inboxLen (s : Chip) (d n : Nat) : Nat :=
  let l := s.fld d (F.OBE_INBOX_LEN n)
  2 ^ (if 2 ≤ l && l ≤ 12 then l else 2)

/-- Source 7 is pending while the inbox is not empty (R263). -/
def Chip.inboxSignal (s : Chip) (d n : Nat) : Chip :=
  if s.fld d (F.OBE_INBOX_PTR_WR n) != s.fld d (F.OBE_INBOX_PTR_RD n) % s.inboxLen d n then s.raiseInt d n 7 else s

/-- Whether the ring is full: a flit's four samples would reach RD. -/
def Chip.inboxFull (s : Chip) (d n : Nat) : Bool :=
  let len := s.inboxLen d n
  (s.fld d (F.OBE_INBOX_PTR_RD n) + 2 * len - s.fld d (F.OBE_INBOX_PTR_WR n) - 1) % len < 4

/-- A STREAM flit written into the inbox ring in W24L (R277); with EN = 0 discarded and counted in NOC_STAT_12. -/
def Chip.inboxStore (s : Chip) (d n : Nat) (f : Flit) : Chip :=
  if !s.flag d (F.OBE_INBOX_EN n) then s.nocStat d 12
  else
    let len := s.inboxLen d n
    let base := s.fld d (F.OBE_INBOX_BASE n)
    let wr := s.fld d (F.OBE_INBOX_PTR_WR n)
    let ws := [f.w2, f.w3, f.w4, f.w5]
    let s := s.upTo 4 (fun s i => s.sharedWrite d n 1 (base + (wr + i) % len) ((ws[i]?).getD 0).toNat f.poison)
    let s := s.setFld d (F.OBE_INBOX_PTR_WR n) ((wr + 4) % len)
    (s.inboxSignal d n).countCore d n 36 1

/-- The task area written: header, flow, sequence, arity and operand words, samples named nowhere zero (R271, R317). -/
def Chip.writeArea (s : Chip) (d n : Nat) (parts : List Flit) : Chip :=
  match parts with
  | h :: slots =>
    let at0 (i v : Nat) (p : Bool) (s : Chip) : Chip := s.sharedWrite d n 1 (0x1FE0 + i) v p
    let s := s.upTo 32 (fun s i => at0 i 0 false s)
    let s := at0 0 (bits h.w3 0 14) h.poison s
    let s := at0 1 h.flow h.poison s
    let s := at0 2 (bits h.w4 0 20) h.poison s
    let s := at0 3 (bits h.w3 14 14) h.poison s
    s.each slots (fun s f =>
      let ws := [f.w3, f.w4, f.w5]
      let b := 8 + 6 * bits f.w2 2 2
      s.upTo 3 (fun s j =>
        let v := ((ws[j]?).getD 0).toNat
        at0 (b + 2 * j + 1) (v / 2 ^ 24) f.poison (at0 (b + 2 * j) (v % 2 ^ 24) f.poison s)))
  | [] => s

/-- A single step ends after its instruction, a LOCK after its whole sequence: the core halts as FORCE_HALT does (R631). -/
def Chip.stepEnd (s : Chip) (d n : Nat) : Chip :=
  let c := s.core d n
  if c.stepping && c.lock = 0 && s.coreState d n = Obe.run then
    ((s.drainCore d n).onCore d n (fun c => { c with
      stepping := false, haltedFrom := Obe.run, haltForced := true, lockBroken := false })).setCoreState d n Obe.halted
  else s

/-- WAITTASK completes: SR.TV := 1 and the core goes on after it (R245, R271, R289). -/
def Chip.completeWait (s : Chip) (d n : Nat) : Chip :=
  let s := (s.drainCore d n).onCore d n (fun c => { c.setSr Sr.tv true with
    areaReady := false, pc := (c.pc + 1) % 8192, cycle := c.cycle + 2 })
  (((s.setCoreState d n Obe.run).countCore d n 1 1).coreOcs d n 0 2).stepEnd d n

/-- A DISPATCH part at the task interface; the FINAL part completes the task area (R271, R317). A core that is no worker
takes none. -/
def Chip.oboeDispatch (s : Chip) (d n : Nat) (f : Flit) : Chip :=
  if !s.flag d (F.OBE_CTRL_WORKER n) || s.coreState d n = Obe.reset then s
  else
    let parts := if bits f.w2 0 2 = 0 then [f] else (s.core d n).parts ++ [f]
    let s := s.onCore d n (fun c => { c with parts := parts, gotDispatch := true, lastFailed := false })
    if bit f.w2 7 then
      let s := (s.writeArea d n parts).countCore d n 21 1
      let t : Option HeldTask := match parts with
        | h :: _ => some { flow := h.flow, seq := bits h.w4 0 20, attempt := bits h.w3 11 3 }
        | [] => none
      let s := s.onCore d n (fun c => { c with parts := [], task := t, areaReady := true })
      if s.coreState d n = Obe.waittask then s.completeWait d n else s
    else s

/-- f on the head flit of type t waiting at a core's port, while the shared port may move words (R253, R268). -/
def Chip.atOboe (s : Chip) (d n t : Nat) (f : Chip → Flit → Chip) : Chip :=
  if s.sharedStalled d n then s
  else match s.takeDelivered (coreRouter d n) 2 t with
    | (s', some x) => f s' x
    | (_, none) => s

/-- OBOE_READ_REQ (R250). -/
def execOboeReadReq (d : Die) (n : Fin 64) (s : State) : Out :=
  s.onDie d (fun c => c.atOboe d n Typ.readReq (fun c f => c.oboeRead d n f))

/-- OBOE_WRITE_REQ (R250). -/
def execOboeWriteReq (d : Die) (n : Fin 64) (s : State) : Out :=
  s.onDie d (fun c => c.atOboe d n Typ.writeReq (fun c f => c.oboeWrite d n f))

/-- DISPATCH (R271). -/
def execDispatch (d : Die) (n : Fin 64) (s : State) : Out :=
  s.onDie d (fun c => c.atOboe d n Typ.dispatch (fun c f => c.oboeDispatch d n f))

/-- INBOX_STREAM: a full ring takes no flit (R277). -/
def execInboxStream (d : Die) (n : Fin 64) (s : State) : Out :=
  s.onDie d (fun c =>
    if c.flag d (F.OBE_INBOX_EN n) && c.inboxFull d n then c.countCore d n 37 1
    else c.atOboe d n Typ.stream (fun c f => c.inboxStore d n f))

/-- EMIT_TOKEN_SEND: the interface sends its oldest token through the OBOE port (R272). -/
def execEmitTokenSend (d : Die) (n : Fin 64) (s : State) : Out :=
  s.onDie d (fun c => match (c.core d n).tokens with
    | p :: rest =>
      c.when (c.hasRoom (coreRouter d n) 2) (fun c => (c.onCore d n (fun x => { x with tokens := rest })).submit (coreRouter d n) 2 p)
    | [] => c)

/-! ### OBE_ registers (R250, R263, R269, R270, R276) -/

/-- A clear of P, X or Y asked for: only in RESET (R247, OBE_CTRL). -/
def Chip.coreClear (s : Chip) (d n m : Nat) : Chip :=
  if s.coreState d n = Obe.reset then (s.clearCoreMem d n m).setFlag d (F.OBE_STATUS_CLR_BUSY n) true
  else s.setFlag d (F.OBE_STATUS_CLR_REFUSED n) true

/-- A write of OBE_CTRL (R245). -/
def Chip.obeCtrlWrite (s : Chip) (d n : Nat) (v : W36) : Chip :=
  let s := s.upTo 3 (fun s m => if bit v (3 + m) then s.coreClear d n m else s)
  let s := s.plainWrite d (Reg.OBE_CTRL n) v
  if bit v 0 then s.tryStart d n
  else if s.coreState d n != Obe.reset then s.resetCore d n true else s

/-- A write of OBE_INT_PEND (R263). -/
def Chip.obeIntPendWrite (s : Chip) (d n : Nat) (v : W36) : Chip :=
  let s := s.plainWrite d (Reg.OBE_INT_PEND n) v
  (if bit v 8 then s.raiseInt d n 4 else s).inboxSignal d n

/-- A write of OBE_WDOG: KICK, or EN going to 1, loads the period; EN going to 0 freezes the count (R269). -/
def Chip.obeWdogWrite (s : Chip) (d n : Nat) (v : W36) : Chip :=
  let was := s.flag d (F.OBE_WDOG_EN n)
  let left := s.wdogNow d n
  let s := s.plainWrite d (Reg.OBE_WDOG n) v
  let s := s.when (was && !bit v 16) (fun s => s.onCore d n (fun c => { c with wdogLeft := left }))
  if bit v 17 || (bit v 16 && !was) then s.reloadWdog d n else s

/-- A write of OBE_MEM_STATUS: clearing CHECK_SEEN also zeroes COUNT. -/
def Chip.obeMemStatusWrite (s : Chip) (d n : Nat) (v : W36) : Chip :=
  let s := s.plainWrite d (Reg.OBE_MEM_STATUS n) v
  if bit v 0 then s.setFld d (F.OBE_MEM_STATUS_COUNT n) 0 else s

/-- A write of a DMA channel's CTRL, and of any register of it. -/
def Chip.obeDmaWrite (s : Chip) (d n k i : Nat) (v : W36) : Chip :=
  let s := s.plainWrite d (Reg.OBE_DMA_CTRL n k + i) v
  if i = 0 && bit v 0 then s.dmaStart d n k else s

/-- A write at an offset of a core's OBE_ block. -/
def Chip.obeWrite (s : Chip) (d n rel : Nat) (v : W36) (trusted : Bool) : Chip :=
  if rel = 0 then s.obeCtrlWrite d n v
  else if rel = 5 then s.obeIntPendWrite d n v
  else if rel = 7 then s.obeWdogWrite d n v
  else if rel = 0xA then s.obeMemStatusWrite d n v
  else if rel = 0xB || rel = 0xC then (s.plainWrite d (Reg.OBE_CTRL n + rel) v).inboxSignal d n
  else if 0x40 ≤ rel && rel < 0x60 then s.obeDmaWrite d n ((rel - 0x40) / 8) ((rel - 0x40) % 8) v
  else if 0x100 ≤ rel && rel < 0x200 then s.pmcRegWrite d (some n) (rel - 0x100) v trusted
  else s.plainWrite d (Reg.OBE_CTRL n + rel) v

/-- A read at an offset of a core's OBE_ block; an active read of a counter latches HI. -/
def Chip.obeRead (s : Chip) (d n rel : Nat) (active : Bool) : Chip × W36 :=
  let c := s.core d n
  if rel = 1 then
    let sr := c.committed Rc.sr
    let w := putBits (s.reg d (Reg.OBE_STATUS n)) 3 1 (sr / 2 ^ Sr.tv)
    (s, putBits (putBits w 4 1 (sr / 2 ^ Sr.lk)) 7 13 c.agPc)
  else if rel = 7 then
    (s, putBits (s.reg d (Reg.OBE_WDOG n)) 18 16 ((s.wdogNow d n + 1023) / 1024))
  else if 0x100 ≤ rel && rel < 0x200 then s.pmcRegRead d (some n) (rel - 0x100) active
  else (s, s.reg d (Reg.OBE_CTRL n + rel))

/-- CORE_RUN: OBE_CTRL.RUN = 1, past stage 3: the core leaves RESET (R245). -/
def execCoreRun (d : Die) (n : Fin 64) (s : State) : Out :=
  s.onDie d (fun c => (c.setFlag d (F.OBE_CTRL_RUN n) true).tryStart d n)

/-- CORE_STOP: OBE_CTRL.RUN written 0 (R245, R246). -/
def execCoreStop (d : Die) (n : Fin 64) (s : State) : Out :=
  s.onDie d (fun c =>
    let c := c.setFlag d (F.OBE_CTRL_RUN n) false
    c.when (c.coreState d n != Obe.reset) (fun c => c.resetCore d n true))

/-- CLR_P (OBE_CTRL, R498). -/
def execClrP (d : Die) (n : Fin 64) (s : State) : Out := s.onDie d (fun c => c.coreClear d n 0)

/-- CLR_X (OBE_CTRL, R498). -/
def execClrX (d : Die) (n : Fin 64) (s : State) : Out := s.onDie d (fun c => c.coreClear d n 1)

/-- CLR_Y (OBE_CTRL, R498). -/
def execClrY (d : Die) (n : Fin 64) (s : State) : Out := s.onDie d (fun c => c.coreClear d n 2)

/-- CORE_CLEAR_DONE: the background clear ends (R498). -/
def execCoreClearDone (d : Die) (n : Fin 64) (s : State) : Out :=
  s.onDie d (fun c => c.setFlag d (F.OBE_STATUS_CLR_BUSY n) false)

/-- DOORBELL: a write of OBE_INT_PEND (R263). -/
def execDoorbell (d : Die) (n : Fin 64) (v : W36) (s : State) : Out :=
  s.onDie d (fun c => c.obeIntPendWrite d n (v ||| 0x100))

/-- WDOG_KICK: a write of OBE_WDOG with KICK = 1 (R269). -/
def execWdogKick (d : Die) (n : Fin 64) (v : W36) (s : State) : Out :=
  s.onDie d (fun c => c.obeWdogWrite d n (v ||| 0x20000))

/-- DMA_START: a write of OBE_DMA_c_CTRL with START = 1 (R276). -/
def execDmaStart (d : Die) (n : Fin 64) (c : Fin 4) (v : W36) (s : State) : Out :=
  s.onDie d (fun x => x.obeDmaWrite d n c 0 (v ||| 1))

/-- SLEEP_WAKE: the return of the quad to RUN ends SLEEP (R245, R289, R548). -/
def execSleepWake (d : Die) (n : Fin 64) (s : State) : Out :=
  s.onDie d (fun c => c.when (c.coreClocked d n && c.coreState d n == Obe.sleep && (c.core d n).wakeNoted) (fun c =>
    (((c.onCore d n (fun x => { x with cycle := x.cycle + 2, wakeNoted := false })).setCoreState d n Obe.run).coreOcs d n 0 2).stepEnd d n))

end Sys2Proof.Machine
end

