-- ==== Sys2Proof/Machine/LineCode.lean ====
section
/-! DEFINITION. The line codes of a transceiver lane: 8b/10b, the 64b/66b scrambler and PRBS sequences (R417, R420, R435). The spec
names 8b/10b and the sequences; their tables and taps are PRESUMED, the common ones (log 218). -/

namespace Sys2Proof.Machine

/-! ### 8b/10b (R417) -/

/-- The 6-bit codes of D.0 to D.31 at negative running disparity, a the lowest bit. -/
def code6 : List Nat :=
  [57, 46, 45, 35, 43, 37, 38, 7, 39, 41, 42, 11, 44, 13, 14, 58, 54, 49, 50, 19, 52, 21, 22, 23, 51, 25, 26, 27, 28, 29, 30, 53]

/-- The 4-bit codes of D.x.0 to D.x.7, and those of K.x.0 to K.x.7 after a K at negative running disparity, f the lowest bit. -/
def code4 : List Nat := [13, 9, 10, 3, 11, 5, 6, 7]
def codeK : List Nat := [2, 9, 10, 12, 4, 5, 6, 1]

/-- How many of the n lowest bits of a number are 1. -/
def onesIn (n v : Nat) : Nat := ((List.range n).filter v.testBit).length

/-- The running disparity, true for positive, after a 10-bit code. -/
def disparityAfter (rd : Bool) (c : Nat) : Bool :=
  let k := onesIn 10 c
  if k = 5 then rd else 5 < k

/-- The 10-bit code of an octet, a the lowest bit and first on the line, at a running disparity. -/
def encode8b10b (rd : Bool) (o : Nat) (k : Bool) : Nat :=
  let x := o % 32
  let y := o / 32 % 8
  if k then
    let c := (if x = 28 then 60 else code6.getD x 0) + 64 * codeK.getD y 0
    if rd then 1023 - c else c
  else
    let c := code6.getD x 0
    let uneven : Bool := onesIn 6 c ≠ 3
    let low := if rd && (uneven || x = 7) then 63 - c else c
    let mid := rd != uneven
    let other := y = 7 && (if mid then x = 11 || x = 13 || x = 14 else x = 17 || x = 18 || x = 20)
    let b := if other then 14 else code4.getD y 0
    low + 64 * (if mid && (onesIn 4 b ≠ 2 || y = 3) then 15 - b else b)

/-- The K-characters that 8b/10b has. -/
def kOctets : List Nat := [0x1C, 0x3C, 0x5C, 0x7C, 0x9C, 0xBC, 0xDC, 0xFC, 0xF7, 0xFB, 0xFD, 0xFE]

/-- The octet and K flag that a 10-bit code stands for at a running disparity; none for a code or disparity error. -/
def decode8b10b (rd : Bool) (c : Nat) : Option (Nat × Bool) :=
  match (List.range 256).find? (fun o => encode8b10b rd o false == c) with
  | some o => some (o, false)
  | none => (kOctets.find? (fun o => encode8b10b rd o true == c)).map (fun o => (o, true))

/-- n octets of a word with their K flags from bit 64 on as line bits, octet 0 first, and the running disparity after them. -/
def encodeOctets (n : Nat) (rd : Bool) (w : BitVec 72) : BitVec 80 × Bool :=
  (List.range n).foldl (fun (acc : BitVec 80 × Bool) k =>
    let c := encode8b10b acc.2 (bits w (8 * k) 8) (bit w (64 + k))
    (putBits acc.1 (10 * k) 10 c, disparityAfter acc.2 c)) (0, rd)

/-- Whether an octet with its K flag is a comma: K28.1, K28.5 or K28.7 (R418). -/
def isComma (o : Nat) : Bool := o = 0x3C || o = 0xBC || o = 0xFC

/-- n octets decoded from line bits as they are presented: RXD, RXK from bit 64 on, RX_ERR at 73, COMMA at 76, an octet in error as
0xFE with K; the number of errors, and the running disparity after them (R417, R418, R423). -/
def decodeOctets (n : Nat) (rd : Bool) (w : BitVec 80) : BitVec 80 × Nat × Bool :=
  (List.range n).foldl (fun (acc : BitVec 80 × Nat × Bool) k =>
    let (v, errs, rd) := acc
    let c := bits w (10 * k) 10
    let put (v : BitVec 80) (o : Nat) (kf : Bool) : BitVec 80 := putBits (putBits v (8 * k) 8 o) (64 + k) 1 (ofBool kf)
    match decode8b10b rd c with
    | some (o, kf) => (if kf && isComma o then putBits (put v o kf) 76 1 1 else put v o kf, errs, disparityAfter rd c)
    | none => (putBits (put v 0xFE true) 73 1 1, errs + 1, disparityAfter rd c)) (0, 0, rd)

/-! ### Scrambling with x^58 + x^39 + 1 (R420) -/

/-- n bits scrambled, lowest first, and the register after them: its lowest bit is the last bit sent. -/
def scramble (n : Nat) (r : BitVec 58) (v : BitVec 64) : BitVec 64 × BitVec 58 :=
  (List.range n).foldl (fun (acc : BitVec 64 × BitVec 58) i =>
    let b := (v.getLsbD i != acc.2.getLsbD 38) != acc.2.getLsbD 57
    (putBits acc.1 i 1 (ofBool b), (acc.2 <<< 1) ||| BitVec.ofNat 58 (ofBool b))) (0, r)

/-- n bits descrambled, lowest first, and the register after them: its lowest bit is the last bit received. -/
def descramble (n : Nat) (r : BitVec 58) (v : BitVec 64) : BitVec 64 × BitVec 58 :=
  (List.range n).foldl (fun (acc : BitVec 64 × BitVec 58) i =>
    let b := (v.getLsbD i != acc.2.getLsbD 38) != acc.2.getLsbD 57
    (putBits acc.1 i 1 (ofBool b), (acc.2 <<< 1) ||| BitVec.ofNat 58 (ofBool (v.getLsbD i)))) (0, r)

/-! ### PRBS sequences (R435) -/

/-- The taps of a PRBS selection (R435). -/
def prbsTaps (p : Nat) : Nat × Nat :=
  if p = 1 then (7, 6) else if p = 2 then (15, 14) else if p = 3 then (23, 18) else (31, 28)

/-- Whether a PRBS field selects a sequence: not off and not reserved. -/
def prbsOn (p : Nat) : Bool := 1 ≤ p && p ≤ 4

/-- The next n bits of a sequence, first one lowest, and the generator after them. -/
def prbsNext (p n : Nat) (r : BitVec 31) : BitVec 128 × BitVec 31 :=
  let (a, b) := prbsTaps p
  (List.range n).foldl (fun (acc : BitVec 128 × BitVec 31) i =>
    let v := acc.2.getLsbD (a - 1) != acc.2.getLsbD (b - 1)
    (putBits acc.1 i 1 (ofBool v), (acc.2 <<< 1) ||| BitVec.ofNat 31 (ofBool v))) (0, r)

/-- Received bits against the sequence, before and after lock: the checker's bits after them, and the mismatches. -/
def prbsRun (p : Nat) (locked : Bool) (w : BitVec 80) (n : Nat) (r : BitVec 31) : BitVec 31 × Nat :=
  let (a, b) := prbsTaps p
  (List.range n).foldl (fun (acc : BitVec 31 × Nat) i =>
    let want := acc.1.getLsbD (a - 1) != acc.1.getLsbD (b - 1)
    let got := w.getLsbD i
    ((acc.1 <<< 1) ||| BitVec.ofNat 31 (ofBool (if locked then want else got)), acc.2 + ofBool (want != got))) (r, 0)

/-- The 128-bit training word of a lane (R431): its index in its group, the group's size, DONE, and 91 bits of PRBS-15. -/
def trainingWord (index size : Nat) (done : Bool) (prbs : BitVec 128) : BitVec 128 :=
  BitVec.ofNat 128 (0x6B2DD4C1 + index % 4 * 2 ^ 32 + (size - 1) % 4 * 2 ^ 34 + ofBool done * 2 ^ 36 + bits prbs 0 91 * 2 ^ 37)

end Sys2Proof.Machine
end

