-- ==== Sys2Proof/Machine/Transceivers.lean ====
section
/-! DEFINITION. Transceiver quads and lanes: clocks, coding, bring-up of lane groups, loops, PRBS (chapter 13). -/

namespace Sys2Proof.Machine

/-! ### Settings in force (R415, R436) -/

/-- The mode of the MAC over a quad; 0 where no MAC uses it (R436). -/
def Chip.ethMode (s : Chip) (d q : Nat) : Nat := if q % 4 = 0 then s.fld d (F.ETH_CFG_MODE (q / 4)) else 0

/-- The rate divider of a lane (R436). -/
def Chip.laneDiv (s : Chip) (d q l : Nat) : Nat :=
  match s.ethMode d q with
  | 0 => s.fld d (F.XCV_LANE_CFG_DIV q l)
  | 3 => 1
  | _ => 0

/-- The coding layer of a lane (R415, R436). -/
def Chip.lanePcs (s : Chip) (d q l : Nat) : Nat := if s.ethMode d q = 0 then s.fld d (F.XCV_LANE_CFG_PCS q l) else 1

/-- Data bits of a WIDTH code. -/
def widthBits (w : Nat) : Nat := if w = 0 then 32 else if w = 1 then 40 else 64

/-- Data bits of a lane's word. -/
def Chip.laneWidth (s : Chip) (d q l : Nat) : Nat :=
  if s.ethMode d q = 0 then widthBits (s.fld d (F.XCV_LANE_CFG_WIDTH q l)) else 64

/-- Line bits per word of a coding layer and width (R415). -/
def lineBits (pcs width : Nat) : Nat := if pcs = 0 then width * 10 / 8 else if pcs = 1 then 66 else width

/-- The line rate in Hz for a reference, NX2 and DIV (R413). -/
def lineHz (ref nx2 div : Nat) : Nat := ref * nx2 / 2 ^ div

/-- Whether a lane's PCS, WIDTH and DIV are in the table, and its rates within it where the reference is known (R415, R416). -/
def laneValid (ref nx2 div pcs w : Nat) : Bool :=
  let width := widthBits w
  let rate := lineHz ref nx2 div
  div ≤ 4 && pcs ≤ 2 && w ≤ 2 && (pcs != 0 || w != 1) && (pcs != 1 || w == 2) &&
    (pcs != 0 || rate ≤ 12500000000) && rate ≤ 450000000 * lineBits pcs width

/-- The reference clock of a quad in Hz, 0 while no PLL lock has shown it. -/
def Chip.refHz (s : Chip) (d q : Nat) : Nat := s.quadRef.get (8 * d + q)

/-- The word rate of a lane in Hz (R416). -/
def Chip.laneWordHz (s : Chip) (d q l : Nat) : Nat :=
  lineHz (s.refHz d q) (s.fld d (F.XCV_QUAD_CFG_NX2 q)) (s.laneDiv d q l) / lineBits (s.lanePcs d q l) (s.laneWidth d q l)

/-- The lanes of the group that lane l belongs to (R429, R436). The reserved GROUP acts as 0. -/
def Chip.groupOf (s : Chip) (d q l : Nat) : List Nat :=
  let g := match s.ethMode d q with
    | 0 => s.fld d (F.XCV_QUAD_CFG_GROUP q)
    | 1 => 2
    | _ => 0
  if g = 1 then [2 * (l / 2), 2 * (l / 2) + 1] else if g = 2 then [0, 1, 2, 3] else [l]

/-- A lane's record changed. -/
def Chip.onLane (s : Chip) (d q l : Nat) (f : LaneRec → LaneRec) : Chip :=
  { s with lanes := s.lanes.upd ((8 * d + q) * 4 + l) f }

/-- The state of a lane's group. -/
def Chip.laneState (s : Chip) (d q l : Nat) : Nat := s.fld d (F.XCV_LANE_STATUS_STATE q l)

/-- The region that a quad adjoins, and the side its edge signals cross (R412). -/
def quadRegion (d q : Nat) : Nat := if d < 2 then q / 2 else 12 + q / 2
def quadSide (d : Nat) : Nat := if d < 2 then 0 else 2

/-! ### Ethernet links (R436, R445) -/

/-- The LINK and LOCAL_FAULT bits of a MAC as its sub-ports stand; a LINK bit that falls is recorded and logged. -/
def Chip.ethRefresh (s : Chip) (d m : Nat) : Chip :=
  s.upTo 4 (fun s p =>
    let on := s.fld d (F.ETH_CFG_MODE m) != 0 && (s.fld d (F.ETH_CFG_SUB_EN m)).testBit p &&
      (s.fld d (F.ETH_CFG_MODE m) != 1 || p == 0)
    let up := on && s.laneState d (4 * m) p == 5
    let link := up && !(s.fld d (F.ETH_STATUS_REMOTE_FAULT m)).testBit p
    let was := (s.fld d (F.ETH_STATUS_LINK m)).testBit p
    let put (s : Chip) (f : Fld) (b : Bool) : Chip :=
      s.setFld d f (if b then s.fld d f ||| 2 ^ p else s.fld d f - (if (s.fld d f).testBit p then 2 ^ p else 0))
    let s := put s (F.ETH_STATUS_LINK m) link
    let s := put s (F.ETH_STATUS_LOCAL_FAULT m) (on && !up)
    if was && !link then
      (s.setFlag d (F.ETH_STATUS_LINK_DOWN_SEEN m) true).logEv d Ev.ethLinkDown (m + 2 * p)
    else s)

/-! ### Group states (R429, R430) -/

/-- What a Karn link sends in EXCHANGE (R448). -/
def Chip.linkOffer (s : Chip) (d k : Nat) : Nat × Nat × Bool × Nat × Nat :=
  let key := match (s.karn.get (4 * d + k)).active with
    | some key => key.id
    | none => 0
  (s.ownDevice, 4 * d + k, s.flag d (F.KRN_LINK_CFG_ENC k), key,
    if s.flag d (F.KRN_LINK_CFG_BOOT_SERVE k) then s.fld d (F.KRN_LINK_CFG_PEER_NUM k) else 0x7FF)

/-- A lane group enters a state. Outside ACTIVE and LOOPBACK a lane presents nothing and holds no words (R427); a Karn link
enters ACTIVE with 256 credits (R453). -/
def Chip.setGroup (s : Chip) (d q : Nat) (lanes : List Nat) (st : Nat) : Chip :=
  let s := s.each lanes (fun s l =>
    let s := s.setFld d (F.XCV_LANE_STATUS_STATE q l) st
    let s := if st = 0 || st = 1 then
        (s.setFlag d (F.XCV_LANE_STATUS_CDR_LOCK q l) false).setFlag d (F.XCV_LANE_STATUS_WORD_LOCK q l) false
      else s
    s.onLane d q l (fun x =>
      if st = 5 || st = 6 then
        { x with live := true, retryWait := false, failLogged := x.failLogged && st != 5, elastic := List.replicate 16 none, line := none }
      else
        { x with live := false, retryWait := false, txFifo := [], rxFifo := [], shown := none, errs := [], elastic := [], held := [],
                 line := none }))
  let s := if s.flag d (F.XCV_QUAD_CFG_KARN q) then
      let k := q / 2
      let was := s.fld d (F.KRN_LINK_STATUS_STATE k)
      let s := s.setFld d (F.KRN_LINK_STATUS_STATE k) st
      if st = 5 && was != 5 then
        { s with karn := s.karn.upd (4 * d + k) (fun x => { x with credits := 256, lastSeq := none, freed := 0, blocks := 0 }) }
      else if st = 4 then
        { s with karn := s.karn.upd (4 * d + k) (fun x => { x with offer := some (s.linkOffer d k) }) }
      else s
    else s
  if q % 4 = 0 then s.ethRefresh d (q / 4) else s

/-- Whether a group may be out of DISABLED: every lane enabled, PLL locked, the quad's domain in RUN, VTT_XCV valid (R429, R430,
R535). -/
def Chip.groupOn (s : Chip) (d q : Nat) (lanes : List Nat) : Bool :=
  lanes.all (fun l => s.flag d (F.XCV_LANE_CFG_EN q l)) && s.flag d (F.XCV_QUAD_STATUS_PLL_LOCK q) && s.runs d &&
    s.domState d (Dom.xcv q) == 0 && !s.asleep d (Dom.xcv q) && s.flag d F.PWR_RAIL_VTT_XCV_OK

/-- Whether the Karn link of a quad waits for the key, with ENC = 1, or the route table that its die's reset has lost (R645; log 224). -/
def Chip.linkWaits (s : Chip) (d q : Nat) : Bool :=
  let x := s.karn.get (4 * d + q / 2)
  s.flag d (F.XCV_QUAD_CFG_KARN q) && (x.needRoute || (x.needKey && s.flag d (F.KRN_LINK_CFG_ENC (q / 2))))

/-- Whether a group may leave DISABLED: the die is past stage 1 of the release, or brings up the link it boots over; a Karn link does
not wait to be written again (R430, R459, R644, R645). -/
def Chip.xcvStage (s : Chip) (d q : Nat) : Bool :=
  (1 ≤ s.dieStage d || (s.cfg.mode == 5 && d == 0 && q == 1)) && !s.linkWaits d q

/-- Whether a Karn link waits in DETECT for its key (R464). -/
def Chip.keyMissing (s : Chip) (d q : Nat) : Bool :=
  s.flag d (F.XCV_QUAD_CFG_KARN q) && s.flag d (F.KRN_LINK_CFG_ENC (q / 2)) && (s.karn.get (4 * d + q / 2)).active.isNone

/-- The transitions of R430 that need no event, at most `fuel` of them. -/
def Chip.settleGroup : Nat → Chip → Nat → Nat → Nat → Chip
  | 0, s, _, _, _ => s
  | fuel + 1, s, d, q, l =>
    let lanes := s.groupOf d q l
    let all (f : Nat → Bool) : Bool := lanes.all f
    let go (st : Nat) : Chip := Chip.settleGroup fuel (s.setGroup d q lanes st) d q l
    let st := s.laneState d q l
    let loops := lanes.any (fun l => s.fld d (F.XCV_LANE_CFG_LOOP q l) != 0)
    if st = 0 then (if s.groupOn d q lanes && s.xcvStage d q then go 1 else s)
    else if !s.groupOn d q lanes then s.setGroup d q lanes 0
    else if st != 6 && loops then go 6
    else if st = 6 then (if loops then s else go 1)
    else if (s.lane d q l).retryWait then s
    else if st = 1 then
      (if all (fun l => s.fld d (F.XCV_LANE_CFG_DETECT_KIND q l) % 3 == 0) && !s.keyMissing d q then go 2 else s)
    else if st = 2 then (if all (fun l => s.fld d (F.XCV_LANE_CFG_TRAIN_KIND q l) % 3 == 0) then go 3 else s)
    else if st = 4 then
      (if s.ethMode d q != 0 || all (fun l => !s.flag d (F.XCV_LANE_CFG_EXCH_KIND q l)) then go 5 else s)
    else s

/-- Every transition of a lane's group that needs no event. -/
def Chip.settleLane (s : Chip) (d q l : Nat) : Chip := s.settleGroup 8 d q l

/-- Every group of a quad settled. -/
def Chip.settleQuad (s : Chip) (d q : Nat) : Chip := s.upTo 4 (fun s l => s.settleLane d q l)

/-- Every group of a die settled: a release stage, a domain or a supply has changed (R430). -/
def Chip.settleXcv (s : Chip) (d : Nat) : Chip := s.upTo 8 (fun s q => s.settleQuad d q)

/-- Every lane of a quad goes to DISABLED (R428, R430). -/
def Chip.quadDown (s : Chip) (d q : Nat) : Chip := s.upTo 4 (fun s l => if s.laneState d q l = 0 then s else s.setGroup d q [l] 0)

/-- A bring-up failure of a lane's group (R430): FAILS, LAST_FAIL, the first one logged, then RETRY_WAIT. -/
def Chip.groupFails (s : Chip) (d q l cause : Nat) : Chip :=
  let lanes := s.groupOf d q l
  let first := !(s.lane d q l).failLogged
  let s := s.each lanes (fun s l =>
    let s := s.satFld d (F.XCV_LANE_STATUS_FAILS q l) 1
    let s := s.setFld d (F.XCV_LANE_STATUS_LAST_FAIL q l) cause
    s.onLane d q l (fun x => { x with retryWait := true, failLogged := true }))
  if first then s.logEv d Ev.xcvBringupFail (q + l * 2 ^ 3 + cause * 2 ^ 5) else s

/-- Whether a lane's group is in a state and not waiting to retry. -/
def Chip.groupIn (s : Chip) (d q l st : Nat) : Bool := s.laneState d q l == st && !(s.lane d q l).retryWait

/-! ### Events of a quad (R414) -/

/-- PLL_LOCK: an enabled PLL locks to a reference clock from 100 to 312.5 MHz with F_pll from 7.0 to 14.0625 GHz (R413,
R414). -/
def Chip.pllLock (s : Chip) (d q ref : Nat) : Chip :=
  let f2 := ref * s.fld d (F.XCV_QUAD_CFG_NX2 q)
  if s.flag d (F.XCV_QUAD_CFG_PLL_EN q) && 100000000 ≤ ref && ref ≤ 312500000 && 14000000000 ≤ f2 && f2 ≤ 28125000000 then
    let s := { s with quadRef := s.quadRef.set (8 * d + q) ref }
    let s := s.setFlag d (F.XCV_QUAD_STATUS_REF_OK q) true
    (s.setFlag d (F.XCV_QUAD_STATUS_PLL_LOCK q) true).settleQuad d q
  else s

/-- PLL_LOCK (R414). -/
def execPllLock (d : Die) (q : Fin 8) (refHz : BitVec 32) (s : State) : Out := s.onDie d (fun c => c.pllLock d q refHz.toNat)

/-- XCV_PLL_LOST (R414). -/
def Chip.pllLost (s : Chip) (d q : Nat) : Chip :=
  if s.flag d (F.XCV_QUAD_CFG_PLL_EN q) && s.flag d (F.XCV_QUAD_STATUS_PLL_LOCK q) then
    let s := s.setFlag d (F.XCV_QUAD_STATUS_PLL_LOCK q) false
    let s := s.setFlag d (F.XCV_QUAD_STATUS_PLL_LOST q) true
    (s.logEv d Ev.xcvPllLost q).quadDown d q
  else s

/-- XCV_PLL_LOST (R414). -/
def execXcvPllLost (d : Die) (q : Fin 8) (s : State) : Out := s.onDie d (fun c => c.pllLost d q)

/-! ### Events of a group (R430 to R433) -/

/-- DETECT_DONE: on every lane a receiver, or signal for 10 µs (R430). -/
def Chip.detectDone (s : Chip) (d q l : Nat) : Chip :=
  if s.groupIn d q l 1 && !s.keyMissing d q then (s.setGroup d q (s.groupOf d q l) 2).settleLane d q l else s

/-- DETECT_DONE (R430). -/
def execDetectDone (d : Die) (q : Fin 8) (l : Fin 4) (s : State) : Out := s.onDie d (fun c => c.detectDone d q l)

/-- TRAINING_COMPLETE: polarity is applied; the lane order found stands, is reversed, or fails the training (R431, R432,
R453). `order` holds the lane index received on each lane. -/
def Chip.trainingComplete (s : Chip) (d q l : Nat) (inverted : BitVec 4) (order : BitVec 8) (lat : Nat) : Chip :=
  if s.groupIn d q l 2 then
    let lanes := s.groupOf d q l
    let n := lanes.length
    let s := s.each lanes (fun s l => s.when (inverted.getLsbD l) (fun s => s.setFlag d (F.XCV_LANE_CFG_RX_INV q l) true))
    let straight := lanes.all (fun l => bits order (2 * l) 2 == l % n)
    let turned := lanes.all (fun l => bits order (2 * l) 2 == n - 1 - l % n)
    let native := s.fld d (F.XCV_LANE_CFG_TRAIN_KIND q l) == 1
    if native && !straight && !turned then s.groupFails d q l 2
    else
      let s := if native then
          let g := l / n
          let r := s.fld d (F.XCV_QUAD_STATUS_REVERSED q)
          let r := r - (if r.testBit g then 2 ^ g else 0)
          s.setFld d (F.XCV_QUAD_STATUS_REVERSED q) (if straight then r else r + 2 ^ g)
        else s
      let s := if s.flag d (F.XCV_QUAD_CFG_KARN q) then s.setFld d (F.KRN_LINK_STATUS_LAT (q / 2)) lat else s
      (s.setGroup d q lanes 3).settleLane d q l
  else s

/-- TRAINING_COMPLETE (R431, R432). -/
def execTrainingComplete (d : Die) (q : Fin 8) (l : Fin 4) (inverted : BitVec 4) (order : BitVec 8) (lat : BitVec 10)
    (s : State) : Out := s.onDie d (fun c => c.trainingComplete d q l inverted order lat.toNat)

/-- TRAIN_TIMEOUT (R430). -/
def execTrainTimeout (d : Die) (q : Fin 8) (l : Fin 4) (s : State) : Out :=
  s.onDie d (fun c => c.when (c.groupIn d q l 2) (fun c => c.groupFails d q l 1))

/-- The probe check of a lane over 64 commas: whether it passes, and whether it inverts the lane; the counts are of as-received
and of complemented symbols that equal PROBE (R433). -/
def Chip.probe (s : Chip) (d q l asGot turned : Nat) : Bool × Bool :=
  if s.lanePcs d q l != 0 || s.fld d (F.XCV_LANE_PROBE_POS q l) == 0 || 48 ≤ asGot then (true, false)
  else if 48 ≤ turned && s.flag d (F.XCV_LANE_CFG_POL_AUTO q l) then (true, true)
  else (false, false)

/-- LOCK_DONE: clock, word lock and probe on every lane; a failing probe runs again (R430, R433). `slips` holds each lane's
boundary offset, `probes` its probe counts. -/
def Chip.lockDone (s : Chip) (d q l : Nat) (slips : BitVec 28) (probes : List (Fin 65 × Fin 65)) : Chip :=
  let lanes := s.groupOf d q l
  let result (l : Nat) : Bool × Bool := match probes[l]? with
    | some (a, b) => s.probe d q l a b
    | none => s.probe d q l 0 0
  if s.groupIn d q l 3 && lanes.all (fun l => (result l).1) then
    let s := s.each lanes (fun t l =>
      let t := t.setFlag d (F.XCV_LANE_STATUS_CDR_LOCK q l) true
      let t := t.setFlag d (F.XCV_LANE_STATUS_WORD_LOCK q l) true
      let t := t.when (result l).2 (fun t => t.setFlag d (F.XCV_LANE_CFG_RX_INV q l) true)
      t.when (!t.flag d (F.XCV_LANE_CFG_ALIGN q l)) (fun t =>
        t.setFld d (F.XCV_LANE_STATUS_SLIP q l) (bits slips (7 * l) 7 % lineBits (t.lanePcs d q l) (t.laneWidth d q l))))
    (s.setGroup d q lanes 4).settleLane d q l
  else s

/-- LOCK_DONE (R430, R433). -/
def execLockDone (d : Die) (q : Fin 8) (l : Fin 4) (slips : BitVec 28) (probes : List (Fin 65 × Fin 65)) (s : State) : Out :=
  s.onDie d (fun c => c.lockDone d q l slips probes)

/-- LOCK_TIMEOUT: in LOCK cause 3, in EXCHANGE cause 4 (R430). -/
def execLockTimeout (d : Die) (q : Fin 8) (l : Fin 4) (s : State) : Out :=
  s.onDie d (fun c =>
    if c.groupIn d q l 3 then c.groupFails d q l 3 else if c.groupIn d q l 4 then c.groupFails d q l 4 else c)

/-- RETRY_WAIT_EXPIRE (R430). -/
def execRetryWaitExpire (d : Die) (q : Fin 8) (l : Fin 4) (s : State) : Out :=
  s.onDie d (fun c => c.when (c.lane d q l).retryWait (fun c => (c.setGroup d q (c.groupOf d q l) 1).settleLane d q l))

/-- Lock is lost on a lane of an ACTIVE group (R430). -/
def Chip.lockLost (s : Chip) (d q l : Nat) : Chip :=
  if s.laneState d q l = 5 then
    let lanes := s.groupOf d q l
    let s := s.each lanes (fun s l => s.setFld d (F.XCV_LANE_STATUS_LAST_FAIL q l) 5)
    let s := s.setFlag d (F.XCV_LANE_STATUS_WORD_LOCK q l) false
    let s := s.logEv d Ev.xcvLockLost (q + l * 2 ^ 3)
    s.setGroup d q lanes 3
  else s

/-- XCV_LOCK_LOST (R430). -/
def execXcvLockLost (d : Die) (q : Fin 8) (l : Fin 4) (s : State) : Out := s.onDie d (fun c => c.lockLost d q l)

/-! ### Lane words (R417 to R422, R427, R434, R435) -/

/-- Whether the fabric reaches a quad's lanes: its region's collar is open, FCLK runs, and neither a MAC nor the Karn engine
has the quad (R425, R426, R436). -/
def Chip.quadFed (s : Chip) (d q : Nat) : Bool :=
  s.collarOpen d (quadRegion d q) && s.sourceRuns d (24 + s.fld d (F.XCV_QUAD_CFG_FCLK q)) &&
    s.ethMode d q == 0 && !s.flag d (F.XCV_QUAD_CFG_KARN q)

/-- LANE_TX_WORD: a word presented with TX_WR is stored while there is room; outside ACTIVE, or into a full FIFO, it is
discarded (R427). A near loop takes words as ACTIVE does (R434). -/
def Chip.laneTx (s : Chip) (d q l : Nat) (w : BitVec 72) : Chip :=
  let st := s.laneState d q l
  let loop := s.fld d (F.XCV_LANE_CFG_LOOP q l)
  if s.quadFed d q && (st = 5 || (st = 6 && (loop = 1 || loop = 2))) && (s.lane d q l).txFifo.length < 16 then
    s.onLane d q l (fun x => { x with txFifo := x.txFifo ++ [w] })
  else s

/-- LANE_TX_WORD (R427). -/
def execLaneTxWord (d : Die) (q : Fin 8) (l : Fin 4) (word : BitVec 72) (s : State) : Out :=
  s.onDie d (fun c => c.laneTx d q l word)

/-- A word enters the receive FIFO; the first one is presented at once (R427). -/
def Chip.laneDeliver (s : Chip) (d q l : Nat) (w : BitVec 80) : Chip :=
  s.onLane d q l (fun x =>
    if x.shown.isNone && x.rxFifo.isEmpty then { x with shown := some w }
    else if x.rxFifo.length < 16 then { x with rxFifo := x.rxFifo ++ [w] } else x)

/-- A received word at its boundary as a lane presents it: RXD, RXK, RX_ERR and COMMA; the number of errors; and the lane's
decoder after it (R417, R420, R421, R423). -/
def Chip.decoded (s : Chip) (d q l : Nat) (w : BitVec 80) : BitVec 80 × Nat × LaneRec :=
  let x := s.lane d q l
  let width := s.laneWidth d q l
  let pcs := s.lanePcs d q l
  if pcs = 0 then
    let (v, errs, rd) := decodeOctets (width / 8) x.rdRx w
    (v, errs, { x with rdRx := rd })
  else if pcs = 1 then
    let got := BitVec.ofNat 64 (bits w 2 64)
    let (plain, r) := descramble 64 x.scrRx got
    let errs := if bit w 0 == bit w 1 then 1 else 0
    let data := if s.flag d (F.XCV_LANE_CFG_SCRAMBLE q l) then plain else got
    (BitVec.ofNat 80 (data.toNat + bits w 0 2 * 2 ^ 64 + errs * 2 ^ 73), errs, { x with scrRx := r })
  else (BitVec.ofNat 80 (bits w 0 width), 0, x)

/-- The word at the lane's boundary: SLIP line bits later than the bits as they come (R419). -/
def Chip.framed (s : Chip) (d q l : Nat) (w : BitVec 80) : BitVec 80 :=
  let n := lineBits (s.lanePcs d q l) (s.laneWidth d q l)
  let slip := s.fld d (F.XCV_LANE_STATUS_SLIP q l) % n
  if slip = 0 then w else BitVec.ofNat 80 (bits (s.lane d q l).prev slip (n - slip) + bits w 0 slip * 2 ^ (n - slip))

/-- The PRBS check of a received word: the checker locks on a word without a mismatch, then counts (R435). -/
def Chip.prbsCheck (s : Chip) (d q l : Nat) (w : BitVec 80) : Chip :=
  let p := s.fld d (F.XCV_LANE_CFG_PRBS q l)
  if !prbsOn p then s
  else
    let locked := s.flag d (F.XCV_LANE_PRBS_LOCKED q l)
    let r := prbsRun p locked w (lineBits (s.lanePcs d q l) (s.laneWidth d q l)) (s.lane d q l).prbs
    let s := s.onLane d q l (fun x => { x with prbs := r.1 })
    if locked then s.satFld d (F.XCV_LANE_PRBS_ERRORS q l) r.2
    else if r.2 = 0 && r.1 != 0 then s.setFlag d (F.XCV_LANE_PRBS_LOCKED q l) true else s

/-- The errors of the last 64 words, with those of this word; whether the lane loses word or block lock (R418, R420). -/
def Chip.laneErrors (s : Chip) (d q l errs : Nat) : Chip :=
  let s := s.satFld d (F.XCV_LANE_ERR_CODE_ERR q l) errs
  let h := ((s.lane d q l).errs ++ [errs])
  let h := h.drop (h.length - 64)
  let total := h.foldl (· + ·) 0
  let pcs := s.lanePcs d q l
  let lost := (pcs = 0 && 8 ≤ total && !s.flag d (F.XCV_LANE_CFG_ALIGN q l)) || (pcs = 1 && 16 ≤ total)
  if lost then (s.onLane d q l (fun x => { x with errs := [] })).lockLost d q l else s.onLane d q l (fun x => { x with errs := h })

/-- Line bits at a lane's receiver: checked against the PRBS, framed, decoded and presented; a MAC's or the Karn engine's lane presents
nothing (R417 to R421, R427, R435, R436). -/
def Chip.laneReceive (s : Chip) (d q l : Nat) (w : BitVec 80) (own : Bool) : Chip :=
  let s := s.prbsCheck d q l w
  if s.flag d (F.XCV_QUAD_CFG_KARN q) then s
  else
    let (v, errs, x) := s.decoded d q l (if own then w else s.framed d q l w)
    let s := s.onLane d q l (fun _ => { x with prev := w })
    let s := if s.ethMode d q = 0 then s.laneDeliver d q l v else s
    if own || s.fld d (F.XCV_LANE_CFG_PRBS q l) != 0 then s else s.laneErrors d q l errs

/-- LANE_RX_WORD: the line bits of a received word, as they come on the pair. In ACTIVE it is presented once; in the far loop it is also
sent back through the elastic buffer (R417 to R421, R427, R434, R435). -/
def Chip.laneRx (s : Chip) (d q l : Nat) (w : BitVec 80) : Chip :=
  let st := s.laneState d q l
  let far := st = 6 && s.fld d (F.XCV_LANE_CFG_LOOP q l) = 3
  if st != 5 && !far then s
  else
    let s := if far then
        (if 32 ≤ (s.lane d q l).elastic.length then s.satFld d (F.XCV_LANE_ERR_TX_UNDER q l) 1
        else s.onLane d q l (fun x => { x with elastic := x.elastic ++ [some (w.setWidth 128)] }))
      else s
    s.laneReceive d q l (if s.flag d (F.XCV_LANE_CFG_RX_INV q l) then ~~~w else w) false

/-- The fill word of a coding layer (R422). -/
def fillWord (pcs width : Nat) : BitVec 72 :=
  if pcs = 0 then
    (List.range (width / 8)).foldl (fun v k => putBits (putBits v (8 * k) 8 0xBC) (64 + k) 1 1) 0
  else if pcs = 1 then 0x1E#72 ||| 0x20000000000000000#72
  else 0

/-- A word as the line bits that leave the transmitter, bit 0 first: PRBS in its place where selected (R417, R420, R421, R435). -/
def Chip.laneBits (s : Chip) (d q l : Nat) (w : BitVec 72) : BitVec 128 × LaneRec :=
  let x := s.lane d q l
  let width := s.laneWidth d q l
  let pcs := s.lanePcs d q l
  let p := s.fld d (F.XCV_LANE_CFG_PRBS q l)
  if prbsOn p then
    let (v, r) := prbsNext p (lineBits pcs width) x.prbsTx
    (v, { x with prbsTx := r })
  else if pcs = 0 then
    let (v, rd) := encodeOctets (width / 8) x.rd w
    (v.setWidth 128, { x with rd := rd })
  else if pcs = 1 then
    let data := BitVec.ofNat 64 (bits w 0 64)
    let (v, r) := if s.flag d (F.XCV_LANE_CFG_SCRAMBLE q l) then scramble 64 x.scr data else (data, x.scr)
    (BitVec.ofNat 128 (bits w 64 2 + v.toNat * 4), { x with scr := r })
  else (BitVec.ofNat 128 (bits w 0 width), x)

/-- Line bits on a lane's TX balls: in electrical idle none, inverted where TX_INV says so. -/
def Chip.toBalls (s : Chip) (d q l : Nat) (v : Option (BitVec 128)) : Chip :=
  let turned := v.map (fun v => if s.flag d (F.XCV_LANE_CFG_TX_INV q l) then ~~~v else v)
  s.onLane d q l (fun x => { x with line := if s.flag d (F.XCV_LANE_CFG_TX_OFF q l) then none else turned })

/-- A word of a lane in ACTIVE starts its way to the balls (R428). -/
def Chip.laneSend (s : Chip) (d q l : Nat) (w : BitVec 72) : Chip :=
  let (v, x) := s.laneBits d q l w
  s.onLane d q l (fun _ => { x with held := x.held ++ [(s.now, v)] })

/-- A word slot of a lane's transmitter: the oldest word leaves, or a fill word; a near loop returns the lane's own words, the
far loop takes one from its elastic buffer, or repeats one (R422, R434, R435). A MAC or the Karn engine sends in its own form. -/
def Chip.laneSlot (s : Chip) (d q l : Nat) : Chip :=
  let x := s.lane d q l
  let prbs := prbsOn (s.fld d (F.XCV_LANE_CFG_PRBS q l))
  if s.laneState d q l = 5 then
    (if s.ethMode d q != 0 || s.flag d (F.XCV_QUAD_CFG_KARN q) then s.when prbs (fun s => s.laneSend d q l 0)
    else match x.txFifo with
      | w :: r => (s.onLane d q l (fun x => { x with txFifo := r })).laneSend d q l w
      | [] =>
        (s.satFld d (F.XCV_LANE_ERR_TX_UNDER q l) 1).laneSend d q l (fillWord (s.lanePcs d q l) (s.laneWidth d q l)))
  else if s.fld d (F.XCV_LANE_CFG_LOOP q l) = 3 then
    match x.elastic with
    | v :: r => (s.onLane d q l (fun x => { x with elastic := r })).toBalls d q l v
    | [] => s.satFld d (F.XCV_LANE_ERR_TX_UNDER q l) 1
  else if x.txFifo.isEmpty && !prbs then s
  else
    let (v, y) := s.laneBits d q l (x.txFifo.headD 0)
    (s.onLane d q l (fun _ => { y with txFifo := x.txFifo.tail })).laneReceive d q l (v.setWidth 80) true

/-- A training word of a lane in TRAIN: DONE is free until training is complete (R431; log 219). -/
def Chip.trainSlot (s : Chip) (d q l : Nat) : Chip :=
  let size := (s.groupOf d q l).length
  let (v, r) := prbsNext 2 91 (s.lane d q l).prbsTx
  (s.onLane d q l (fun x => { x with prbsTx := r })).toBalls d q l
    (some (trainingWord (l % size) size (Config.trainDone (s.now * 128 + (8 * d + q) * 4 + l)) v))

/-- The number of edges of a clock within the nanosecond that follows. -/
def Chip.edgesNow (s : Chip) (hz : Nat) : Nat := (s.now + 1) * hz / 10 ^ 9 - s.now * hz / 10 ^ 9

/-- Line bits that left the FIFO 72 nc ago reach the balls (R428). -/
def Chip.laneBalls (s : Chip) (d q l : Nat) : Chip :=
  match (s.lane d q l).held with
  | (t, v) :: r => if t + 60 ≤ s.now then (s.onLane d q l (fun x => { x with held := r })).toBalls d q l (some v) else s
  | [] => s

/-- Whether a lane sends native training words (R431). -/
def Chip.trains (s : Chip) (d q l : Nat) : Bool :=
  s.groupIn d q l 2 && s.fld d (F.XCV_LANE_CFG_TRAIN_KIND q l) == 1

/-- One nanosecond of every lane: its word slots, or training words, and bits that reach its balls. -/
def Chip.laneTick (s : Chip) : Chip :=
  s.each (s.lanes.map (·.1)) (fun s key =>
    let d := key / 32
    let q := key / 4 % 8
    let l := key % 4
    if !s.runs d then s
    else if (s.lane d q l).live then
      (s.upTo (s.edgesNow (s.laneWordHz d q l)) (fun s _ => s.laneSlot d q l)).laneBalls d q l
    else if s.trains d q l then
      s.upTo (s.edgesNow (lineHz (s.refHz d q) (s.fld d (F.XCV_QUAD_CFG_NX2 q)) (s.laneDiv d q l) / 128)) (fun s _ => s.trainSlot d q l)
    else s)

/-- The number that n edge signals of a quad's region carry from signal e of lane l's slot on, lowest bit first (R412, R423). -/
def Chip.slotWord (s : Chip) (d q l e n : Nat) : Nat :=
  (List.range n).foldl (fun v i =>
    v + ofBool (s.edgeOut d (quadRegion d q) (quadSide d) (80 * (4 * (q % 2) + l) + e + i)) * 2 ^ i) 0

/-- A rising edge of a quad's FCLK, every value taken from `pre`: a word with TX_WR = 1 is stored, the next received word, TX_RDY and
ACTIVE are presented (R423, R426, R427). -/
def Chip.fclkEdge (pre : Chip) (d q : Nat) (s : Chip) : Chip :=
  s.upTo 4 (fun s l =>
    let x := pre.lane d q l
    let s := s.onLane d q l (fun y => { y with
      shown := x.rxFifo.head?, rxFifo := x.rxFifo.tail, rdyOut := x.txFifo.length ≤ 12, upOut := pre.laneState d q l == 5 })
    s.when (pre.slotWord d q l 72 1 == 1) (fun s => s.laneTx d q l (BitVec.ofNat 72 (pre.slotWord d q l 0 72))))

/-! ### Registers (R419, R430, R444) -/

/-- BITSLIP: the boundary one line bit later, modulo the word's line bits; no effect with ALIGN = 0 (R419). -/
def Chip.bitslip (s : Chip) (d q l : Nat) : Chip :=
  if s.flag d (F.XCV_LANE_CFG_ALIGN q l) then
    s.setFld d (F.XCV_LANE_STATUS_SLIP q l)
      ((s.fld d (F.XCV_LANE_STATUS_SLIP q l) + 1) % lineBits (s.lanePcs d q l) (s.laneWidth d q l))
  else s

/-- A refused write of a quad. -/
def Chip.xcvRefused (s : Chip) (d q : Nat) : Chip := s.setFlag d (F.XCV_QUAD_STATUS_REFUSED q) true

/-- A write of XCV_LANE_l_CTRL. -/
def Chip.laneCtrlWrite (s : Chip) (d q l : Nat) (v : W36) : Chip :=
  if s.flag d (F.XCV_QUAD_CFG_KARN q) then s.xcvRefused d q
  else
    let s := s.when (bit v 0) (fun s => s.bitslip d q l)
    s.when (bit v 1 && s.laneState d q l == 5) (fun s => (s.setGroup d q (s.groupOf d q l) 1).settleLane d q l)

/-- XCV_RETRAIN (R430). -/
def execXcvRetrain (d : Die) (q : Fin 8) (l : Fin 4) (v : W36) (s : State) : Out :=
  s.onDie d (fun c => c.laneCtrlWrite d q l (v ||| 2))

/-- BITSLIP (R419). -/
def execBitslip (d : Die) (q : Fin 8) (l : Fin 4) (v : W36) (s : State) : Out :=
  s.onDie d (fun c => c.laneCtrlWrite d q l (v ||| 1))

/-- A write of XCV_QUAD_CFG: only while every lane is DISABLED (R444). -/
def Chip.quadCfgWrite (s : Chip) (d q : Nat) (v : W36) : Chip :=
  let off := Reg.XCV_QUAD_CFG q
  let still := (List.range 4).all (fun l => s.laneState d q l == 0)
  let lanesOk := (List.range 4).all (fun l => let w := s.reg d (Reg.XCV_LANE_CFG q l)
    laneValid (s.refHz d q) (bits v 1 9) (bits w 1 3) (bits w 4 2) (bits w 6 2))
  if s.flag d (F.XCV_QUAD_CFG_KARN q) || (bits v 0 15 != bits (s.reg d off) 0 15 && !(still && lanesOk)) then s.xcvRefused d q
  else
    let s := s.plainWrite d off v
    if s.flag d (F.XCV_QUAD_CFG_PLL_EN q) then s
    else s.setFlag d (F.XCV_QUAD_STATUS_PLL_LOCK q) false

/-- A write of XCV_LANE_l_CFG: fields other than EN only while the lane is DISABLED or with EN written 0; no invalid
combination (R416, R444). -/
def Chip.laneCfgWrite (s : Chip) (d q l : Nat) (v : W36) : Chip :=
  let off := Reg.XCV_LANE_CFG q l
  let old := s.reg d off
  let same := bits v 1 23 == bits old 1 23
  let free := s.laneState d q l == 0 || !bit v 0
  let ok := laneValid (s.refHz d q) (s.fld d (F.XCV_QUAD_CFG_NX2 q)) (bits v 1 3) (bits v 4 2) (bits v 6 2)
  if s.flag d (F.XCV_QUAD_CFG_KARN q) || !ok || !(same || free) then s.xcvRefused d q
  else
    let s := s.plainWrite d off v
    let s := s.when (bits v 21 3 != bits old 21 3) (fun s => s.setFlag d (F.XCV_LANE_PRBS_LOCKED q l) false)
    let s := s.when (bit v 0 && !bit old 0) (fun s => s.onLane d q l (fun x => { x with failLogged := false }))
    let s := s.when (!bit v 0 && s.laneState d q l != 0) (fun s => s.setGroup d q (s.groupOf d q l) 0)
    s.settleLane d q l

/-- A write of a register of the XCV_ block. -/
def Chip.xcvWrite (s : Chip) (d off : Nat) (v : W36) : Chip :=
  let q := (off - Reg.XCV_QUAD_CFG 0) / 0x1000
  let i := off % 0x1000
  let l := (i - 0x10) / 8
  if i = 0 then s.quadCfgWrite d q v
  else if i < 0x10 || 0x30 ≤ i then s.plainWrite d off v
  else if i % 8 = 0 then s.laneCfgWrite d q l v
  else if i % 8 = 1 then (if s.flag d (F.XCV_QUAD_CFG_KARN q) then s.xcvRefused d q else s.plainWrite d off v)
  else if i % 8 = 2 then s.laneCtrlWrite d q l v
  else if i % 8 = 6 then (if 48 < bits v 0 5 + bits v 5 6 then s.xcvRefused d q else s.plainWrite d off v)
  else s.plainWrite d off v

end Sys2Proof.Machine
end

