-- ==== Sys2Proof/Machine/Clock.lean ====
section
/-! DEFINITION. Synthesisers, global clocks and their ramps, the system clock generator, the monitor of XIN and fail-over
(chapter 17, R552 to R560 and R675). -/

namespace Sys2Proof.Machine

/-- The divider ramp of a clock of a die: global clock n as n, the island of domain dom as 32 + dom (R556). -/
def Chip.onRamp (s : Chip) (d clk : Nat) (f : Ramp → Ramp) : Chip := { s with ramps := s.ramps.upd (d * 128 + clk) f }

/-- CKM_GCLK_n.ACTIVE of every global clock of a die: enabled, and its source delivers edges (R110, R675). -/
def Chip.refreshClocks (s : Chip) (d : Nat) : Chip :=
  s.upTo 24 (fun s n =>
    let src := s.fld d (F.CKM_GCLK_SRC n)
    let fed := src = 8 || (src < 8 && s.flag d (F.CKM_SYN_CFG_EN src) &&
      (s.flag d (F.CKM_SYN_STATUS_LOCK src) || s.flag d (F.CKM_SYN_STATUS_FAILED_OVER src)))
    s.setFlag d (F.CKM_GCLK_ACTIVE n) (s.flag d (F.CKM_GCLK_EN n) && fed))

/-- The islands that the system clock generator feeds, where they run on it, Oboe quads and the spine: their ramps start at a step (R549,
R554, R558). -/
def Chip.rampIslands (s : Chip) (d step : Nat) : Chip :=
  s.each (Dom.spine :: (List.range 16).map Dom.quad) (fun s dom =>
    s.when (!s.asleep d dom && s.domPhase d dom == 0 && !s.flag d (F.PWR_DOM_STATUS_ON_OSC dom)) (fun s =>
      s.onRamp d (32 + dom) (fun _ => { step := step })))

/-- The ramps of the enabled global clocks that take a synthesiser start at a step, towards a source (R556, R558). -/
def Chip.rampUsers (s : Chip) (d y step src : Nat) : Chip :=
  s.upTo 24 (fun s n =>
    if s.flag d (F.CKM_GCLK_EN n) && s.fld d (F.CKM_GCLK_SRC n) = y then s.onRamp d n (fun _ => { step := step, src := src })
    else s)

/-- The limits of R555 on a value of CKM_SYN_s_CFG, in kHz: the reference after PDIV, the oscillator and the output, and the
ranges of the fields. -/
def synthValid (xinKHz : Nat) (v : W36) : Bool :=
  let ref := if bit v 1 then xinKHz else 200000
  let mult := bits v 2 8
  let pdiv := bits v 10 4
  let odiv := bits v 14 7
  8 ≤ mult && 1 ≤ pdiv && 1 ≤ odiv && 10000 * pdiv ≤ ref && ref ≤ 100000 * pdiv &&
    1600000 * pdiv ≤ ref * mult && ref * mult ≤ 3200000 * pdiv && ref * mult ≤ 1600000 * pdiv * odiv

/-- EXPECT of a die's monitor: 1,024 × FREQ ÷ 200 MHz, rounded (R557). -/
def Chip.monExpect (s : Chip) (d : Nat) : Nat := (1024 * s.fld d F.CKM_XIN_FREQ + 100000) / 200000

/-- The monitor starts once XIN is used: by the system clock generator, or by a synthesiser that feeds an enabled global clock
(R557). -/
def Chip.monitorUse (s : Chip) (d : Nat) : Chip :=
  let used := s.flag d F.CKM_SYS_REF || (List.range 24).any (fun n =>
    let src := s.fld d (F.CKM_GCLK_SRC n)
    s.flag d (F.CKM_GCLK_EN n) && src < 8 && s.flag d (F.CKM_SYN_CFG_EN src) && s.flag d (F.CKM_SYN_CFG_REF src))
  let s := s.when used (fun s => s.setFlag d F.CKM_MON_ACTIVE true)
  s.when (s.flag d F.CKM_MON_ACTIVE) (fun s => s.setFld d F.CKM_MON_EXPECT (s.monExpect d))

/-- A write of CKM_SYN_s_CFG: fields other than EN change only while EN = 0 or as it becomes 0, and only within the limits; any
other write is ignored and sets REFUSED (R555). A synthesiser newly enabled on XIN while the die is failed over shows FAILED_OVER
(R675). -/
def Chip.synthWrite (s : Chip) (d y : Nat) (v : W36) : Chip :=
  let old := s.reg d (Reg.CKM_SYN_CFG y)
  let was := bit old 0
  let en := bit v 0
  if (was && en && bits v 1 20 != bits old 1 20) || !synthValid (s.fld d F.CKM_XIN_FREQ) v then
    s.setFlag d (F.CKM_SYN_STATUS_REFUSED y) true
  else
    let s := s.plainWrite d (Reg.CKM_SYN_CFG y) v
    let s := if was == en then s
      else
        (s.setFlag d (F.CKM_SYN_STATUS_LOCK y) false).setFlag d (F.CKM_SYN_STATUS_FAILED_OVER y)
          (en && bit v 1 && s.flag d F.CKM_MON_FAILED)
    (s.refreshClocks d).monitorUse d

/-- A write of CKM_GCLK_n: a change of source while EN stays 1 follows the ramp (R111, R556). -/
def Chip.gclkWrite (s : Chip) (d n : Nat) (v : W36) : Chip :=
  let src := s.fld d (F.CKM_GCLK_SRC n)
  let was := s.flag d (F.CKM_GCLK_EN n)
  let s := s.plainWrite d (Reg.CKM_GCLK n) v
  let s := s.when (was && bit v 4 && bits v 0 4 != src) (fun s => s.onRamp d n (fun _ => { step := 1, src := bits v 0 4 }))
  (s.refreshClocks d).monitorUse d

/-- GCLK_SOURCE_CHANGE: a write of CKM_GCLK_n (R110, R111). -/
def execGclkSourceChange (d : Die) (n : Fin 24) (v : W36) (s : State) : Out := s.onDie d (fun c => c.gclkWrite d n v)

/-- The system clock generator relocks: its islands run from the internal oscillator meanwhile (R554). -/
def Chip.sysRelock (s : Chip) (d : Nat) : Chip := (s.setFlag d F.CKM_SYS_LOCK false).setFlag d F.CKM_SYS_ON_OSC true

/-- A write of CKM_SYS (R554). -/
def Chip.ckmSysWrite (s : Chip) (d : Nat) (v : W36) : Chip :=
  let was := s.flag d F.CKM_SYS_REF
  let s := s.plainWrite d Reg.CKM_SYS v
  (s.when (was != bit v 0) (fun s => s.sysRelock d)).monitorUse d

/-- SYS_REF_RELOCK: the generator has locked, and its islands leave the internal oscillator (R554). -/
def execSysRefRelock (d : Die) (s : State) : Out :=
  s.onDie d (fun c => c.when (!c.flag d F.CKM_SYS_LOCK) (fun c =>
    (c.setFlag d F.CKM_SYS_LOCK true).setFlag d F.CKM_SYS_ON_OSC false))

/-- SYNTH_LOCK: an enabled synthesiser locks; one on XIN does not while the die is failed over (R555, R675). The clocks that
failed over with it ramp back (R559, R560). -/
def Chip.synthLock (s : Chip) (d y : Nat) : Chip :=
  if !s.flag d (F.CKM_SYN_CFG_EN y) || s.flag d (F.CKM_SYN_STATUS_LOCK y) ||
      (s.flag d (F.CKM_SYN_CFG_REF y) && s.flag d F.CKM_MON_FAILED) then s
  else
    let back := s.flag d (F.CKM_SYN_STATUS_FAILED_OVER y)
    let s := (s.setFlag d (F.CKM_SYN_STATUS_LOCK y) true).setFlag d (F.CKM_SYN_STATUS_FAILED_OVER y) false
    (s.when back (fun s => s.rampUsers d y 1 y)).refreshClocks d

/-- SYNTH_LOCK (R555). -/
def execSynthLock (d : Die) (y : Fin 8) (s : State) : Out := s.onDie d (fun c => c.synthLock d y)

/-- A synthesiser's users are on the internal oscillator divided by 8, as in step 4 of a ramp, which goes on with step 5 (R558). -/
def Chip.synthFailsOver (s : Chip) (d y : Nat) : Chip :=
  let s := (s.setFlag d (F.CKM_SYN_STATUS_LOCK y) false).setFlag d (F.CKM_SYN_STATUS_FAILED_OVER y) true
  s.rampUsers d y 4 8

/-- CKM_SYN_UNLOCK: lock lost with the reference present (R560). -/
def Chip.synthUnlock (s : Chip) (d y : Nat) : Chip :=
  if s.flag d (F.CKM_SYN_CFG_EN y) && s.flag d (F.CKM_SYN_STATUS_LOCK y) then
    let s := (s.synthFailsOver d y).setFlag d (F.CKM_SYN_STATUS_UNLOCK_SEEN y) true
    (s.refreshClocks d).logEv d Ev.ckmSynUnlock y
  else s

/-- CKM_SYN_UNLOCK (R560). -/
def execCkmSynUnlock (d : Die) (y : Fin 8) (s : State) : Out := s.onDie d (fun c => c.synthUnlock d y)

/-- What the die does at a failure of XIN (R558). -/
def Chip.failOver (s : Chip) (d count : Nat) : Chip :=
  let s := (s.setFlag d F.CKM_MON_FAILED true).setFlag d F.CKM_MON_FAIL_SEEN true
  let s := s.upTo 8 (fun s y =>
    if s.flag d (F.CKM_SYN_CFG_EN y) && s.flag d (F.CKM_SYN_CFG_REF y) then s.synthFailsOver d y else s)
  let s := s.when (s.flag d F.CKM_SYS_REF) (fun s => (s.sysRelock d).rampIslands d 4)
  let s := (s.refreshClocks d).logEv d Ev.ckmClkfail count
  s.upTo 64 (fun s n => s.clkfailNmi d n)

/-- Whether a window is bad: no edges, or off EXPECT by more than TOL per cent (R557). -/
def windowBad (count expect tol : Nat) : Bool :=
  count = 0 || (max count expect - min count expect) * 100 > max 1 tol * expect

/-- MONITOR_WINDOW: a window ends; two bad ones in a row are a failure (R557). -/
def Chip.monitorWindow (s : Chip) (d count : Nat) : Chip :=
  if !s.flag d F.CKM_MON_ACTIVE then s
  else
    let s := s.setFld d F.CKM_MON_COUNT count
    let bad := windowBad count (s.fld d F.CKM_MON_EXPECT) (s.fld d F.CKM_XIN_TOL)
    let s := s.onClock d (fun c =>
      if bad then { c with badRun := c.badRun + 1, goodRun := 0 } else { c with badRun := 0, goodRun := c.goodRun + 1 })
    s.when (!s.flag d F.CKM_MON_FAILED && 2 ≤ (s.clock d).badRun) (fun s => s.failOver d count)

/-- MONITOR_WINDOW (R557, R558). -/
def execMonitorWindow (d : Die) (count : BitVec 11) (s : State) : Out := s.onDie d (fun c => c.monitorWindow d count.toNat)

/-- A write of CKM_MON: RESTORE acts once FAILED stands and 16 windows in a row were good (R559). -/
def Chip.ckmMonWrite (s : Chip) (d : Nat) (v : W36) : Chip :=
  let s := s.plainWrite d Reg.CKM_MON v
  s.when (bit v 25 && s.flag d F.CKM_MON_FAILED && 16 ≤ (s.clock d).goodRun) (fun s =>
    (s.setFlag d F.CKM_MON_FAILED false).when (s.flag d F.CKM_SYS_REF) (fun s => (s.sysRelock d).rampIslands d 1))

/-- CKM_MON_RESTORE: a write of CKM_MON with RESTORE = 1 (R559). -/
def execCkmMonRestore (d : Die) (v : W36) (s : State) : Out := s.onDie d (fun c => c.ckmMonWrite d (v ||| 0x2000000))

/-- A write of CKM_XIN: one whose FREQ breaks the limits of an enabled synthesiser on XIN is ignored and sets its REFUSED (R553, R555;
log 222). -/
def Chip.xinWrite (s : Chip) (d : Nat) (v : W36) : Chip :=
  let broken (y : Nat) : Bool := s.flag d (F.CKM_SYN_CFG_EN y) && s.flag d (F.CKM_SYN_CFG_REF y) &&
    !synthValid (bits v 2 18) (s.reg d (Reg.CKM_SYN_CFG y))
  if (List.range 8).any broken then
    s.upTo 8 (fun s y => s.when (broken y) (fun s => s.setFlag d (F.CKM_SYN_STATUS_REFUSED y) true))
  else (s.plainWrite d Reg.CKM_XIN v).monitorUse d

/-- A write of a CKM_ register (R110, R553 to R559). -/
def Chip.ckmWrite (s : Chip) (d off : Nat) (v : W36) : Chip :=
  if off = Reg.CKM_MON then s.ckmMonWrite d v
  else if off = Reg.CKM_SYS then s.ckmSysWrite d v
  else if off = Reg.CKM_XIN then s.xinWrite d v
  else match (List.range 8).find? (fun y => off = Reg.CKM_SYN_CFG y) with
    | some y => s.synthWrite d y v
    | none => match (List.range 24).find? (fun n => off = Reg.CKM_GCLK n) with
      | some n => s.gclkWrite d n v
      | none => s.plainWrite d off v

end Sys2Proof.Machine
end

