-- ==== Sys2Proof/Machine/Ethernet.lean ====
section
/-! DEFINITION. The Ethernet MACs: client words, transmission, received frames, PAUSE and timestamps (chapter 13). -/

namespace Sys2Proof.Machine

/-- A sub-port's key, and a MAC's. -/
def subKey (d m p : Nat) : Nat := (2 * d + m) * 4 + p

/-- A sub-port's transmit side. -/
def Chip.sub (s : Chip) (d m p : Nat) : EthSub := s.subs.get (subKey d m p)

/-- A sub-port's transmit side changed. -/
def Chip.onSub (s : Chip) (d m p : Nat) (f : EthSub → EthSub) : Chip := { s with subs := s.subs.upd (subKey d m p) f }

/-- A MAC's record changed. -/
def Chip.onMac (s : Chip) (d m : Nat) (f : MacRec → MacRec) : Chip := { s with macs := s.macs.upd (2 * d + m) f }

/-- A statistic of a sub-port advanced; it wraps at 2^36. -/
def Chip.ethStat (s : Chip) (d m p n k : Nat) : Chip := s.addFld d (F.ETH_STAT_COUNT m p n) k

/-- Whether the fabric reaches a MAC: its mode is on, its region's collar open and CCLK running (R426, R436). -/
def Chip.macFed (s : Chip) (d m : Nat) : Bool :=
  s.fld d (F.ETH_CFG_MODE m) != 0 && s.collarOpen d (quadRegion d (4 * m)) &&
    s.sourceRuns d (24 + s.fld d (F.ETH_CFG_CCLK m))

/-- The sub-port that a word's PORT names: 0 in 100G mode (R438). -/
def Chip.ethPort (s : Chip) (d m p : Nat) : Nat := if s.fld d (F.ETH_CFG_MODE m) = 1 then 0 else p

/-- MAC_TX_WORD: a word with TX_VALID is taken while at least 4 words are free, and otherwise discarded and counted (R438,
R439). -/
def Chip.macTx (s : Chip) (d m sub : Nat) (w : ClientWord) : Chip :=
  let p := s.ethPort d m sub
  if !s.macFed d m then s
  else if (s.sub d m p).txq.length + 4 ≤ s.ethDepth d m then s.onSub d m p (fun x => { x with txq := x.txq ++ [w] })
  else s.ethStat d m p 3 1

/-- MAC_TX_WORD (R438). -/
def execMacTxWord (d : Die) (m : Fin 2) (sub : Fin 4) (word : ClientWord) (s : State) : Out :=
  s.onDie d (fun c => c.macTx d m sub word)

/-! ### Transmission (R438, R439, R442) -/

/-- The octets in use of a client word, octet 0 first (R438). -/
def clientOctets (w : ClientWord) : List (BitVec 8) :=
  (List.range (if w.eop then 64 - w.empty.toNat else 64)).map (fun k => BitVec.ofNat 8 (bits w.data (8 * k) 8))

/-- n octets of a number, most significant first. -/
def bigEndian (n v : Nat) : List (BitVec 8) := (List.range n).map (fun i => BitVec.ofNat 8 (v >>> (8 * (n - 1 - i))))

/-- The FCS as it follows a frame, lowest octet first. -/
def fcsOctets (c : BitVec 32) : List (BitVec 8) := (List.range 4).map (fun i => BitVec.ofNat 8 (bits c (8 * i) 8))

/-- A frame with the egress time written at an offset (R442). -/
def withTime (os : List (BitVec 8)) (off t : Nat) : List (BitVec 8) :=
  os.take off ++ bigEndian 6 (t / 10 ^ 9) ++ bigEndian 4 (t % 10 ^ 9) ++ os.drop (off + 10)

/-- Bits that a sub-port sends in a nanosecond (R436). -/
def ethRate (mode : Nat) : Nat := if mode = 1 then 100 else if mode = 2 then 25 else 10

/-- A device time corrected by a field of ETH_m_TS_ADJ in units of 1/8 ns, in whole nanoseconds, truncated (R441). -/
def tsAdjust (t adj : Nat) : Nat := unsigned 64 (((t : Int) * 8 + signed 16 adj) / 8)

/-- A frame is whole on the line: one-step time, FCS, and its counts (R438, R442). -/
def Chip.endFrame (s : Chip) (d m p : Nat) (os : List (BitVec 8)) (corrupt : Bool) : Chip :=
  let pass := s.flag d (F.ETH_CFG_TX_FCS_PASS m)
  let body := if pass then os.take (os.length - 4) else os
  let (body', missed, stepped) := match (s.sub d m p).step with
    | some (t, off) => if body.length < off + 10 then (body, true, false) else (withTime body off t, false, true)
    | none => (body, false, false)
  let fcs := if pass && !stepped then os.drop (os.length - 4)
    else fcsOctets (if corrupt then Config.corruptFcs (crc32 body') else crc32 body')
  let out := body' ++ fcs
  let s := s.onSub d m p (fun x => { x with cur := none, step := none, held := x.held ++ [(s.now, out)], busy := x.busy + 160 + 32 })
  let s := s.when missed (fun s => s.ethStat d m p 11 1)
  (s.ethStat d m p 0 1).ethStat d m p 1 out.length

/-- The word at the head of a sub-port's FIFO goes to the line, after the octets already sent. -/
def Chip.sendWord (s : Chip) (d m p : Nat) (before : List (BitVec 8)) (w : ClientWord) (rest : List ClientWord) : Chip :=
  let os := before ++ clientOctets w
  let s := s.onSub d m p (fun x => { x with txq := rest, cur := some os, busy := x.busy + 8 * (clientOctets w).length })
  if w.eop then s.endFrame d m p os w.err else s

/-- Whether a frame may start: the sub-port is LINK and not paused, and the frame is whole in the FIFO or START_THR words of
it are (R439, R440). -/
def Chip.mayStart (s : Chip) (d m p : Nat) : Bool :=
  let q := (s.sub d m p).txq
  (s.fld d (F.ETH_STATUS_LINK m)).testBit p && !(s.fld d (F.ETH_STATUS_PAUSED m)).testBit p &&
    (q.any (·.eop) || max 1 (s.fld d (F.ETH_CFG_START_THR m)) ≤ q.length)

/-- Whether a word asks for a timestamp treatment of R442; 3 acts as 0. -/
def asksTime (w : ClientWord) : Bool := w.tsReq = 1 || w.tsReq = 2

/-- A sub-port's next word is due: it is sent, starts a frame, ends one in an underrun, or is discarded where the sub-port is
not LINK, from the frame on the line on (R439). -/
def Chip.ethSlot (s : Chip) (d m p : Nat) : Chip :=
  let x := s.sub d m p
  let link := (s.fld d (F.ETH_STATUS_LINK m)).testBit p
  match x.cur, x.txq with
  | some os, w :: r => if link then s.sendWord d m p os w r else s.onSub d m p (fun x => { x with cur := none, step := none })
  | some _, [] => (s.onSub d m p (fun x => { x with cur := none, step := none })).ethStat d m p 2 1
  | none, w :: r =>
    if !link || !w.sop then
      let s := s.onSub d m p (fun x => { x with txq := r, busy := x.busy + 8 * (clientOctets w).length })
      s.when (w.eop || (link && !w.sop)) (fun s => s.ethStat d m p 3 1)
    else if s.mayStart d m p && !asksTime w then s.sendWord d m p [] w r
    else s
  | none, [] => s

/-- TX_TIMESTAMP: the frame at the head asks for a timestamp and leaves now: its time is reported, or kept to be written into
it (R441, R442). -/
def Chip.txTimestamp (s : Chip) (d m p : Nat) : Chip :=
  let x := s.sub d m p
  match x.cur, x.txq with
  | none, w :: r =>
    if w.sop && asksTime w && s.mayStart d m p then
      let t := tsAdjust (s.time d) (s.fld d (F.ETH_TS_ADJ_TX m))
      let s := if w.tsReq = 1 then
          let e := (p, w.tsTag.toNat, t)
          s.onMac d m (fun y => if y.tsShown.isNone then { y with tsShown := some e } else { y with tsq := y.tsq ++ [e] })
        else s.onSub d m p (fun y => { y with step := some (t, w.tsOff.toNat) })
      s.sendWord d m p [] w r
    else s
  | _, _ => s

/-- TX_TIMESTAMP (R442). -/
def execTxTimestamp (d : Die) (m : Fin 2) (sub : Fin 4) (s : State) : Out :=
  s.onDie d (fun c => c.txTimestamp d m (c.ethPort d m sub))

/-! ### Reception (R437, R440, R441) -/

/-- A PAUSE frame of Annex 31B and its quanta. -/
def pauseQuanta (os : List (BitVec 8)) : Option Nat :=
  let at' (i : Nat) : Nat := (os.getD i 0).toNat
  if os.take 6 = [0x01, 0x80, 0xC2, 0x00, 0x00, 0x01] && at' 12 = 0x88 && at' 13 = 0x08 && at' 14 = 0 && at' 15 = 1 then
    some (at' 16 * 256 + at' 17)
  else none

/-- A frame cut into client words with its timestamp on the first and its error on the last (R438, R440, R441). -/
def frameWords (port ts : Nat) (err first : Bool) : Nat → List (BitVec 8) → List RxWord
  | 0, _ => []
  | fuel + 1, os =>
    let here := os.take 64
    let data : BitVec 512 := here.zipIdx.foldl (fun v (o, k) => v ||| (o.setWidth 512 <<< (8 * k))) 0
    let last : Bool := os.length ≤ 64
    let w : RxWord := { data := data, sop := first, eop := last, err := err && last, empty := 64 - here.length, port := port,
                        ts := if first then ts else 0 }
    if last then [w] else w :: frameWords port ts err false fuel (os.drop 64)

/-- Words put into the receive FIFO of 256 words; the first is presented at once. A frame that does not fit is cut short with
RX_ERR and counted (R440). -/
def Chip.presentFrame (s : Chip) (d m p : Nat) (ws : List RxWord) : Chip :=
  let free := 256 - (s.macs.get (2 * d + m)).rxq.length
  let cut := ws.take free
  let fits : Bool := ws.length ≤ free
  let ws := if fits then ws else cut.modify (cut.length - 1) (fun w => { w with eop := true, err := true })
  let s := s.when (!fits) (fun s => s.ethStat d m p 9 1)
  s.onMac d m (fun x => match x.shown, ws with
    | none, w :: r => { x with shown := some w, rxq := x.rxq ++ r }
    | _, ws => { x with rxq := x.rxq ++ ws })

/-- MAC_RX_FRAME: a received frame is counted, consumed as PAUSE, dropped, or presented (R437, R440, R441). The operand holds
its octets with the FCS, whether the PCS found an error, FEC codewords corrected and uncorrectable, and the nanoseconds since
the first octet after the SFD passed the balls. -/
def Chip.macRx (s : Chip) (d m p : Nat) (os : List (BitVec 8)) (pcsBad : Bool) (fixed bad ago : Nat) : Chip :=
  if !(s.fld d (F.ETH_STATUS_LINK m)).testBit p then s
  else
    let fec := (s.fld d (F.ETH_CFG_FEC m)).testBit p && s.fld d (F.ETH_CFG_MODE m) != 3
    let body := os.take (os.length - 4)
    let fcsBad := fcsOctets (crc32 body) != os.drop (os.length - 4)
    let long : Bool := s.fld d (F.ETH_CFG_MAXLEN m) < os.length
    let short : Bool := os.length < 64
    let uncorrectable := fec && bad != 0
    let err := fcsBad || pcsBad || uncorrectable || long
    let s := s.ethStat d m p 5 os.length
    let s := s.when fec (fun s => (s.ethStat d m p 12 fixed).ethStat d m p 13 bad)
    let s := s.when fcsBad (fun s => s.ethStat d m p 6 1)
    let s := s.when long (fun s => s.ethStat d m p 7 1)
    let s := s.when short (fun s => s.ethStat d m p 8 1)
    let s := s.when (!err && !short) (fun s => s.ethStat d m p 4 1)
    let present (s : Chip) : Chip :=
      if err && s.flag d (F.ETH_CFG_DROP_BAD m) then s
      else
        let shown := if s.flag d (F.ETH_CFG_FCS_STRIP m) then body else os
        let t := tsAdjust (s.time d - ago) (s.fld d (F.ETH_TS_ADJ_RX m))
        s.presentFrame d m p (frameWords p t err true (shown.length + 1) shown)
    match pauseQuanta os with
    | some n =>
      if !err && s.flag d (F.ETH_CFG_PAUSE_EN m) then
        let v := s.fld d (F.ETH_STATUS_PAUSED m)
        let off := v - (if v.testBit p then 2 ^ p else 0)
        (s.ethStat d m p 10 1).setFld d (F.ETH_STATUS_PAUSED m) (if n = 0 then off else off + 2 ^ p)
      else present s
    | none => present s

/-- MAC_RX_FRAME (R440). -/
def execMacRxFrame (d : Die) (m : Fin 2) (sub : Fin 4) (octets : List (BitVec 8)) (pcsBad : Bool) (fecFixed fecBad : Nat)
    (ago : BitVec 16) (s : State) : Out :=
  s.onDie d (fun c => c.macRx d m (c.ethPort d m sub) octets pcsBad fecFixed fecBad ago.toNat)

/-- PAUSE_QUANTA_EXPIRE (R440). -/
def execPauseQuantaExpire (d : Die) (m : Fin 2) (sub : Fin 4) (s : State) : Out :=
  s.onDie d (fun c =>
    let v := c.fld d (F.ETH_STATUS_PAUSED m)
    c.setFld d (F.ETH_STATUS_PAUSED m) (v - (if v.testBit sub then 2 ^ sub.val else 0)))

/-! ### Link faults (R437, R445) -/

/-- Whether a block, sync header from bit 64 on, holds an ordered set of remote fault (R437; log 220). -/
def remoteFaultBlock (v : BitVec 80) : Bool :=
  bits v 64 2 = 2 && (bits v 0 8 = 0x4B || bits v 0 8 = 0x55) && bits v 8 24 = 0x020000 && bits v 32 4 = 0

/-- A block received by a sub-port: after four of remote fault its REMOTE_FAULT bit is set, and after 64 blocks without one it is
cleared (R437; log 220). -/
def Chip.faultBlock (s : Chip) (d m p : Nat) (v : BitVec 80) : Chip :=
  let x := s.sub d m p
  let r := s.fld d (F.ETH_STATUS_REMOTE_FAULT m)
  if remoteFaultBlock v then
    let s := s.onSub d m p (fun x => { x with faults := x.faults + 1, clean := 0 })
    if x.faults + 1 < 4 then s else (s.setFld d (F.ETH_STATUS_REMOTE_FAULT m) (r ||| 2 ^ p)).ethRefresh d m
  else if x.faults = 0 then s
  else if x.clean + 1 < 64 then s.onSub d m p (fun x => { x with clean := x.clean + 1 })
  else
    ((s.onSub d m p (fun x => { x with faults := 0, clean := 0 })).setFld d (F.ETH_STATUS_REMOTE_FAULT m)
      (r - (if r.testBit p then 2 ^ p else 0))).ethRefresh d m

/-- LANE_RX_WORD: a received word of a lane; on a lane of a MAC, a block that may carry a link fault (R427, R437). -/
def Chip.laneWord (s : Chip) (d q l : Nat) (w : BitVec 80) : Chip :=
  if s.ethMode d q = 0 || s.laneState d q l != 5 then s.laneRx d q l w
  else
    let v := (s.decoded d q l (s.framed d q l (if s.flag d (F.XCV_LANE_CFG_RX_INV q l) then ~~~w else w))).1
    (s.laneRx d q l w).faultBlock d (q / 4) (s.ethPort d (q / 4) l) v

/-- LANE_RX_WORD (R427). -/
def execLaneRxWord (d : Die) (q : Fin 8) (l : Fin 4) (word : BitVec 80) (s : State) : Out :=
  s.onDie d (fun c => c.laneWord d q l word)

/-! ### Time and registers -/

/-- One nanosecond of the MACs: line time of every sub-port that holds words, and frames whole 72 nc ago reach the balls (R428,
R439). -/
def Chip.ethTick (s : Chip) : Chip :=
  s.each (s.subs.map (·.1)) (fun s key =>
    let d := key / 8
    let m := key / 4 % 2
    let p := key % 4
    let mode := s.fld d (F.ETH_CFG_MODE m)
    if mode = 0 || !s.runs d then s
    else
      let b := (s.sub d m p).busy
      let s := s.onSub d m p (fun x => match x.held with
        | (t, os) :: r => if t + 60 ≤ s.now then { x with busy := b - ethRate mode, held := r, out := os } else
          { x with busy := b - ethRate mode }
        | [] => { x with busy := b - ethRate mode })
      s.when (b ≤ ethRate mode) (fun s => s.ethSlot d m p))

/-- The number that n edge signals of a MAC's region carry from signal 640 + e on, lowest bit first (R423). -/
def Chip.macEdgeWord (s : Chip) (d m e n : Nat) : Nat :=
  (List.range n).foldl (fun v i => v + ofBool (s.edgeOut d (quadRegion d (4 * m)) (quadSide d) (640 + e + i)) * 2 ^ i) 0

/-- A rising edge of a MAC's CCLK, every value taken from `pre`: a client word with TX_VALID = 1 is offered, and the next received word,
the next timestamp report and TX_RDY are presented (R423, R426, R438 to R442). -/
def Chip.cclkEdge (pre : Chip) (d m : Nat) (s : Chip) : Chip :=
  let e (lo n : Nat) : Nat := pre.macEdgeWord d m lo n
  let x := pre.macs.get (2 * d + m)
  let rdy := (List.range 4).foldl (fun v p => v + ofBool (decide ((pre.sub d m p).txq.length + 4 ≤ pre.ethDepth d m)) * 2 ^ p) 0
  let s := s.onMac d m (fun _ => { rxq := x.rxq.tail, shown := x.rxq.head?, tsq := x.tsq.tail, tsShown := x.tsq.head?,
                                   rdyOut := BitVec.ofNat 4 rdy })
  s.when (e 512 1 == 1) (fun s => s.macTx d m (e 522 2) {
    data := BitVec.ofNat 512 (e 0 512), sop := e 513 1 == 1, eop := e 514 1 == 1, empty := BitVec.ofNat 6 (e 515 6)
    err := e 521 1 == 1, tsReq := BitVec.ofNat 2 (e 524 2), tsOff := BitVec.ofNat 8 (e 526 8), tsTag := BitVec.ofNat 8 (e 534 8) })

/-- Every held word of the MACs and lanes of a die is discarded (R428, R643). -/
def Chip.ethCleared (s : Chip) (d : Nat) : Chip :=
  { s with macs := SMap.dropRange s.macs (2 * d) (2 * d + 2), subs := SMap.dropRange s.subs (8 * d) (8 * d + 8) }

/-- A write of ETH_m_CFG: MODE, FEC and CCLK change only while MODE = 0 or with MODE written 0 (R445). -/
def Chip.ethCfgWrite (s : Chip) (d m : Nat) (v : W36) : Chip :=
  let old := s.reg d (Reg.ETH_CFG m)
  let changes := bits v 0 2 != bits old 0 2 || bits v 6 4 != bits old 6 4 || bits v 28 3 != bits old 28 3
  if changes && bits old 0 2 != 0 && bits v 0 2 != 0 then s.setFlag d (F.ETH_STATUS_REFUSED m) true
  else ((s.plainWrite d (Reg.ETH_CFG m) v).ethRefresh d m).settleQuad d (4 * m)

/-- A write of a register of the ETH_ block. -/
def Chip.ethWrite (s : Chip) (d off : Nat) (v : W36) : Chip :=
  if off = Reg.ETH_CFG 0 then s.ethCfgWrite d 0 v else if off = Reg.ETH_CFG 1 then s.ethCfgWrite d 1 v
  else s.plainWrite d off v

end Sys2Proof.Machine
end

