-- ==== Sys2Proof/Machine/PadRing.lean ====
section
/-! DEFINITION. The pad ring: user pins, banks and their latches, output health, cue FIFOs and pattern RAMs (chapter 11 from
R373, chapter 12). -/

namespace Sys2Proof.Machine

/-! ### Banks and pins (R383 to R386, R398, R399) -/

/-- The region and side of a bank (R384). -/
def bankRegion (d b : Nat) : Nat := if d % 2 = 0 then 12 * b else 3 + 12 * b
def bankSide (d : Nat) : Nat := if d % 2 = 0 then 3 else 1

/-- A bank's record. -/
def Chip.bank (s : Chip) (d b : Nat) : UioBank := s.banks.get (2 * d + b)

/-- A bank's record changed. -/
def Chip.onBank (s : Chip) (d b : Nat) (f : UioBank → UioBank) : Chip := { s with banks := s.banks.upd (2 * d + b) f }

/-- Whether a pin is shorted off (R407). -/
def Chip.shorted (s : Chip) (d b pin : Nat) : Bool :=
  if pin < 36 then (s.fld d (F.UIO_SHORT_LO_OFF b)).testBit pin else (s.fld d (F.UIO_SHORT_HI_OFF b)).testBit (pin - 36)

/-- The mode of a pin: high impedance, bank, latched, shorted off, user, driven by boundary scan. -/
inductive PinMode where
  | off | bank | latched | shorted | user | scan
deriving DecidableEq, Repr

/-- A die's test access port. -/
def Chip.tap (s : Chip) (d : Nat) : DieTap := s.taps.get d

/-- Whether boundary scan is allowed: not in SECURE_HALT, and above OPEN not in USER (R593, R607). -/
def Chip.scanAllowed (s : Chip) : Bool := s.dev ≠ .secureHalt && s.dev ≠ .off && (s.sec.level == 0 || s.dev ≠ .user)

/-- Whether the pins of a die are driven from its boundary register (R615). -/
def Chip.scanning (s : Chip) (d : Nat) : Bool := (s.tap d).ir == 0 && s.scanAllowed

/-- The mode of the pins of a bank, shorted pins aside (R399, R535). -/
def Chip.bankMode (s : Chip) (d b : Nat) : PinMode :=
  if s.dev = .off || !(s.fld d F.PWR_RAIL_VCCIO_OK).testBit b then .off
  else if s.scanning d then .scan
  else if s.dev = .secureHalt || s.dieInReset d then .bank
  else match s.dev with
    | .por | .selftest | .blank | .safeTalk | .loading | .backoff => .bank
    | _ =>
      if s.stage = 0 then .bank
      else if (s.bank d b).latched then .latched else .user

/-- The mode of a pin (R399). -/
def Chip.pinMode (s : Chip) (d b pin : Nat) : PinMode :=
  match s.bankMode d b with
  | .user => if s.shorted d b pin then .shorted else .user
  | m => m

/-- The serialiser of a pin's pair (R383). -/
def pinPair (b pin : Nat) : Nat := 24 * b + pin / 2

/-- The function of a pin: 0 IN, 1 STREAM, 2 CUE (R386). -/
def Chip.pinFunc (s : Chip) (d b pin : Nat) : Nat :=
  let k := pinPair b pin
  if s.flag d (F.UIO_PAIR_DIFF k) || pin % 2 = 0 then s.fld d (F.UIO_PAIR_FUNC_P k) else s.fld d (F.UIO_PAIR_FUNC_N k)

/-- Bits per word of a bank (R385). -/
def Chip.bankRatio (s : Chip) (d b : Nat) : Nat := if s.flag d (F.UIO_BANK_CFG_RATIO b) then 10 else 8

/-- The word clock of a bank in Hz, and CLK_OK: whether it runs from its own synthesiser (R385, R558). -/
def Chip.wordHz (s : Chip) (d b : Nat) : Nat := s.synthHz d (s.fld d (F.UIO_BANK_CFG_SYNTH b))
def Chip.bankClock (s : Chip) (d b : Nat) : Bool :=
  let y := s.fld d (F.UIO_BANK_CFG_SYNTH b)
  s.flag d (F.CKM_SYN_CFG_EN y) && s.flag d (F.CKM_SYN_STATUS_LOCK y) && !s.asleep d (Dom.bank b)

/-- The bit rate of serialiser k in Hz (R385, R386). -/
def Chip.pairHz (s : Chip) (d k : Nat) : Nat :=
  let b := k / 24
  let r := s.bankRatio d b * s.wordHz d b
  if s.flag d (F.UIO_PAIR_DIFF k) then r else r / 2

/-- The rising edge of a bank's word clock that its 1/8-bit steps count from (R377). -/
def Chip.wordStart (s : Chip) (d b : Nat) : Nat := ((s.bank d b).words.head?.map (·.1)).getD 0

/-- The 1/8-bit steps of a pair's pins that have passed from a word clock edge to now (R377). -/
def Chip.stepsFrom (s : Chip) (d k base : Nat) : Nat := (s.now - base) * (8 * s.pairHz d k) / 1000000000

/-- The fence of a pair in 1/8-bit steps: the smallest whole number of them that is not less than 64 nc (R408). -/
def Chip.fenceSteps (s : Chip) (d k : Nat) : Nat :=
  if s.flag d (F.UIO_PAIR_FENCE k) then (64 * 8 * s.pairHz d k + 1199999999) / 1200000000 else 0

/-! ### Pattern RAM (R373, R376, R497, R499) -/

/-- The key of a pattern RAM word. -/
def patKey (d b a : Nat) : Nat := (2 * d + b) * 65536 + a % 65536

/-- A pattern word: its value and whether it fails its check. -/
def Chip.patWord (s : Chip) (d b a : Nat) : W36 × Bool :=
  let w := s.patWords.get (patKey d b a)
  if w.valid then (w.data, checkBits w.data != w.chk) else (0, false)

/-- A failed pattern word: the report and the remap rule (R379, R497). -/
def Chip.patFail (s : Chip) (d k a : Nat) : Chip :=
  let key := 2 * d + k / 24
  let a := a % 65536
  let s := s.setFlag d (F.CHN_CUE_STAT_CHECK_SEEN k) true
  let s := s.logEv d Ev.cuePatternCheck (k + a * 2 ^ 6)
  let r := s.patMems.get key
  if r.lastFail = some a then
    if r.remap.length < 8 then
      { s with
        patMems := s.patMems.set key { remap := r.remap ++ [{ addr := a, field := true }], lastFail := none }
        patWords := s.patWords.set (patKey d (k / 24) a) { data := 0, chk := 15#4, valid := true } }
    else s.logEv d Ev.ramRemapFull (Config.remapFullDetail (1024 + key) a).toNat
  else { s with patMems := s.patMems.set key { r with lastFail := some a } }

/-! ### Serialisers (R375 to R380) -/

/-- A serialiser. -/
def Chip.cue (s : Chip) (d k : Nat) : Cue := s.cues.get (48 * d + k)

/-- A serialiser changed. -/
def Chip.onCue (s : Chip) (d k : Nat) (f : Cue → Cue) : Chip := { s with cues := s.cues.upd (48 * d + k) f }

/-- How many data words of a pattern have been read by now (R376). -/
def Chip.wordsDue (s : Chip) (d k : Nat) (x : CueSend) : Nat :=
  let e := s.stepsFrom d k x.base
  if e < x.step then 0 else min ((x.len + 35) / 36) ((e - x.step) / 8 / 36 + 1)

/-- Data words of the pattern being sent read up to the n-th; the first that fails its check ends the pattern (R376, R379). -/
def Chip.readWords (s : Chip) (d k n : Nat) : Chip :=
  (List.range n).foldl (fun s i =>
    match (s.cue d k).sending with
    | some x =>
      if x.cut || i < x.words.length then s
      else
        let a := x.addr + 1 + i
        let (w, bad) := s.patWord d (k / 24) a
        if bad then (s.patFail d k a).onCue d k (fun c => { c with sending := some { x with cut := true } })
        else s.onCue d k (fun c => { c with sending := some { x with words := x.words ++ [w] } })
    | none => s) s

/-- The words that a serialiser has read by now. -/
def Chip.catchUp (s : Chip) (d k : Nat) : Chip :=
  match (s.cue d k).sending with
  | some x => s.readWords d k (s.wordsDue d k x)
  | none => s

/-- The level a serialiser's pin sends now, behind the pair's fence (R375, R377, R379, R408). -/
def Chip.cueLevel (s : Chip) (d k : Nat) : Bool :=
  let idle := s.flag d (F.CHN_CUE_CFG_IDLE k)
  match ((s.catchUp d k).cue d k).sending with
  | some x =>
    let e := s.stepsFrom d k x.base
    let first := x.step + s.fenceSteps d k
    let j := (e - first) / 8
    if x.masked || e < first || x.len ≤ j then idle
    else match x.words[j / 36]? with
      | some w => bit w (j % 36)
      | none => idle
  | none => idle

/-- A word stored in a pattern RAM, changed by an armed flip of KIND 5; the words already read stay as they were (R376,
R499). -/
def Chip.patWrite (s : Chip) (d b a : Nat) (v : W36) : Chip :=
  let s := s.upTo 24 (fun s p => s.catchUp d (24 * b + p))
  let put (s : Chip) (w : W36) (chk : BitVec 4) : Chip :=
    { s with patWords := s.patWords.set (patKey d b a) { data := w, chk := chk, valid := true } }
  if s.flipArmed d 5 b then
    (put s (v ^^^ word (s.fld d F.MIE_FLIPMASK_MASK)) (checkBits v ^^^ BitVec.ofNat 4 (s.fld d F.MIE_FLIP_CHK_CHK))).flipDone d
  else put s v (checkBits v)

/-- CUE_LAT of a channel in ns (R377). -/
def Chip.cueLat (s : Chip) (d k : Nat) : Nat := 48 + 2 * s.fld d (F.CHN_CH_CFG_FILTER (s.fld d (F.CHN_CUE_CFG_CHANNEL k)))

/-- Whether some CUE pin of a pair shows its pattern (R380, R389, R399). -/
def Chip.cueShown (s : Chip) (d k : Nat) : Bool :=
  let b := k / 24
  let p := 2 * (k % 24)
  s.bankClock d b && ((s.pinMode d b p = .user && s.pinFunc d b p = 2) ||
    (s.pinMode d b (p + 1) = .user && s.pinFunc d b (p + 1) = 2))

/-- The next due position of the head entry (R375). -/
def Cue.due (c : Cue) : Option Nat :=
  match c.fifo with
  | (w0, w1) :: _ =>
    let stride := match c.header with
      | some h => bits h 28 8 + 1
      | none => 1
    some (((w0.toNat + bits w1 0 12 * 2 ^ 36 + c.reps * stride) % 2 ^ 48) * 256 + bits w1 12 8)
  | [] => none

/-- The head entry leaves its FIFO (R376). -/
def Cue.popHead (c : Cue) : Cue :=
  { c with fifo := c.fifo.drop 1, reps := 0, header := none, late := false, lateLogged := false, woken := false }

/-- A repetition begun or skipped with its header: the entry leaves with its last one (R376). -/
def Cue.stepRep (c : Cue) (h : W36) : Cue :=
  let c := { c with reps := c.reps + 1, header := some h }
  if bits h 16 12 < c.reps then c.popHead else c

/-- The device time t_c of the head's crossing in 1/64 ns: the timestamp of the count that brings the integer, the fraction of the
interval after it, or the moment at which the next count was accepted (R377). -/
def Chip.crossing (s : Chip) (d k due : Nat) : Nat :=
  let x := s.chan d (s.fld d (F.CHN_CUE_CFG_CHANNEL k))
  match x.stamp, x.period with
  | some t, some p => if x.int % 2 ^ 48 = due / 256 then 64 * t + due % 256 * p / 4 else 64 * x.accepted
  | some t, none => if x.int % 2 ^ 48 = due / 256 && due % 256 = 0 then 64 * t else 64 * x.accepted
  | none, _ => 64 * s.time d

/-- The first 1/8-bit step of a pair, counted from a word clock edge, at or after a moment in 1/64 ns (R377). -/
def Chip.stepAt (s : Chip) (d k base at64 : Nat) : Nat :=
  ((at64 - 64 * base) * (8 * s.pairHz d k) + (64000000000 - 1)) / 64000000000

/-- A repetition of the head starts, its first bit `wait` 1/64 ns from now or at the step after; its header read, a failing one skips
the entry (R376 to R380). -/
def Chip.startRep (s : Chip) (d k wait : Nat) : Chip :=
  match (s.cue d k).fifo with
  | (_, w1) :: _ =>
    let a := bits w1 20 16
    let (h, bad) := s.patWord d (k / 24) a
    if bad then (s.patFail d k a).onCue d k Cue.popHead
    else
      let masked := !s.cueShown d k
      let base := s.wordStart d (k / 24)
      let x : CueSend := {
        addr := a, len := bits h 0 16 + 1, base := base, step := s.stepAt d k base (64 * s.now + wait), masked := masked }
      let s := s.onCue d k (fun c => { (c.stepRep h) with sending := some x })
      s.when masked (fun s => s.setFlag d (F.CHN_CUE_STAT_MASKED_SEEN k) true)
  | [] => s

/-- A late repetition of the head skipped (R378). -/
def Chip.skipRep (s : Chip) (d k : Nat) : Chip :=
  match (s.cue d k).fifo with
  | (_, w1) :: _ =>
    let a := bits w1 20 16
    let (h, bad) := s.patWord d (k / 24) a
    if bad then (s.patFail d k a).onCue d k Cue.popHead else s.onCue d k (fun c => c.stepRep h)
  | [] => s

/-- Whether a serialiser compares its cues (R380). -/
def Chip.cueCompares (s : Chip) (d k : Nat) : Bool :=
  s.flag d (F.CHN_CUE_CFG_EN k) && s.chnValid d (s.fld d (F.CHN_CUE_CFG_CHANNEL k)) && s.timeOk d

/-- Whether the head's due position is reached (R362). -/
def Chip.cueReached (s : Chip) (d k : Nat) : Bool :=
  match (s.cue d k).due with
  | some u => atOrBeyond (s.chnPos d (s.fld d (F.CHN_CUE_CFG_CHANNEL k))) u
  | none => false

/-- The moment at which a repetition could first start: each one whose crossing has passed is late, and is started late or
skipped as LATE_POLICY says (R378); at most `fuel` of them. -/
def Chip.cueArm : Nat → Chip → Nat → Nat → Chip
  | 0, s, _, _ => s
  | fuel + 1, s, d, k =>
    if (s.cue d k).sending.isNone && s.cueCompares d k && s.cueReached d k then
      let s := s.satFld d (F.CHN_CUE_STAT_LATE_COUNT k) 1
      let s := if (s.cue d k).lateLogged then s
        else (s.onCue d k (fun c => { c with lateLogged := true })).logEv d Ev.cueLate k
      if s.flag d (F.CHN_CUE_CFG_LATE_POLICY k) then Chip.cueArm fuel (s.skipRep d k) d k
      else
        let t := s.startRep d k (64 * s.cueLat d k)
        if (t.cue d k).sending.isNone then Chip.cueArm fuel t d k else t
    else s

/-- `cueArm` with as much fuel as a full FIFO of entries with every repetition can use. -/
def Chip.cueReady (s : Chip) (d k : Nat) : Chip := Chip.cueArm (64 * 4097) s d k

/-- A cue word offered to a FIFO: one written while it is full is discarded and reported, and so is the word 1 after a discarded
word 0 (R374). -/
def Chip.cuePush (s : Chip) (d k : Nat) (v : W36) : Chip :=
  let c := s.cue d k
  if !s.flag d (F.CHN_CUE_CFG_EN k) then s
  else if 64 ≤ c.fifo.length then
    let s := s.setFlag d (F.CHN_CUE_STAT_OVERRUN_SEEN k) true
    let s := s.logEv d Ev.cueOverrun k
    s.onCue d k (fun c => { c with skipOne := !c.skipOne && c.half.isNone })
  else if c.skipOne then s.onCue d k (fun c => { c with skipOne := false })
  else match c.half with
    | none => s.onCue d k (fun c => { c with half := some v })
    | some w0 =>
      let s := s.onCue d k (fun c => { c with half := none, fifo := c.fifo ++ [(w0, v)] })
      if c.fifo.isEmpty then s.cueReady d k else s

/-- Whether a bank's word clock runs, from its synthesiser or, where that has failed over, from the internal oscillator (R385,
R558). -/
def Chip.wordRuns (s : Chip) (d b : Nat) : Bool :=
  s.sourceRuns d (24 + s.fld d (F.UIO_BANK_CFG_SYNTH b)) && !s.asleep d (Dom.bank b)

/-- Whether a bank's region reaches the pad ring: its collar is open and the word clock runs (R395 to R397). -/
def Chip.bankFed (s : Chip) (d b : Nat) : Bool := s.collarOpen d (bankRegion d b) && s.wordRuns d b

/-- CUE_WR (R373, R374). -/
def execCueWr (d : Die) (k : Fin 48) (word : W36) (s : State) : Out :=
  s.onDie d (fun c => c.when (c.bankFed d (k / 24)) (fun c => c.cuePush d k word))

/-- UIO_CUE_PUSH (R397). -/
def execUioCuePush (d : Die) (k : Fin 48) (v : W36) (s : State) : Out := s.onDie d (fun c => c.cuePush d k v)

/-- PAT_WR (R373). -/
def execPatWr (d : Die) (b : Fin 2) (addr : BitVec 16) (data : W36) (s : State) : Out :=
  s.onDie d (fun c => c.when (c.bankFed d b) (fun c => c.patWrite d b addr.toNat data))

/-- A write of UIO_PAT_DATA_b (R397). -/
def Chip.patDataWrite (s : Chip) (d b : Nat) (v : W36) : Chip :=
  let a := s.fld d (F.UIO_PAT_ADDR_ADDR b)
  (s.patWrite d b a v).setFld d (F.UIO_PAT_ADDR_ADDR b) ((a + 1) % 65536)

/-- UIO_PAT_DATA (R397). -/
def execUioPatData (d : Die) (b : Fin 2) (v : W36) (s : State) : Out := s.onDie d (fun c => c.patDataWrite d b v)

/-- CUE_FIRE: the head's due position is reached and its repetition starts (R376, R377); where a failing header skips the entry, the
next one reaches the head (R378, R379). -/
def Chip.cueFire (s : Chip) (d k : Nat) : Chip :=
  match (s.cue d k).due with
  | some u =>
    if (s.cue d k).sending.isNone && s.cueCompares d k && s.cueReached d k then
      let t := s.startRep d k (s.crossing d k u + 64 * s.cueLat d k - 64 * s.time d)
      if (t.cue d k).sending.isNone then t.cueReady d k else t
    else s
  | none => s

/-- CUE_FIRE (R377). -/
def execCueFire (d : Die) (k : Fin 48) (s : State) : Out := s.onDie d (fun c => c.cueFire d k)

/-- CUE_PATTERN_END: the serialiser has sent its pattern; the next repetition or entry may start (R376, R378). -/
def Chip.patternEnd (s : Chip) (d k : Nat) : Chip :=
  match (s.cue d k).sending with
  | some x => ((s.readWords d k ((x.len + 35) / 36)).onCue d k (fun c => { c with sending := none })).cueReady d k
  | none => s

/-- CUE_PATTERN_END (R378). -/
def execCuePatternEnd (d : Die) (k : Fin 48) (s : State) : Out := s.onDie d (fun c => c.patternEnd d k)

/-- CUE_PRE_WAKE: one wake for the head entry as its position comes within LEAD counts; a region is woken only from SLEEPING
(R152, R381). -/
def Chip.cuePreWake (s : Chip) (d k : Nat) : Chip :=
  match (s.cue d k).due with
  | some u =>
    let lead := s.fld d (F.CHN_CUE_CFG_LEAD k) * 256
    let near := atOrBeyond (s.chnPos d (s.fld d (F.CHN_CUE_CFG_CHANNEL k))) ((u + 2 ^ 56 - lead) % 2 ^ 56)
    if s.flag d (F.CHN_CUE_CFG_WAKE_EN k) && !(s.cue d k).woken && s.cueCompares d k && near then
      let dom := s.fld d (F.CHN_CUE_CFG_WAKE_DOM k)
      let s := s.onCue d k (fun c => { c with woken := true })
      s.when (dom < 47 && (16 ≤ dom || s.regionState d dom == Rgn.sleeping)) (fun s => s.wake d dom 2)
    else s
  | none => s

/-- CUE_PRE_WAKE (R381). -/
def execCuePreWake (d : Die) (k : Fin 48) (s : State) : Out := s.onDie d (fun c => c.cuePreWake d k)

/-- A serialiser flushed, what it has read by now reported first (R379, R382). -/
def Chip.cueFlush (s : Chip) (d k : Nat) : Chip :=
  (s.catchUp d k).onCue d k (fun c => { slips := c.slips, lastSlip := c.lastSlip, slipEdges := c.slipEdges })

/-- Every FIFO of a die flushed and its pattern RAMs' valid bits cleared (R382). -/
def Chip.cuesCleared (s : Chip) (d : Nat) : Chip :=
  let s := s.upTo 48 (fun s k => s.cueFlush d k)
  { s with patWords := SMap.dropRange s.patWords (patKey d 0 0) (patKey d 0 0 + 131072) }

/-- A write of CHN_CUE_CFG_k. -/
def Chip.cueCfgWrite (s : Chip) (d k : Nat) (v : W36) : Chip :=
  (s.plainWrite d (Reg.CHN_CUE_CFG k) v).when (bit v 27) (fun s => s.cueFlush d k)

/-- FLUSH (R382). -/
def execFlush (d : Die) (k : Fin 48) (v : W36) (s : State) : Out := s.onDie d (fun c => c.cueCfgWrite d k (v ||| 0x8000000))

/-- CHN_CUE_STAT_k as it reads. -/
def Chip.cueStat (s : Chip) (d k : Nat) : W36 :=
  let c := s.cue d k
  let left := match c.fifo with
    | (_, w1) :: _ => bits (s.patWord d (k / 24) (bits w1 20 16)).1 16 12 + 1 - c.reps
    | [] => 0
  putBits (putBits (putBits (s.reg d (Reg.CHN_CUE_STAT k)) 0 7 c.fifo.length) 7 12 left) 19 1 (ofBool c.sending.isSome)

/-! ### What pins present (R387, R389, R398 to R401) -/

/-- The word of TXD and OE whose bits a pair sends now, and the place of the present bit in a word of n, bit 0 first, behind the
pair's fence (R387, R396, R408). -/
def Chip.wordNow (s : Chip) (d k n : Nat) : BitVec 12 × Nat :=
  let delay := s.fenceSteps d k
  match (s.bank d (k / 24)).words.find? (fun w => delay ≤ s.stepsFrom d k w.1) with
  | some (t, w) => (BitVec.ofNat 12 (bits w (12 * (k % 24)) 12), min (n - 1) ((s.stepsFrom d k t - delay) / 8))
  | none => (0, 0)

/-- Whether a pin drives, and the level it presents. -/
def Chip.pinOut (s : Chip) (d b pin : Nat) : Bool × Bool :=
  let k := pinPair b pin
  let diff := s.flag d (F.UIO_PAIR_DIFF k)
  match s.pinMode d b pin with
  | .latched => ((s.bank d b).drive.getLsbD pin, (s.bank d b).level.getLsbD pin)
  | .scan =>
    let cell := 3 * (48 * b + pin)
    ((s.tap d).boundary.getLsbD (cell + 2), (s.tap d).boundary.getLsbD (cell + 1))
  | .user =>
    let turn (v : Bool) : Bool := if diff && pin % 2 = 1 then !v else v
    if s.pinFunc d b pin = 1 then
      let ratio := s.bankRatio d b
      let n := if diff then ratio else ratio / 2
      let first := if !diff && pin % 2 = 1 then ratio / 2 else 0
      let (w, j) := s.wordNow d k n
      (w.getLsbD (if diff || pin % 2 = 0 then 10 else 11), turn (w.getLsbD (first + j)))
    else if s.pinFunc d b pin = 2 then (true, turn (s.cueLevel d k))
    else (false, false)
  | _ => (false, false)

/-- The number of a pin over the part. -/
def pinKey (d b pin : Nat) : Nat := 48 * (2 * d + b) + pin

/-- The level that the pull of a pin's row gives where nothing drives it, if there is one: none while OFF and before step 2 of POR,
the weak pull-down until the frames are written, then the bank's PULL (R157, R398, R399; log 216). -/
def Chip.pinPull (s : Chip) (d b : Nat) : Option Bool :=
  let set : Option Bool := match s.fld d (F.UIO_BANK_CFG_PULL b) with
    | 1 => some true
    | 2 => some false
    | _ => none
  if s.bankMode d b = .off then none
  else match s.dev with
  | .secureHalt => set
  | .por => if s.pastStep2 then some false else none
  | .selftest | .blank | .safeTalk => some false
  | _ => if s.dieInReset d then some false else set

/-- The level of a pin that does not drive, at a time in ns: what the board drives, the pull, or neither's (R398, R399, R681). -/
def Chip.padLevel (s : Chip) (d b pin t : Nat) : Bool :=
  match Config.padDriven (pinKey d b pin) t, s.pinPull d b with
  | some v, _ => v
  | none, some v => v
  | none, none => Config.floatingPin (t * 2 ^ 20 + pinKey d b pin)

/-- The present level of a pin: what it drives, or what it receives (R681). -/
def Chip.pinLevel (s : Chip) (d b pin : Nat) : Bool :=
  let (drives, v) := s.pinOut d b pin
  if drives then v else s.padLevel d b pin s.now

/-- A bank becomes latched, every pin at the level it presents (R400, R401). -/
def Chip.latchBank (s : Chip) (d b cause : Nat) : Chip :=
  if (s.bank d b).latched then s
  else
    let pins := (List.range 48).map (fun pin => (pin, s.pinOut d b pin))
    let mask (f : Bool × Bool → Bool) : BitVec 48 :=
      pins.foldl (fun m e => if f e.2 then m ||| BitVec.ofNat 48 (2 ^ e.1) else m) 0
    (s.onBank d b (fun x => { x with latched := true, drive := mask (fun o => o.1), level := mask (fun o => o.1 && o.2) })).setFld d
      (F.UIO_BANK_STATUS_LATCH_CAUSE b) cause

/-- A bank's latch dropped (R400, R402). -/
def Chip.dropLatch (s : Chip) (d b : Nat) : Chip :=
  (s.onBank d b (fun x => { x with latched := false, drive := 0, level := 0 })).setFld d (F.UIO_BANK_STATUS_LATCH_CAUSE b) 0

/-- PAD_RELEASE on a bank: the chip after it and whether it was refused (R402). -/
def Chip.padRelease (s : Chip) (d b : Nat) : Chip × Bool :=
  let run (dom : Nat) : Bool := s.domState d dom = 0 && s.domPhase d dom != 2 && !s.asleep d dom
  if !(s.bank d b).latched then (s, false)
  else if run (Dom.bank b) && run (bankRegion d b) && s.flag d (F.CKM_SYN_STATUS_LOCK (s.fld d (F.UIO_BANK_CFG_SYNTH b))) then
    (s.dropLatch d b, false)
  else (s, true)

/-- A write of UIO_BANK_CTRL_b. -/
def Chip.bankCtrlWrite (s : Chip) (d b : Nat) (v : W36) : Chip :=
  if bit v 0 then
    let (s, refused) := s.padRelease d b
    s.when refused (fun s => s.setFlag d (F.UIO_BANK_STATUS_REFUSED b) true)
  else s

/-- BANK_CTRL_RELEASE (R402). -/
def execBankCtrlRelease (d : Die) (b : Fin 2) (v : W36) (s : State) : Out := s.onDie d (fun c => c.bankCtrlWrite d b (v ||| 1))

/-! ### Output health (R404 to R407) -/

/-- A pin turned off. -/
def Chip.turnOff (s : Chip) (d b pin : Nat) : Chip :=
  if pin < 36 then s.setFld d (F.UIO_SHORT_LO_OFF b) (s.fld d (F.UIO_SHORT_LO_OFF b) ||| 2 ^ pin)
  else s.setFld d (F.UIO_SHORT_HI_OFF b) (s.fld d (F.UIO_SHORT_HI_OFF b) ||| 2 ^ (pin - 36))

/-- The most mismatches of a pin in one window, kept in UIO_PAIR_STAT (R405, R407). -/
def Chip.notePeak (s : Chip) (d b pin n : Nat) : Chip :=
  let peak := if pin % 2 = 0 then F.UIO_PAIR_STAT_PEAK_P (pinPair b pin) else F.UIO_PAIR_STAT_PEAK_N (pinPair b pin)
  s.setFld d peak (max (s.fld d peak) n)

/-- A pin is shorted off, both legs of a differential pair, and reported (R405, R407). -/
def Chip.shortOff (s : Chip) (d b pin : Nat) : Chip :=
  let s := s.turnOff d b pin
  let s := if s.flag d (F.UIO_PAIR_DIFF (pinPair b pin)) then s.turnOff d b (2 * (pin / 2) + 1 - pin % 2) else s
  (s.setFlag d (F.UIO_BANK_STATUS_SHORT_SEEN b) true).logEv d Ev.uioShort (b + pin * 2)

/-- Whether the health monitor samples a pin: HM_EN = 1 and the pin drives (R404). -/
def Chip.watched (s : Chip) (d b pin : Nat) : Bool :=
  s.flag d (F.UIO_PAIR_HM_EN (pinPair b pin)) && !s.shorted d b pin && (s.pinOut d b pin).1

/-- A pin's health window begins at its next sample (R404). -/
def Chip.healthRestart (s : Chip) (d b pin : Nat) : Chip := { s with health := s.health.erase (pinKey d b pin) }

/-- One sample of a watched pin: its readback compared, the mismatches of its window of 256 counted, and the pin turned off where
they reach SHORT_LIMIT (R404, R405). -/
def Chip.healthSample (s : Chip) (d b pin : Nat) : Chip :=
  let (n, m) := s.health.get (pinKey d b pin)
  let bad := Config.padMismatch (pinKey d b pin) s.now
  let m := m + ofBool bad
  let s := s.notePeak d b pin m
  let s := { s with health := s.health.set (pinKey d b pin) (if n + 1 = 256 then (0, 0) else (n + 1, m)) }
  let limit := s.fld d (F.UIO_BANK_CFG_SHORT_LIMIT b)
  s.when (bad && limit != 0 && limit ≤ m) (fun s => s.shortOff d b pin)

/-- The samples of latched pins, once an internal-oscillator cycle (R404). -/
def Chip.healthTick (s : Chip) (d b : Nat) : Chip :=
  s.when ((s.bank d b).latched && s.now % 5 == 0) (fun s =>
    s.upTo 48 (fun s pin => s.when (s.pinMode d b pin == .latched && s.watched d b pin) (fun s => s.healthSample d b pin)))

/-- UIO_SHORT: the mismatches of a driving pin reach SHORT_LIMIT within a window (R404, R405). -/
def Chip.uioShort (s : Chip) (d b pin : Nat) : Chip :=
  let limit := s.fld d (F.UIO_BANK_CFG_SHORT_LIMIT b)
  if limit != 0 && s.watched d b pin then (s.notePeak d b pin limit).shortOff d b pin else s

/-- UIO_SHORT (R405). -/
def execUioShort (d : Die) (b : Fin 2) (pin : Fin 48) (s : State) : Out := s.onDie d (fun c => c.uioShort d b pin)

/-- A write of UIO_SHORT_LO_b or UIO_SHORT_HI_b: pins turned on again begin new health windows (R404, R406). -/
def Chip.shortWrite (s : Chip) (d b : Nat) (hi : Bool) (v : W36) : Chip :=
  let s := s.plainWrite d (if hi then Reg.UIO_SHORT_HI b else Reg.UIO_SHORT_LO b) v
  s.upTo (if hi then 12 else 36) (fun s i => s.when (bit v i) (fun s => s.healthRestart d b (if hi then 36 + i else i)))

/-- UIO_SHORT_CLEAR: a write of UIO_SHORT_LO_b or UIO_SHORT_HI_b (R406). -/
def execUioShortClear (d : Die) (b : Fin 2) (hi : Bool) (v : W36) (s : State) : Out := s.onDie d (fun c => c.shortWrite d b hi v)

/-- SLIP: a pulse at a word clock edge moves an IN pair's word boundary; pulses within the next 4 word clocks are ignored
(R388). -/
def Chip.slip (s : Chip) (d k : Nat) : Chip :=
  let b := k / 24
  let p := 2 * (k % 24)
  let isIn := (s.pinMode d b p = .user && s.pinFunc d b p = 0) || (s.pinMode d b (p + 1) = .user && s.pinFunc d b (p + 1) = 0)
  let free : Bool := match (s.cue d k).lastSlip with
    | some t => decide (4000000000 < (s.now - t) * s.wordHz d b) || 4 ≤ (s.cue d k).slipEdges
    | none => true
  s.when (s.bankFed d b && isIn && free) (fun s => s.onCue d k (fun c => { c with slips := c.slips + 1, lastSlip := some s.now, slipEdges := 0 }))

/-- SLIP (R388). -/
def execSlip (d : Die) (k : Fin 48) (s : State) : Out := s.onDie d (fun c => c.slip d k)

/-! ### The word clock (R385, R388, R391, R392, R396, R397) -/

/-- Bit j of the word that a pair's IN pins deliver at an edge of the word clock: the level of the pin when the bit passed, at the
pair's word boundary (R386, R388). No bit of an IN pin: free (log 217). -/
def Chip.rxd (s : Chip) (d b p j : Nat) : Bool :=
  let k := 24 * b + p
  let diff := s.flag d (F.UIO_PAIR_DIFF k)
  let ratio := s.bankRatio d b
  let n := if diff then ratio else ratio / 2
  let pin := if diff || j < n then 2 * p else 2 * p + 1
  if j < ratio && s.pinMode d b pin = .user && s.pinFunc d b pin = 0 then
    s.padLevel d b pin (s.now - (2 * n - (s.cue d k).slips % n - j % n) * 1000000000 / s.pairHz d k)
  else Config.idleSignal (s.now * 2 ^ 20 + 2 ^ 18 + (2 * d + b) * 512 + 18 * p + j)

/-- The signals of R392 that an edge of the word clock presents. -/
def Chip.bankShows (s : Chip) (d b : Nat) : BitVec 488 :=
  let pos := s.chnPos d (s.fld d (F.UIO_BANK_CFG_POS_CH b))
  BitVec.ofNat 488 ((List.range 24).foldl (fun v p =>
    let n := (s.cue d (24 * b + p)).fifo.length
    let rx := (List.range 10).foldl (fun w j => w + ofBool (s.rxd d b p j) * 2 ^ j) 0
    v + (rx + ofBool (n = 64) * 2 ^ 10 + n % 128 * 2 ^ 11) * 2 ^ (18 * p)) (pos % 2 ^ 56 * 2 ^ 432))

/-- The number that n edge signals of a bank's region carry from signal e on, lowest bit first (R391). -/
def Chip.edgeWord (s : Chip) (d b e n : Nat) : Nat :=
  (List.range n).foldl (fun v i => v + ofBool (s.edgeOut d (bankRegion d b) (bankSide d) (e + i)) * 2 ^ i) 0

/-- A rising edge of a bank's word clock, every value taken from `pre`: the finished word's last bit is sampled for health, TXD and OE
are sampled and the signals of R392 presented, and the strobes act (R388, R391, R392, R396, R397, R404). -/
def Chip.wordEdge (pre : Chip) (d b : Nat) (s : Chip) : Chip :=
  let s := s.upTo 48 (fun s pin => s.when (pre.pinMode d b pin == .user && pre.watched d b pin) (fun s => s.healthSample d b pin))
  let tx := (List.range 24).foldl (fun v p => v + pre.edgeWord d b (50 * p) 12 * 2 ^ (12 * p)) 0
  let s := s.onBank d b (fun x => { x with words := ((pre.now, BitVec.ofNat 288 tx) :: x.words).take 16, shown := pre.bankShows d b })
  let s := s.upTo 24 (fun s p =>
    let k := 24 * b + p
    let s := s.when (pre.edgeWord d b (50 * p + 12) 1 == 1) (fun s => s.slip d k)
    let s := s.when (pre.cue d k).lastSlip.isSome (fun s => s.onCue d k (fun c => { c with
      slipEdges := if c.slips = (pre.cue d k).slips then c.slipEdges + 1 else c.slipEdges }))
    s.when (pre.edgeWord d b (50 * p + 13) 1 == 1) (fun s => s.cuePush d k (word (pre.edgeWord d b (50 * p + 14) 36))))
  s.when (pre.edgeWord d b 1200 1 == 1) (fun s =>
    s.patWrite d b (pre.edgeWord d b 1201 16) (word (pre.edgeWord d b 1217 36)))

/-! ### Registers (chapter 12) -/

/-- Whether a pair's settings are valid (R390). -/
def pairValid (v : W36) : Bool :=
  let p := bits v 1 2
  let n := bits v 3 2
  p != 3 && n != 3 && !(bit v 0 && n != 0) && !(bit v 5 && !(bit v 0 && p = 0))

/-- A write of UIO_PAIR_k: only while the bank's region is not ACTIVE (R390); HM_EN written to 1 begins new health windows (R404). -/
def Chip.pairWrite (s : Chip) (d k : Nat) (v : W36) : Chip :=
  let b := k / 24
  if s.regionState d (bankRegion d b) = Rgn.active || !pairValid v then s.setFlag d (F.UIO_BANK_STATUS_REFUSED b) true
  else
    let s := s.when (bit v 7 && !s.flag d (F.UIO_PAIR_HM_EN k)) (fun s =>
      (s.healthRestart d b (2 * (k % 24))).healthRestart d b (2 * (k % 24) + 1))
    s.plainWrite d (Reg.UIO_PAIR k) v

/-- A write of UIO_BANK_CFG_b. -/
def Chip.bankCfgWrite (s : Chip) (d b : Nat) (v : W36) : Chip :=
  let old := s.reg d (Reg.UIO_BANK_CFG b)
  let user := (List.range 48).any (fun pin => s.pinMode d b pin = .user)
  if bits v 0 2 = 3 || bits v 2 2 = 3 || (user && bits v 0 8 != bits old 0 8) then
    s.setFlag d (F.UIO_BANK_STATUS_REFUSED b) true
  else s.plainWrite d (Reg.UIO_BANK_CFG b) v

/-- A write of a UIO_ register. -/
def Chip.uioWrite (s : Chip) (d off : Nat) (v : W36) : Chip :=
  if Reg.UIO_BANK_CFG 0 ≤ off && off < Reg.UIO_BANK_CFG 2 then
    let b := (off - Reg.UIO_BANK_CFG 0) / 16
    let i := (off - Reg.UIO_BANK_CFG 0) % 16
    if i = 0 then s.bankCfgWrite d b v
    else if i = 2 then s.bankCtrlWrite d b v
    else if i = 5 || i = 6 then s.shortWrite d b (i = 6) v
    else if i = 8 then s.patDataWrite d b v
    else s.plainWrite d off v
  else if Reg.UIO_PAIR 0 ≤ off && off < Reg.UIO_PAIR 48 && off % 2 = 0 then s.pairWrite d ((off - Reg.UIO_PAIR 0) / 2) v
  else if Reg.UIO_CUE_PUSH 0 ≤ off && off < Reg.UIO_CUE_PUSH 48 then s.cuePush d (off - Reg.UIO_CUE_PUSH 0) v
  else s.plainWrite d off v

/-- The levels of pins lo to lo + n - 1 as a word. -/
def Chip.pinWord (s : Chip) (d b lo n : Nat) : W36 :=
  word ((List.range n).foldl (fun v i => v + ofBool (s.pinLevel d b (lo + i)) * 2 ^ i) 0)

/-- The values a read of a UIO_ register finds beside the stored fields. -/
def Chip.uioView (s : Chip) (d off : Nat) : W36 :=
  let r := s.reg d off
  if Reg.UIO_BANK_CFG 0 ≤ off && off < Reg.UIO_BANK_CFG 2 then
    let b := (off - Reg.UIO_BANK_CFG 0) / 16
    let i := (off - Reg.UIO_BANK_CFG 0) % 16
    if i = 1 then
      let m := match s.bankMode d b with
        | .user => 1
        | .latched => 2
        | _ => 0
      putBits (putBits r 0 2 m) 6 1 (ofBool (s.bankClock d b))
    else if i = 3 then s.pinWord d b 0 36
    else if i = 4 then s.pinWord d b 36 12
    else r
  else if Reg.UIO_PAIR 0 ≤ off && off < Reg.UIO_PAIR 48 && off % 2 = 1 then
    let k := (off - Reg.UIO_PAIR 0) / 2
    let p := 2 * (k % 24)
    putBits (putBits r 0 1 (ofBool (s.shorted d (k / 24) p))) 1 1 (ofBool (s.shorted d (k / 24) (p + 1)))
  else r

end Sys2Proof.Machine
end

