-- ==== Sys2Proof/Machine/ClockEdge.lean ====
section
/-! DEFINITION. A moment at which clocks of a die have edges: clusters, reservoir RAM ports, gate halves, bank word clocks and the word
clocks of transceiver quads and MACs act together on the values that stand before it (R40, R61, R121, R396, R426). -/

namespace Sys2Proof.Machine

/-- The frames of a die's regions that are listed and whose frame number lies in a range, as the region and the frame, each once. -/
def Chip.listedFrames (s : Chip) (d lo hi : Nat) : List (Nat × Nat) :=
  (s.frames.filterMap (fun e =>
    let fa := e.1 / 64
    let f := fa % 2 ^ 14
    if fa / 2 ^ 23 = d && fa / 2 ^ 18 % 32 < 16 && lo ≤ f && f < hi then some (fa / 2 ^ 18 % 32, f) else none)).eraseDups

/-- The reservoir RAMs of a die that have a configuration or a record of their own, each once. -/
def Chip.usedRams (s : Chip) (d : Nat) : List Nat :=
  ((s.listedFrames d 15872 16000).map (fun (x : Nat × Nat) => 128 * x.1 + (x.2 - 15872)) ++
    (SMap.keysIn s.ramMacros (ramKey d 0) (ramKey (d + 1) 0)).map (fun k => k % 2048)).eraseDups

/-- A RAM port at a moment with clock edges: driven by its selectors where its clock has its active edge (R59, R85). -/
def Chip.portAtEdge (pre : Chip) (d ram : Nat) (edges : List ClockEdge) (isB : Bool) : PortNow :=
  let cfg := pre.ramCfg d ram
  let at' := if isB then 16 else 10
  if pre.activeEdge d (ram / 128) edges (bits cfg at' 5) (bit cfg (at' + 5)) then pre.portNow d ram isB .fabric else {}

/-- The gate halves that a frame of a region configures, at a moment with clock edges: the write half writes what its selectors give,
the read half removes an entry where RD = 1 (R121, R125). -/
def Chip.gatesAtEdge (pre : Chip) (d : Nat) (edges : List ClockEdge) (s : Chip) (r f : Nat) : Chip :=
  let side := (f - 16000) / 32
  let g := f % 32
  let w := pre.gateCfg d r side g
  let s := s.when (pre.activeEdge d r edges (bits w 1 5) (bit w 6)) (fun s => s.gateWrite d r side g (pre.gateDrive d r side g))
  match acrossSide r side with
  | some n => s.when (pre.activeEdge d r edges (bits w 8 5) (bit w 13) && pre.gateReadDrive d n (opposite side) g)
      (fun s => s.gateRead d n (opposite side) g)
  | none => s

/-- Whether a synthesiser has a rising edge at a moment. -/
def Chip.synthRises (s : Chip) (d : Nat) (edges : List ClockEdge) (k : Nat) : Bool := s.sourceEdge d edges (24 + k) == some true

/-- The edge blocks of a die at a moment with clock edges: banks at the rising edge of their word clock, quads of FCLK and MACs of CCLK
(R385, R396, R426). -/
def Chip.blocksAtEdge (pre : Chip) (d : Nat) (edges : List ClockEdge) (s : Chip) : Chip :=
  let s := s.upTo 2 (fun s b =>
    s.when (pre.wordRuns d b && pre.synthRises d edges (pre.fld d (F.UIO_BANK_CFG_SYNTH b))) (fun s => pre.wordEdge d b s))
  let s := s.upTo 8 (fun s q =>
    s.when (!pre.flag d (F.XCV_QUAD_CFG_KARN q) && pre.synthRises d edges (pre.fld d (F.XCV_QUAD_CFG_FCLK q)))
      (fun s => pre.fclkEdge d q s))
  s.upTo 2 (fun s m => s.when (pre.synthRises d edges (pre.fld d (F.ETH_CFG_CCLK m))) (fun s => pre.cclkEdge d m s))

/-- A moment with clock edges on a die: everything that they clock acts on the values before it, and the dividers move. -/
def Chip.clockEdges (pre : Chip) (d : Nat) (edges : List ClockEdge) : Chip :=
  let s := pre.each (pre.usedClusters d) (fun s c => pre.clusterEdge d edges s c)
  let s := s.each (pre.usedRams d) (fun s ram =>
    s.ramEdge d ram (pre.portAtEdge d ram edges false) (pre.portAtEdge d ram edges true))
  let s := s.each (pre.listedFrames d 16000 16128) (fun s x => pre.gatesAtEdge d edges s x.1 x.2)
  (pre.blocksAtEdge d edges s).divide d edges

/-- CLUSTER_CLOCK_EDGE: edges of clocks of a die at one moment (R40). -/
def execClusterClockEdge (d : Die) (edges : List ClockEdge) (s : State) : Out := s.onDieFabric d (fun c => c.clockEdges d edges)

end Sys2Proof.Machine
end

