-- ==== Sys2Proof/Machine/Crelink.lean ====
section
/-! DEFINITION. Die-to-die links: bundle states, adverts, width agreement, frames, fences (chapter 7). -/

namespace Sys2Proof.Machine

/-! ### Bundle states and fencing (R238, R239) -/

def Crl.resetWait : Nat := 0
def Crl.pattern : Nat := 1
def Crl.negotiate : Nat := 2
def Crl.align : Nat := 3
def Crl.active : Nat := 4
def Crl.fenced : Nat := 5

/-- A side's state. -/
def Chip.crlState (s : Chip) (d e k : Nat) : Nat := s.fld d (F.CRL_BUNDLE_STATUS_STATE e k)

/-- A side's width in force: 0 NONE, 1 HALF, 2 FULL. -/
def Chip.crlWidth (s : Chip) (d e k : Nat) : Nat := s.fld d (F.CRL_BUNDLE_STATUS_WIDTH e k)

/-- NOC_EDGE of a die brought in line with what it knows of every bundle (R239). -/
def Chip.refreshEdges (s : Chip) (d : Nat) : Chip :=
  let fenced := (List.range 4).foldl (fun v g => v + ofBool (s.edgeFenced d g) * 2 ^ g) 0
  let bundles (f : Nat → Nat → Bool) : Nat := (List.range 16).foldl (fun v i => v + ofBool (f (i / 8) (i % 8)) * 2 ^ i) 0
  let s := s.setFld d F.NOC_EDGE_EDGE_FENCED fenced
  let s := s.setFld d F.NOC_EDGE_BUNDLE_FENCED (bundles (fun e k => !s.bundleOpen d e k))
  s.setFld d F.NOC_EDGE_BUNDLE_HALF (bundles (fun e k => s.bundleLive d e k && s.crlWidth d e k == 1))

/-- A die learns whether bundle k of an edge is ACTIVE (R224, R239). -/
def Chip.knowBundle (s : Chip) (d edge k : Nat) (live : Bool) : Chip :=
  let s := { s with live := s.live.set d (putBits (s.live.get d) (8 * edge + k) 1 (ofBool live)) }
  s.refreshEdges d

/-- A fence notice sent on MGT_D of an inner edge (R239). -/
def Chip.sendNotice (s : Chip) (d e : Nat) (x : FenceNotice) : Chip :=
  { s with notices := s.notices.upd (2 * d + e) (fun xs => xs ++ [x]) }

/-- The router of bundle k on a die's inner edge, and the port its flits arrive by (R226). -/
def bundleRouter (d e k : Nat) : Nat × Nat :=
  if e = 0 then (if d % 2 = 0 then (routerAt d 7 k, 1) else (routerAt d 0 k, 3))
  else (if d < 2 then (routerAt d k 7, 2) else (routerAt d k 0, 0))

/-- What is in transit on a bundle as this side leaves ACTIVE is lost: what waits for a frame, and what the receiver's frame stage
still holds (R222, R243). -/
def Chip.bundleEmptied (s : Chip) (d e k : Nat) : Chip :=
  let (router, port) := bundleRouter d e k
  { s.onCrl d e k (fun c => { c with wire := [] }) with
    flights := s.flights.filter (fun f => !(f.router = router && f.inPort = port)) }

/-- A side enters a state. Outside ALIGN and ACTIVE no width is in force. Entering ACTIVE, the other side counts as ACTIVE too until
a notice says otherwise; entering or leaving it, the die sends a fence notice over both its edges (R222, R238, R239, R243, log
206). -/
def Chip.crlGo (s : Chip) (d e k st : Nat) : Chip :=
  let was := s.bundleLive d e k
  let now := st == Crl.active
  let s := s.setFld d (F.CRL_BUNDLE_STATUS_STATE e k) st
  let s := if st = Crl.align || st = Crl.active then s else s.setFld d (F.CRL_BUNDLE_STATUS_WIDTH e k) 0
  let s := if now then s else s.bundleEmptied d e k
  let s := s.onCrl d e k (fun c => { c with peerUp := now })
  let s := if st = Crl.fenced then s.setFlag d (F.CRL_BUNDLE_STATUS_FENCE_SEEN e k) true else s
  let s := s.knowBundle d (edgeOf d e) k now
  let x : FenceNotice := { src := d, edge := edgeOf d e, bundle := k, live := now }
  s.when (was != now) (fun s => (s.sendNotice d 0 x).sendNotice d 1 x)

/-! ### Adverts (R240 to R242) -/

/-- The CRC-8 of an advert (R240). -/
def advertCrc (w0 w1 : W36) : BitVec 8 := crc8 ((wordOctets w0 ++ wordOctets w1).flatMap octetBits)

/-- The advert of a side as it stands, with its requests (R240). -/
def Chip.crlAdvert (s : Chip) (d e k : Nat) (retrain rewiden : Bool) : W36 × W36 :=
  let c := s.crlSide d e k
  let st := s.crlState d e k
  let b (f : Fld) : Nat := s.fld d f
  let propose := if st = Crl.negotiate then c.propose else s.crlWidth d e k
  (s.reg d (Reg.CRL_RXMASK e k),
   word (b (F.CRL_BUNDLE_STATUS_RX_MASK_HI e k) + b (F.CRL_BUNDLE_STATUS_CLK_OK e k) * 2 ^ 4 + c.cap % 4 * 2 ^ 5 +
     b (F.CRL_BUNDLE_STATUS_FLOOR e k) * 2 ^ 7 + propose % 4 * 2 ^ 9 + c.echo % 4 * 2 ^ 11 +
     b (F.CRL_BUNDLE_STATUS_ATTEMPT e k) * 2 ^ 13 + k * 2 ^ 15 + ofBool c.alignOk * 2 ^ 18 + ofBool retrain * 2 ^ 19 +
     ofBool rewiden * 2 ^ 20 + ofBool (st == Crl.fenced) * 2 ^ 21 + b (F.CRL_BUNDLE_STATUS_LAST_FAIL e k) * 2 ^ 22))

/-- A side sends an advert (R240). -/
def Chip.sendAdvert (s : Chip) (d e k : Nat) (retrain rewiden : Bool) : Chip :=
  let (w0, w1) := s.crlAdvert d e k retrain rewiden
  s.onCrl d e k (fun c => { c with
    advert := some (w0, w1, advertCrc w0 w1)
    askedAt := if retrain || rewiden then some s.now else c.askedAt })

/-- PATTERN starts (R243); what was received before it is not used (R242). -/
def Chip.crlPattern (s : Chip) (d e k attempt : Nat) : Chip :=
  let s := s.setFld d (F.CRL_BUNDLE_STATUS_ATTEMPT e k) attempt
  let s := s.onCrl d e k (fun c => { c with
    peerCap := none, peerFloor := none, echo := 0, agreeing := 0, alignOk := false, peerRxOk := false })
  s.crlGo d e k Crl.pattern

/-- The DETAIL of a bundle's event (R590). -/
def crlDetail (e k : Nat) : Nat := e + 2 * k

/-- The bundle enters FENCED with a cause, logged unless a FENCE write caused it, and adverts at once (R243, R678). -/
def Chip.crlFence (s : Chip) (d e k cause : Nat) : Chip :=
  let s := s.setFld d (F.CRL_BUNDLE_STATUS_LAST_FAIL e k) cause
  let s := if cause = 2 then s.logEv d Ev.crlWidthDisagree (crlDetail e k)
    else if cause = 5 then s else s.logEv d Ev.crlTrainFail (crlDetail e k + cause * 16)
  (s.crlGo d e k Crl.fenced).sendAdvert d e k false false

/-- An attempt fails (the failure rows of R243). -/
def Chip.crlFail (s : Chip) (d e k cause : Nat) : Chip :=
  let s := s.setFld d (F.CRL_BUNDLE_STATUS_LAST_FAIL e k) cause
  let attempt := s.fld d (F.CRL_BUNDLE_STATUS_ATTEMPT e k)
  if attempt < 3 then (s.crlPattern d e k (attempt + 1)).sendAdvert d e k false false
  else s.crlFence d e k cause

/-- PROPOSE of R242: the smallest of the four capabilities and floors, those not yet heard standing for FULL. -/
def Chip.crlPropose (s : Chip) (d e k : Nat) : Nat :=
  let c := s.crlSide d e k
  min (min c.cap (c.peerCap.getD 2)) (min (s.fld d (F.CRL_BUNDLE_STATUS_FLOOR e k)) (c.peerFloor.getD 2))

/-- How many of the 40 receive wires are good. -/
def goodWires (mask : BitVec 40) : Nat := (List.range 40).foldl (fun n i => n + ofBool (mask.getLsbD i)) 0

/-- The capability of a receiving side (R236). -/
def crlCapability (mask : BitVec 40) (clkOk : Bool) : Nat :=
  if !clkOk then 0 else if 38 ≤ goodWires mask then 2 else if 19 ≤ goodWires mask then 1 else 0

/-- Bad wires passed over before the 38th good wire, those the full-width map replaces by spares (R237). -/
def sparesUsed (mask : BitVec 40) : Nat :=
  ((List.range 40).foldl (fun (g, b) i =>
    if g = 38 then (g, b) else if mask.getLsbD i then (g + 1, b) else (g, b + 1)) (0, 0)).2

/-- The receive mask of a side. -/
def Chip.crlMask (s : Chip) (d e k : Nat) : BitVec 40 :=
  BitVec.ofNat 40 (s.fld d (F.CRL_BUNDLE_STATUS_RX_MASK_HI e k) * 2 ^ 36 + (s.reg d (Reg.CRL_RXMASK e k)).toNat)

/-- The wires of the logical lanes in order, from the receiver's mask (R237). -/
def laneMap (mask : BitVec 40) (width : Nat) : List Nat :=
  ((List.range 40).filter (fun i => mask.getLsbD i)).take (if width = 2 then 38 else 19)

/-- Agreement reached: the lane map of R237 is applied at the agreed width, in each direction from the mask of its receiver, and
ALIGN starts (R243). -/
def Chip.crlAlign (s : Chip) (d e k width : Nat) : Chip :=
  let own := s.crlMask d e k
  let s := s.onCrl d e k (fun c => { c with rxLanes := laneMap own width, txLanes := laneMap c.peerMask width })
  let s := s.setFld d (F.CRL_BUNDLE_STATUS_WIDTH e k) width
  let s := s.setFld d (F.CRL_BUNDLE_STATUS_SPARES_USED e k) (if width = 2 then sparesUsed (s.crlMask d e k) else 0)
  s.crlGo d e k Crl.align

/-- A bundle opens to routing. At half width the floor is lowered and the phases are fixed: the later side takes the phase
that fits the earlier one's (R200, R241, R243). -/
def Chip.crlActivate (s : Chip) (d e k : Nat) : Chip :=
  let half := s.crlWidth d e k == 1
  let p := peerDie d e
  let peer := s.crlSide p e k
  let phase := if s.crlState p e k = Crl.active then (peer.phase + 2) % 4 else Config.halfPhase s.free % 4
  let s := if half then s.setFld d (F.CRL_BUNDLE_STATUS_FLOOR e k) 1 else s
  let s := s.setFld d (F.CRL_BUNDLE_STATUS_ATTEMPT e k) 0
  let s := s.onCrl d e k (fun c => { c with phase := phase, errWindow := 0, winStart := s.now, rxCount := 0, txCount := 0 })
  { (s.crlGo d e k Crl.active) with free := s.free + 1 }

/-- A retrain that starts from ACTIVE (R243). -/
def Chip.crlRetrain (s : Chip) (d e k : Nat) : Chip :=
  ((s.satFld d (F.CRL_ERR_RETRAINS e k) 1).countEdge d e 43 1).crlPattern d e k 1

/-- The floor raised and training started again (R243). -/
def Chip.crlRewiden (s : Chip) (d e k : Nat) : Chip :=
  (s.setFld d (F.CRL_BUNDLE_STATUS_FLOOR e k) 2).crlPattern d e k 1

/-- An advert's effect in NEGOTIATE (R242, R243). -/
def Chip.advertNegotiate (s : Chip) (d e k : Nat) (w1 : W36) : Chip :=
  let s := s.onCrl d e k (fun c => { c with
    peerCap := some (bits w1 5 2), peerFloor := some (bits w1 7 2) })
  let p := s.crlPropose d e k
  let agrees := bits w1 9 2 = p && p != 0 && bits w1 11 2 = p
  let n := if agrees then (s.crlSide d e k).agreeing + 1 else 0
  let s := s.onCrl d e k (fun c => { c with propose := p, agreeing := n })
  if p = 0 then s.crlFail d e k 1
  else if 2 ≤ n then s.crlAlign d e k p
  else s

/-- A good advert's effect under the rows of R243, the first row that applies acting (R678). -/
def Chip.advertRows (s : Chip) (d e k : Nat) (w1 : W36) : Chip :=
  let st := s.crlState d e k
  let c := s.crlSide d e k
  let asked := match c.askedAt with
    | some t => s.now - t < 200000
    | none => false
  let training := st = Crl.pattern || st = Crl.negotiate || st = Crl.align
  if st = Crl.resetWait then s
  else if bit w1 21 && (training || st = Crl.active) && !asked then s.crlFence d e k (bits w1 22 3)
  else if training && s.fld d (F.CRL_BUNDLE_STATUS_ATTEMPT e k) < bits w1 13 2 then s.crlPattern d e k (bits w1 13 2)
  else if st = Crl.negotiate then s.advertNegotiate d e k w1
  else if st = Crl.align then
    let s := s.onCrl d e k (fun c => { c with peerRxOk := c.peerRxOk || bit w1 18 })
    s.when (bit w1 18 && c.alignOk) (fun s => s.crlActivate d e k)
  else if st = Crl.active then
    let w := s.crlWidth d e k
    if bits w1 9 2 != w || bits w1 11 2 != w then s.crlPattern d e k 1
    else if bit w1 19 then s.crlRetrain d e k
    else if bit w1 20 then s.crlRewiden d e k
    else s
  else if st = Crl.fenced then
    if bit w1 20 then s.crlRewiden d e k else if bit w1 19 then s.crlPattern d e k 1 else s
  else s

/-- ADVERT: an advert arrives over an edge; one with a bad CRC or a reserved width is ignored. Its mask and PROPOSE are kept
whatever the state (R237, R240, R243). -/
def Chip.advertArrives (s : Chip) (d e : Nat) (w0 w1 : W36) (crc : BitVec 8) : Chip :=
  if crc != advertCrc w0 w1 then s
  else
    let k := bits w1 15 3
    let s := (s.onCrl d e k (fun c => { c with lastGood := some s.now })).countEdge d e 46 1
    if bits w1 5 2 = 3 || bits w1 7 2 = 3 || bits w1 9 2 = 3 || bits w1 11 2 = 3 then s
    else
      let s := s.onCrl d e k (fun c => { c with echo := bits w1 9 2, peerMask := BitVec.ofNat 40 (w0.toNat + bits w1 0 4 * 2 ^ 36) })
      (s.setFld d (F.CRL_BUNDLE_STATUS_PEER_PROPOSE e k) (bits w1 9 2)).advertRows d e k w1

/-- Whether the die across an edge sends on its sideband wires (R229). -/
def Chip.peerSends (s : Chip) (d e : Nat) : Bool := !s.dieInReset (peerDie d e)

/-- ADVERT (R243). -/
def execAdvert (d : Die) (e : Fin 2) (w0 w1 : W36) (crc : BitVec 8) (s : State) : Out :=
  s.onLinks d (fun c => c.when (c.peerSends d e) (fun c => c.advertArrives d e w0 w1 crc))

/-- ADVERT_TIMER: the advert interval of R240 elapses. -/
def execAdvertTimer (d : Die) (e : Fin 2) (k : Fin 8) (s : State) : Out :=
  s.onLinks d (fun c => c.when (2 ≤ c.crlState d e k) (fun c => c.sendAdvert d e k false false))

/-! ### Training events (R243) -/

/-- REMOTE_RST_RISE: RST from the other side rises; every bundle of the edge discards what is in transit (R243). -/
def Chip.remoteReset (s : Chip) (d e : Nat) : Chip :=
  let s := s.setFld d F.CRL_SIDEBAND_PEER_RST (s.fld d F.CRL_SIDEBAND_PEER_RST ||| 2 ^ e)
  s.upTo 8 (fun s k => s.crlGo d e k Crl.resetWait)

/-- REMOTE_RST_RISE (R243). -/
def execRemoteRstRise (d : Die) (e : Fin 2) (s : State) : Out := s.onLinks d (fun c => c.remoteReset d e)

/-- RST is low on both sides (R243). -/
def Chip.rstBothLow (s : Chip) (d e k : Nat) : Chip :=
  let s := s.setFld d F.CRL_SIDEBAND_PEER_RST (putBits (BitVec.ofNat 2 (s.fld d F.CRL_SIDEBAND_PEER_RST)) e 1 0).toNat
  s.when (s.crlState d e k == Crl.resetWait) (fun s => s.crlPattern d e k 1)

/-- RST_BOTH_LOW (R243): both dies are out of reset. -/
def execRstBothLow (d : Die) (e : Fin 2) (k : Fin 8) (s : State) : Out :=
  s.onLinks d (fun c => c.when (!c.dieInReset (peerDie d e)) (fun c => c.rstBothLow d e k))

/-- Ten microseconds of PRBS-15 have been checked: RX_MASK, CLK_OK and CAP are fixed and NEGOTIATE starts; without any
capability the attempt fails (R236, R242, R243). -/
def Chip.patternDone (s : Chip) (d e k : Nat) (mask : BitVec 40) (clkOk : Bool) : Chip :=
  if s.crlState d e k = Crl.pattern then
    let cap := crlCapability mask clkOk
    let s := s.setReg d (Reg.CRL_RXMASK e k) (word (bits mask 0 36))
    let s := s.setFld d (F.CRL_BUNDLE_STATUS_RX_MASK_HI e k) (bits mask 36 4)
    let s := s.setFlag d (F.CRL_BUNDLE_STATUS_CLK_OK e k) clkOk
    let s := s.onCrl d e k (fun c => { c with cap := cap, peerCap := none, peerFloor := none, echo := 0, agreeing := 0 })
    let p := s.crlPropose d e k
    let s := (s.onCrl d e k (fun c => { c with propose := p })).crlGo d e k Crl.negotiate
    if cap = 0 then s.crlFail d e k 1 else s
  else s

/-- PATTERN_DONE (R243). -/
def execPatternDone (d : Die) (e : Fin 2) (k : Fin 8) (mask : BitVec 40) (clkOk : Bool) (s : State) : Out :=
  s.onLinks d (fun c => c.patternDone d e k mask clkOk)

/-- NEG_TIMEOUT (R243): no agreement. -/
def execNegTimeout (d : Die) (e : Fin 2) (k : Fin 8) (s : State) : Out :=
  s.onLinks d (fun c => c.when (c.crlState d e k == Crl.negotiate) (fun c => c.crlFail d e k 2))

/-- The ALIGN test ends: passed, the bundle opens once the other side reports RX_OK; failed, the attempt fails and at full
width the floor is lowered (R241, R243). -/
def Chip.alignDone (s : Chip) (d e k errors : Nat) : Chip :=
  if s.crlState d e k = Crl.align then
    if errors = 0 then
      let s := s.onCrl d e k (fun c => { c with alignOk := true })
      s.when (s.crlSide d e k).peerRxOk (fun s => s.crlActivate d e k)
    else
      let s := if s.crlWidth d e k = 2 then s.setFld d (F.CRL_BUNDLE_STATUS_FLOOR e k) 1 else s
      s.crlFail d e k 3
  else s

/-- ALIGN_TEST_DONE (R243). -/
def execAlignTestDone (d : Die) (e : Fin 2) (k : Fin 8) (errors : Nat) (s : State) : Out :=
  s.onLinks d (fun c => c.alignDone d e k errors)

/-- RX_OK_TIMEOUT (R243): the other side has not reported RX_OK in 20 µs. -/
def execRxOkTimeout (d : Die) (e : Fin 2) (k : Fin 8) (s : State) : Out :=
  s.onLinks d (fun c => c.when (c.crlState d e k == Crl.align) (fun c => c.crlFail d e k 4))

/-! ### Frames (R232 to R235) -/

/-- Slot i of a frame as a flit and its age (R233). -/
def frameSlot (frame : BitVec 760) (i : Nat) : Flit × Nat :=
  let b := 248 * i
  let w (j : Nat) : W36 := word (bits frame (b + 36 * j) 36)
  ({ w0 := w 0, w1 := w 1, w2 := w 2, w3 := w 3, w4 := w 4, w5 := w 5, chk := BitVec.ofNat 24 (bits frame (b + 216) 24) },
   bits frame (b + 240) 8)

/-- The CRC-8 of a frame (R232). -/
def frameCrc (frame : BitVec 760) : Nat := (crc8 ((List.range 752).map (fun i => frame.getLsbD i))).toNat

/-- CRC errors counted, and in the fixed 1 ms windows since ACTIVE; the limit starts a retrain (R234, R243). -/
def Chip.frameError (s : Chip) (d e k : Nat) : Chip :=
  let s := (s.satFld d (F.CRL_ERR_CRC_ERRORS e k) 1).countEdge d e 42 1
  let s := s.onCrl d e k (fun c =>
    let n := (s.now - c.winStart) / 1000000
    if n = 0 then { c with errWindow := c.errWindow + 1 }
    else { c with winStart := c.winStart + 1000000 * n, errWindow := 1 })
  let limit := s.fld d F.CRL_CFG_ERR_LIMIT
  if limit != 0 && limit ≤ (s.crlSide d e k).errWindow then
    let s := s.logEv d Ev.crlErrRetrain (crlDetail e k)
    (s.sendAdvert d e k true false).crlRetrain d e k
  else s

/-- A flit in its slot of a frame with its age; with none, zeros and check bits that all fail (R233). -/
def slotBits (x : Option Flight) : Nat :=
  match x with
  | some fl =>
    let f := fl.flit
    f.w0.toNat + f.w1.toNat * 2 ^ 36 + f.w2.toNat * 2 ^ 72 + f.w3.toNat * 2 ^ 108 + f.w4.toNat * 2 ^ 144 + f.w5.toNat * 2 ^ 180 +
      f.chk.toNat * 2 ^ 216 + fl.age % 256 * 2 ^ 240
  | none => (2 ^ 24 - 1) * 2 ^ 216

/-- A frame of at most three flits with its count (R232). -/
def frameOf (fs : List Flight) (count : Nat) : BitVec 760 :=
  let body := (List.range 3).foldl (fun v i => v + slotBits fs[i]? * 2 ^ (248 * i) + ofBool (i < fs.length) * 2 ^ (744 + i)) 0
  let body : BitVec 760 := BitVec.ofNat 760 (body + count % 16 * 2 ^ 748)
  body + BitVec.ofNat 760 (frameCrc body * 2 ^ 752)

/-- The level of a physical wire of a side's transmit direction in a unit interval of the frame it sent last: bit b of a frame of
Lw lanes travels on lane b mod Lw in interval b div Lw, and lane j on the (j + 1)-th good wire (R232, R237). -/
def Chip.wireBit (s : Chip) (d e k wire ui : Nat) : Option Bool :=
  let c := s.crlSide d e k
  match c.sentFrame, c.txLanes.findIdx? (fun w => w = wire) with
  | some f, some j => some (f.getLsbD (c.txLanes.length * ui + j))
  | _, _ => none

/-- A frame with n flits of a side leaves it (R232). -/
def Chip.bundleSends (s : Chip) (d e k n : Nat) : Chip :=
  s.onCrl d e k (fun c => { c with
    wire := c.wire.drop n, txCount := (c.txCount + 1) % 16, sentFrame := some (frameOf (c.wire.take n) c.txCount) })

/-- A frame received in ACTIVE is unpacked whatever its CRC and FCOUNT; its flits wait in the receiver's frame stage, from which the
bundle's router takes one in an nc in which the port is open (R200, R233 to R235). -/
def Chip.frameArrives (s : Chip) (d e k : Nat) (frame : BitVec 760) : Chip :=
  if s.crlState d e k = Crl.active then
    let count := bits frame 748 4
    let bad := bits frame 752 8 != frameCrc frame || count != (s.crlSide d e k).rxCount
    let valid := (List.range 3).filter (fun i => frame.getLsbD (744 + i))
    let (router, port) := bundleRouter d e k
    let s := { s with flights := s.flights ++ valid.map (fun i =>
      let (f, age) := frameSlot frame i
      ({ flit := f, router := router, inPort := port, age := age } : Flight)) }
    let s := s.countEdge d e 41 valid.length
    let s := s.bundleSends (peerDie d e) e k valid.length
    let s := s.onCrl d e k (fun c => { c with rxCount := (count + 1) % 16 })
    if bad then s.frameError d e k else s
  else s

/-- CRELINK_FRAME (R234). -/
def execCrelinkFrame (d : Die) (e : Fin 2) (k : Fin 8) (frame : BitVec 760) (s : State) : Out :=
  s.onLinks d (fun c => c.frameArrives d e k frame)

/-! ### CRL_BUNDLE_CTRL (R243, R244, R678) -/

/-- RST as a die drives it on both its inner edges: high in POR and in its reset (R231). -/
def Chip.rstOut (s : Chip) (d : Nat) : Bool := decide (s.dev = .por) || s.dieInReset d

/-- Whether RST from the die across an edge is high (R231, R244). -/
def Chip.peerRst (s : Chip) (d e : Nat) : Bool := s.rstOut (peerDie d e) || s.fld d F.CRL_SIDEBAND_PEER_RST / 2 ^ e % 2 = 1

/-- FENCE written. -/
def Chip.fenceWritten (s : Chip) (d e k : Nat) : Chip :=
  if s.peerRst d e then s.setFld d (F.CRL_BUNDLE_STATUS_LAST_FAIL e k) 5
  else s.crlFence d e k 5

/-- REWIDEN written: both floors are raised, the other side's by the request in the advert. -/
def Chip.rewidenWritten (s : Chip) (d e k : Nat) : Chip :=
  let st := s.crlState d e k
  if s.peerRst d e then
    (s.setFld d (F.CRL_BUNDLE_STATUS_FLOOR e k) 2).setFld d (F.CRL_BUNDLE_STATUS_ATTEMPT e k) 1
  else if st = Crl.active || st = Crl.fenced then (s.sendAdvert d e k false true).crlRewiden d e k
  else s

/-- RETRAIN written. -/
def Chip.retrainWritten (s : Chip) (d e k : Nat) : Chip :=
  let st := s.crlState d e k
  if s.peerRst d e then s.setFld d (F.CRL_BUNDLE_STATUS_ATTEMPT e k) 1
  else if st = Crl.active then (s.sendAdvert d e k true false).crlRetrain d e k
  else if st = Crl.fenced then (s.sendAdvert d e k true false).crlPattern d e k 1
  else s

/-- A write of CRL_BUNDLE_CTRL_e_k acts on the first of FENCE, REWIDEN, RETRAIN that it sets (R678). -/
def Chip.crlCtrlWrite (s : Chip) (d e k : Nat) (v : W36) : Chip :=
  if bit v 2 then s.fenceWritten d e k
  else if bit v 1 then s.rewidenWritten d e k
  else if bit v 0 then s.retrainWritten d e k
  else s

/-- RETRAIN: CRL_BUNDLE_CTRL written with RETRAIN = 1 and the bits v beside it (R243). -/
def execRetrain (d : Die) (e : Fin 2) (k : Fin 8) (v : W36) (s : State) : Out :=
  s.onLinks d (fun c => c.crlCtrlWrite d e k (v ||| 1))

/-- REWIDEN: CRL_BUNDLE_CTRL written with REWIDEN = 1 and the bits v beside it (R243). -/
def execRewiden (d : Die) (e : Fin 2) (k : Fin 8) (v : W36) (s : State) : Out :=
  s.onLinks d (fun c => c.crlCtrlWrite d e k (v ||| 2))

/-- FENCE: CRL_BUNDLE_CTRL written with FENCE = 1 and the bits v beside it (R243). -/
def execFence (d : Die) (e : Fin 2) (k : Fin 8) (v : W36) (s : State) : Out :=
  s.onLinks d (fun c => c.crlCtrlWrite d e k (v ||| 4))

/-- A fence notice applied at a die: of a bundle of its own edge it learns whether the other side is ACTIVE (R224, R238). -/
def Chip.applyNotice (s : Chip) (d : Nat) (x : FenceNotice) : Chip :=
  let own (a : Nat) : Chip :=
    if x.src = d then s
    else
      let s := s.onCrl d a x.bundle (fun c => { c with peerUp := x.live && s.bundleLive d a x.bundle })
      s.knowBundle d x.edge x.bundle (s.bundleOpen d a x.bundle)
  if x.edge = edgeOf d 0 then own 0 else if x.edge = edgeOf d 1 then own 1 else s.knowBundle d x.edge x.bundle x.live

/-- A fence notice arrives over an inner edge: applied to routing, and relayed over the other edge unless that leads back to the die
it concerns (R239, log 206). -/
def Chip.noticeArrives (s : Chip) (d e : Nat) (x : FenceNotice) : Chip :=
  let s := { s with notices := s.notices.upd (2 * peerDie d e + e) (fun xs => xs.erase x) }
  let s := s.applyNotice d x
  s.when (x.src != d && peerDie d (1 - e) != x.src) (fun s => s.sendNotice d (1 - e) x)

/-- FENCE_NOTICE (R239). -/
def execFenceNotice (x : NoticeAt) (edge : Fin 4) (k : Fin 8) (live : Bool) (s : State) : Out :=
  s.onLinks x.die (fun c => c.when (c.peerSends x.die x.inner)
    (fun c => c.noticeArrives x.die x.inner { src := x.src, edge := edge, bundle := k, live := live }))

end Sys2Proof.Machine
end

