-- ==== Sys2Proof/Machine/Karn.lean ====
section
/-! DEFINITION. Karn links between devices: frames, credits, keys, admission, numbering, time and position (chapter 14). -/

namespace Sys2Proof.Machine

/-- The authority code of a command port, 0 JTAG, 1 SVC, 2 FAB, 3 KRN, 4 CON: 0 CLOSED to 3 OWNER (R561, R562). -/
def Chip.portAuth (s : Chip) (p : Nat) : Nat := s.sec.auth / 4 ^ p % 4

/-- A link's record changed. -/
def Chip.onKarn (s : Chip) (d k : Nat) (f : KarnLink → KarnLink) : Chip := { s with karn := s.karn.upd (4 * d + k) f }

/-- A link's record. -/
def Chip.link (s : Chip) (d k : Nat) : KarnLink := s.karn.get (4 * d + k)

/-- Whether a link of die d is ACTIVE. -/
def Chip.linkUp (s : Chip) (d k : Nat) : Bool := s.fld d (F.KRN_LINK_STATUS_STATE k) == 5

/-! ### Frames (R450 to R453, R463) -/

/-- Octets of a number, lowest first. -/
def lowOctets (n v : Nat) : List (BitVec 8) := (List.range n).map (fun i => BitVec.ofNat 8 (v >>> (8 * i)))

/-- A flit as a slot (R451). -/
def slotOf (fl : Flight) : BitVec 256 :=
  let f := fl.flit
  BitVec.ofNat 256 (f.w0.toNat + f.w1.toNat * 2 ^ 36 + f.w2.toNat * 2 ^ 72 + f.w3.toNat * 2 ^ 108 + f.w4.toNat * 2 ^ 144 +
    f.w5.toNat * 2 ^ 180 + f.chk.toNat * 2 ^ 216 + fl.age % 256 * 2 ^ 240)

/-- The flit of a slot, waiting at a Karn router, with its carried age (R451). -/
def flitOf (router : Nat) (v : BitVec 256) : Flight :=
  { flit := { w0 := word (bits v 0 36), w1 := word (bits v 36 36), w2 := word (bits v 72 36), w3 := word (bits v 108 36),
              w4 := word (bits v 144 36), w5 := word (bits v 180 36), chk := BitVec.ofNat 24 (bits v 216 24) }
    router := router, inPort := 7, age := bits v 240 8 }

/-- The CRC-32 of a control block's low half and the slot blocks as sent (R450). -/
def karnCrc (low : Nat) (slots : List (BitVec 256)) : BitVec 32 :=
  crc32 (lowOctets 4 low ++ slots.flatMap (fun v => lowOctets 32 v.toNat))

/-- The fields of a control block (R450). -/
def KarnCtl.valid (c : BitVec 64) : Nat := bits c 0 4
def KarnCtl.credit (c : BitVec 64) : Nat := bits c 4 12
def KarnCtl.fseq (c : BitVec 64) : Nat := bits c 16 15
def KarnCtl.phase (c : BitVec 64) : Nat := bits c 31 1

/-- How many slots a VALID mask announces. -/
def validCount (v : Nat) : Nat := ofBool (v.testBit 0) + ofBool (v.testBit 1) + ofBool (v.testBit 2) + ofBool (v.testBit 3)

/-- A frame as 64b/66b blocks, each with its sync header from bit 64 on: the control block, four data blocks per slot, lowest bits first,
and two for the tag where there is one (R450, R451). -/
def frameBlocks (f : KarnFrame) (sealed : Bool) : List (BitVec 72) :=
  let data (v : Nat) : BitVec 72 := BitVec.ofNat 72 (v % 2 ^ 64 + 2 ^ 64)
  let ctrl : BitVec 72 := BitVec.ofNat 72 (f.ctrl.toNat + 2 ^ 65)
  ctrl :: (f.slots.flatMap (fun v => (List.range 4).map (fun i => data (v.toNat >>> (64 * i))))) ++
    (if sealed then [data f.tag.toNat, data (f.tag.toNat >>> 64)] else [])

/-- Blocks of a link on their way: block n of its stream travels on lane n mod 4 (R450). -/
def Chip.sendBlocks (s : Chip) (d k : Nat) (bs : List (BitVec 72)) : Chip :=
  s.each bs (fun s b =>
    let n := (s.link d k).blocks
    (s.laneSend d (2 * k + 1) (n % 4) b).onKarn d k (fun x => { x with blocks := n + 1 }))

/-- The IV of a frame: the salt, then the count of frames under the key (R463). -/
def karnIv (k : KarnKey) (count : Nat) : BitVec 96 := BitVec.ofNat 96 (k.salt.toNat * 2 ^ 64 + count % 2 ^ 64)

/-- A frame sent by an ACTIVE link: up to four flits against credits, or a lone control block that returns credits (R450,
R452, R453). -/
def Chip.sendFrame (s : Chip) (d k : Nat) : Chip :=
  let x := s.link d k
  let n := min 4 (min x.credits x.txBuf.length)
  if n = 0 && x.freed = 0 then s
  else
    let enc := s.flag d (F.KRN_LINK_CFG_ENC k)
    let seq := x.txSeq % 2 ^ 15
    let credit := if seq % 1024 = 0 then 256 - x.rxBuf.length else x.freed
    let low := (2 ^ n - 1) + credit * 2 ^ 4 + seq * 2 ^ 16 + s.fld d (F.KRN_LINK_STATUS_KEY_PHASE k) * 2 ^ 31
    let plain := (x.txBuf.take n).map slotOf
    let (slots, tag) := match x.active with
      | some key => if enc && n != 0 then Config.gcmSeal key.key (karnIv key key.tx) (lowOctets 4 low) plain else (plain, 0)
      | none => (plain, 0)
    let frame : KarnFrame := { ctrl := BitVec.ofNat 64 (low + (karnCrc low slots).toNat * 2 ^ 32), slots := slots, tag := tag }
    let blocks := frameBlocks frame (enc && n != 0)
    let s := s.onKarn d k (fun x => { x with
      txBuf := x.txBuf.drop n, credits := x.credits - n, freed := 0, txSeq := x.txSeq + 1, lastFrame := some frame
      active := x.active.map (fun key => { key with tx := key.tx + 1 })
      busyTo := s.now + (blocks.length * 64 + 99) / 100 })
    let s := s.sendBlocks d k blocks
    s.addFld d (F.KRN_LINK_STAT_COUNT k 0) n

/-- One nanosecond of every link: a waiting message, then a frame where the line is free. -/
def Chip.karnTick (s : Chip) : Chip :=
  s.each (s.karn.map (·.1)) (fun s key =>
    let d := key / 4
    let k := key % 4
    if s.linkUp d k && s.runs d then
      let s := match (s.link d k).msgs with
        | m :: r => s.onKarn d k (fun x => { x with msgs := r, lastMsg := some m })
        | [] => s
      s.when ((s.link d k).busyTo ≤ s.now) (fun s => s.sendFrame d k)
    else s)

/-- A frame discarded under R452. -/
def Chip.dropFrame (s : Chip) (d k : Nat) : Chip := s.addFld d (F.KRN_LINK_STAT_COUNT k 2) 1

/-- A frame whose tag fails: discarded, counted and logged; the eighth within 1 ms sends the link to DISABLED, from which it
retrains (R464). -/
def Chip.tagFailed (s : Chip) (d k : Nat) : Chip :=
  let s := (s.addFld d (F.KRN_LINK_STAT_COUNT k 3) 1).logEv d Ev.krnAuthFail k
  let recent := ((s.link d k).tagFails.filter (fun t => s.now - t < 1000000)) ++ [s.now]
  if 8 ≤ recent.length then
    let s := s.onKarn d k (fun x => { x with tagFails := [] })
    (s.setGroup d (2 * k + 1) [0, 1, 2, 3] 0).settleLane d (2 * k + 1) 0
  else s.onKarn d k (fun x => { x with tagFails := recent })

/-- The plain slots of an encrypted frame, if its key is loaded and its tag is good (R463, R464). -/
def openFrame (key : Option KarnKey) (count : Nat) (f : KarnFrame) : Option (List (BitVec 256)) :=
  match key with
  | some key =>
    let r := Config.gcmUnseal key.key (karnIv key count) (lowOctets 4 (bits f.ctrl 0 32)) f.slots
    if r.2 = f.tag then some r.1 else none
  | none => none

/-- A good frame: its credits, and its flits into the receive buffer (R452, R453). -/
def Chip.acceptFrame (s : Chip) (d k : Nat) (f : KarnFrame) (slots : List (BitVec 256)) : Chip :=
  let credit := KarnCtl.credit f.ctrl
  let router := karnRouter (4 * d + k)
  let s := s.onKarn d k (fun x => { x with
    credits := if KarnCtl.fseq f.ctrl % 1024 = 0 then credit else min 256 (x.credits + credit)
    rxBuf := (x.rxBuf ++ slots.map (flitOf router)).take 256 })
  s.addFld d (F.KRN_LINK_STAT_COUNT k 1) slots.length

/-- KARN_FRAME: a frame received by an ACTIVE link (R452, R453, R464). -/
def Chip.karnFrame (s : Chip) (d k : Nat) (f : KarnFrame) : Chip :=
  if !s.linkUp d k then s
  else
    let crc := karnCrc (bits f.ctrl 0 32) f.slots
    if crc.toNat != bits f.ctrl 32 32 || validCount (KarnCtl.valid f.ctrl) != f.slots.length then s.dropFrame d k
    else
      let x := s.link d k
      let seq := KarnCtl.fseq f.ctrl
      let gap := match x.lastSeq with
        | some l => (seq + 2 ^ 15 - l) % 2 ^ 15
        | none => 1
      let phase := KarnCtl.phase f.ctrl
      let own := phase == s.fld d (F.KRN_LINK_STATUS_KEY_PHASE k)
      let key := if own then x.active else x.pending
      let count := match key with
        | some key => (if phase = x.rxPhase then key.rx else 0) + (gap - 1)
        | none => 0
      let mark (key : Option KarnKey) : Option KarnKey := key.map (fun key => { key with rx := count + 1 })
      let s := s.onKarn d k (fun x => { x with
        lastSeq := some seq, rxPhase := phase
        active := if own then mark x.active else x.active, pending := if own then x.pending else mark x.pending })
      if gap != 1 then s.dropFrame d k
      else if s.flag d (F.KRN_LINK_CFG_ENC k) && !f.slots.isEmpty then
        match openFrame key count f with
        | some slots => s.acceptFrame d k f slots
        | none => s.tagFailed d k
      else s.acceptFrame d k f f.slots

/-- KARN_FRAME (R452). -/
def execKarnFrame (d : Die) (k : Fin 4) (frame : KarnFrame) (s : State) : Out := s.onDie d (fun c => c.karnFrame d k frame)

/-- Fields of a command's header word (R571). -/
def cmdOp (h : W36) : Nat := bits h 26 10

/-- The messages that a device sends to others when it has loaded (R460). -/
def loadMessage (w : W36) : Bool := cmdOp w = 0x380 || cmdOp w = 0x381

/-- Whether the KRN port's authority admits a flit from a link: in OBSERVER commands, in CLOSED the messages of R460 alone (R457). -/
def Chip.admits (s : Chip) (f : Flit) : Bool :=
  match s.portAuth 3 with
  | 0 => f.typ = Typ.cmd && f.last && loadMessage f.w2
  | 1 => f.typ = Typ.cmd
  | _ => true

/-- KARN_INGRESS_INJECT: the oldest buffered flit, aged by the link's latency, enters the network at the Karn router, or is
refused (R453, R457). -/
def Chip.ingress (s : Chip) (d k : Nat) : Chip :=
  match (s.link d k).rxBuf with
  | [] => s
  | fl :: r =>
    let router := karnRouter (4 * d + k)
    let age := min 255 (fl.age + (s.fld d (F.KRN_LINK_STATUS_LAT k) + 15) / 16)
    let s := s.takeTurn router 3
    let out : Chip × Bool := if s.admits fl.flit then s.launch router 3 fl.flit age
      else if isAnswer fl.flit.typ || fl.flit.typ = Typ.readResp then (s, true)
      else match s.refuseUnreachable router 2 fl.flit with
        | (s', .answered a) => s'.answerAtOnce router a
        | (s', _) => (s', true)
    if out.2 then out.1.onKarn d k (fun x => { x with rxBuf := r, freed := x.freed + 1 }) else s

/-- KARN_INGRESS_INJECT (R453). -/
def execKarnIngressInject (d : Die) (k : Fin 4) (s : State) : Out := s.onDie d (fun c => c.ingress d k)

/-! ### Keys (R463, R464) -/

/-- The KEY_OK and KEY_PHASE fields after the key slots have changed. -/
def Chip.keyShown (s : Chip) (d k : Nat) : Chip :=
  (s.setFlag d (F.KRN_LINK_STATUS_KEY_OK k) (s.link d k).active.isSome).settleLane d (2 * k + 1) 0

/-- KEY_SWITCH: the pending key becomes active for transmission and KEY_PHASE inverts; the former key stays in the other slot
(R464). -/
def Chip.keySwitch (s : Chip) (d k : Nat) : Chip :=
  match (s.link d k).pending with
  | some key =>
    let s := s.onKarn d k (fun x => { x with active := some { key with tx := 0 }, pending := x.active })
    (s.setFld d (F.KRN_LINK_STATUS_KEY_PHASE k) (1 - s.fld d (F.KRN_LINK_STATUS_KEY_PHASE k))).keyShown d k
  | none => s

/-- A key loaded into a link's pending slot (R463, R645). -/
def Chip.loadKey (s : Chip) (d k id : Nat) (key : BitVec 256) (salt : BitVec 32) : Chip :=
  (s.onKarn d k (fun x => { x with pending := some { key := key, salt := salt, id := id }, needKey := false })).when
    (s.flag d (F.XCV_QUAD_CFG_KARN (2 * k + 1))) (fun s => s.settleLane d (2 * k + 1) 0)

/-- Every key of a die zeroised (R464). -/
def Chip.keysZeroised (s : Chip) (d : Nat) : Chip :=
  s.upTo 4 (fun s k => (s.onKarn d k (fun x => { x with active := none, pending := none })).setFlag d
    (F.KRN_LINK_STATUS_KEY_OK k) false)

/-! ### Registers (R447, R458) -/

/-- The engine takes its quad and sets it, or gives it back (R447). -/
def Chip.takeQuad (s : Chip) (d k : Nat) : Chip :=
  let q := 2 * k + 1
  if s.flag d (F.KRN_LINK_CFG_EN k) then
    let s := (s.quadDown d q).setFlag d (F.XCV_QUAD_CFG_KARN q) true
    let s := s.setFlag d (F.XCV_QUAD_CFG_PLL_EN q) true
    let s := s.setFld d (F.XCV_QUAD_CFG_NX2 q) (if s.flag d (F.KRN_LINK_CFG_REFSEL k) then 165 else 160)
    let s := s.setFld d (F.XCV_QUAD_CFG_GROUP q) 2
    let s := s.upTo 4 (fun s l =>
      let s := s.setFlag d (F.XCV_LANE_CFG_EN q l) true
      let s := s.setFld d (F.XCV_LANE_CFG_DIV q l) 0
      let s := s.setFld d (F.XCV_LANE_CFG_PCS q l) 1
      let s := s.setFld d (F.XCV_LANE_CFG_WIDTH q l) 2
      let s := s.setFlag d (F.XCV_LANE_CFG_SCRAMBLE q l) true
      let s := s.setFld d (F.XCV_LANE_CFG_DETECT_KIND q l) 1
      let s := s.setFld d (F.XCV_LANE_CFG_TRAIN_KIND q l) 1
      (s.setFlag d (F.XCV_LANE_CFG_EXCH_KIND q l) true).onLane d q l (fun x => { x with failLogged := false }))
    s.settleLane d q 0
  else if s.flag d (F.XCV_QUAD_CFG_KARN q) then
    let s := s.upTo 4 (fun s l => s.setFlag d (F.XCV_LANE_CFG_EN q l) false)
    (s.setGroup d q [0, 1, 2, 3] 0).setFlag d (F.XCV_QUAD_CFG_KARN q) false
  else s

/-- A write of KRN_LINK_k_CFG. -/
def Chip.linkCfgWrite (s : Chip) (d k : Nat) (v : W36) : Chip :=
  let old := s.reg d (Reg.KRN_LINK_CFG k)
  let s := s.plainWrite d (Reg.KRN_LINK_CFG k) v
  let s := s.when (bits v 0 2 != bits old 0 2) (fun s => s.takeQuad d k)
  s.when (bit v 17) (fun s => s.keySwitch d k)

/-- KEY_SWITCH (R464). -/
def execKeySwitch (d : Die) (k : Fin 4) (v : W36) (s : State) : Out :=
  s.onDie d (fun c => c.linkCfgWrite d k (v ||| 0x20000))

/-- A write of KRN_DEVNUM: ignored while any link is ACTIVE, and on D1 to D3 (R458). -/
def Chip.devnumWrite (s : Chip) (d : Nat) (v : W36) : Chip :=
  let up := (List.range 16).any (fun l => s.karnActive l)
  let s := s.when (bit v 24) (fun s => s.setFlag d F.KRN_DEVNUM_REFUSED false)
  if d != 0 || up then s.setFlag d F.KRN_DEVNUM_REFUSED true else s.setFld 0 F.KRN_DEVNUM_NUM (bits v 0 11)

/-- KRN_DEVNUM_WRITE (R458). -/
def execKrnDevnumWrite (d : Die) (v : W36) (s : State) : Out := s.onDie d (fun c => c.devnumWrite d v)

/-- A write of a register of the KRN_ block. -/
def Chip.krnWrite (s : Chip) (d off : Nat) (v : W36) : Chip :=
  let i := off - Reg.KRN_LINK_CFG 0
  if off = Reg.KRN_DEVNUM then s.devnumWrite d v
  else if Reg.KRN_LINK_CFG 0 ≤ off && i < 32 && i % 8 = 0 then s.linkCfgWrite d (i / 8) v
  else if Reg.KRN_ROUTE 0 ≤ off && off < Reg.KRN_ROUTE 2048 then
    let s := (s.plainWrite d off v).upTo 4 (fun s k => s.onKarn d k (fun x => { x with needRoute := false }))
    s.upTo 4 (fun s k => s.when (s.flag d (F.XCV_QUAD_CFG_KARN (2 * k + 1))) (fun s => s.settleLane d (2 * k + 1) 0))
  else s.plainWrite d off v

/-! ### Capability exchange (R448, R459) -/

/-- The exchange of a group completes: a Karn link checks ENC, key identifiers and device numbers, and an unnumbered device
adopts ASSIGN; a native exchange of raw lanes has nothing to check (R430, R448, R459). -/
def Chip.exchangeDone (s : Chip) (d q l dev peer : Nat) (enc : Bool) (keyId assign : Nat) (unnumbered : Bool) : Chip :=
  if !s.groupIn d q l 4 then s
  else if s.flag d (F.XCV_QUAD_CFG_KARN q) then
    let k := q / 2
    let own := s.flag d (F.KRN_LINK_CFG_ENC k)
    let ids : Bool := match (s.link d k).active with
      | some key => key.id == keyId
      | none => false
    let same := dev == s.ownDevice && !unnumbered && !s.flag 0 F.KRN_DEVNUM_UNNUMBERED
    if enc != own || (own && !ids) || same then s.groupFails d q l 4
    else
      let s := s.setFld d (F.KRN_LINK_STATUS_PEER_DEV k) dev
      let s := s.setFld d (F.KRN_LINK_STATUS_PEER_LINK k) peer
      let s := if s.flag 0 F.KRN_DEVNUM_UNNUMBERED && d = 0 && k = 0 && assign != 0x7FF then
          (s.setFld 0 F.KRN_DEVNUM_NUM assign).setFlag 0 F.KRN_DEVNUM_UNNUMBERED false
        else s
      s.setGroup d q [0, 1, 2, 3] 5
  else s.setGroup d q (s.groupOf d q l) 5

/-! ### Time and position between devices (R461, R462) -/

/-- A message queued on a link. -/
def Chip.queueMsg (s : Chip) (d k : Nat) (m : KarnMsg) : Chip := s.onKarn d k (fun x => { x with msgs := x.msgs ++ [m] })

/-- f for every ACTIVE link of the device whose flag is set. -/
def Chip.eachLink (s : Chip) (on : Nat → Fld) (f : Chip → Nat → Nat → Chip) : Chip :=
  s.upTo 16 (fun s l => s.when (s.flag (l / 4) (on (l % 4)) && s.linkUp (l / 4) (l % 4)) (fun s => f s (l / 4) (l % 4)))

/-- KRN_TIME_SEND: device time over every link with TIME_TX = 1 (R461). -/
def execKrnTimeSend (s : State) : Out :=
  s.onChip (fun c => c.eachLink F.KRN_LINK_CFG_TIME_TX (fun c d k => c.queueMsg d k (.time (c.time d))))

/-- KRN_POS over every link with POS_TX = 1, at an agreement tick: each VALID channel's integer, latest stamp and P (R461). -/
def Chip.posSend (s : Chip) : Chip :=
  s.eachLink F.KRN_LINK_CFG_POS_TX (fun s d k =>
    let chans := ((List.range 2).filter (fun c => s.chnValid d c)).map (fun c =>
      let x := s.chan d c
      (c, x.int, x.stamp.getD 0, x.period.getD 0))
    s.queueMsg d k (.pos chans))

/-- A link's one-way latency in nanoseconds. -/
def Chip.latNs (s : Chip) (d k : Nat) : Nat := s.fld d (F.KRN_LINK_STATUS_LAT k) * 5 / 6

/-- KRN_TIME: the far device's time; the master die acts on the error where TIME_LINK is this link (R461). -/
def Chip.krnTime (s : Chip) (d k t : Nat) : Chip :=
  if !s.linkUp d k then s
  else
    let t := t + s.latNs d k
    let m := s.chnAll.master
    let s := s.onKarn d k (fun x => { x with timeOff := (s.time m : Int) - t })
    if s.flag 0 F.KRN_SYS_TIME_EN && s.fld 0 F.KRN_SYS_TIME_LINK == 4 * d + k then
      (s.actOnError m t).onKarn d k (fun x => { x with timeOff := 0 })
    else s

/-- KRN_TIME (R461). -/
def execKrnTime (d : Die) (k : Fin 4) (time : BitVec 64) (s : State) : Out := s.onDie d (fun c => c.krnTime d k time.toNat)

/-- The counts that a followed channel's report adds: one for each step of the integer, ending at the stamp given, P apart
(R462). -/
def followCounts (fromInt int stamp period : Nat) : List (Nat × Nat × Option Nat) :=
  let n := (int + 2 ^ 48 - fromInt) % 2 ^ 48
  let p := if period = 0 then none else some period
  if n = 0 then []
  else if 64 < n || period = 0 then [(int, stamp, p)]
  else (List.range n).map (fun i => ((fromInt + i + 1) % 2 ^ 48, stamp - (n - 1 - i) * period, p))

/-- KRN_POS: each followed channel's counts are queued for their source stamps, in local time, plus FOLLOW_DELAY (R462). -/
def Chip.krnPos (s : Chip) (d k : Nat) (chans : List (Nat × Nat × Nat × Nat)) : Chip :=
  if !(s.linkUp d k && s.fld 0 F.KRN_SYS_POS_LINK == 4 * d + k) then s
  else
    let delay := s.fld 0 F.KRN_SYS_FOLLOW_DELAY * 10
    s.each chans (fun s (c, int, stamp, period) =>
      if !s.chnFollows c then s
      else
        let t := unsigned 64 ((stamp : Int) + (s.link d k).timeOff + delay)
        s.upTo 4 (fun s e =>
          let s := s.chnFaultEnd e c
          s.onChan e c (fun x =>
            let last := match x.due.getLast? with
              | some (i, _, _) => i
              | none => x.int
            { x with due := x.due ++ followCounts last int t period })))

/-- KRN_POS (R462). -/
def execKrnPos (d : Die) (k : Fin 4) (chans : List (Fin 2 × BitVec 48 × BitVec 64 × BitVec 32)) (s : State) : Out :=
  s.onDie d (fun c => c.krnPos d k (chans.map (fun (c, i, t, p) => (c.val, i.toNat, t.toNat, p.toNat))))

/-- Followed counts of a die whose time has come (R462). -/
def Chip.followTick (s : Chip) (d : Nat) : Chip :=
  s.upTo 2 (fun s c =>
    match (s.chan d c).due with
    | (int, stamp, p) :: r =>
      if stamp ≤ s.time d then
        s.onChan d c (fun x => { x with due := r, int := int, frac := 0, stamp := some stamp, accepted := s.time d, period := p, forward := true })
      else s
    | [] => s)

/-- KRN_POS_TIMEOUT: no frame for 5 µs: the follower behaves as if its encoder were FAULTED (R462). -/
def execKrnPosTimeout (d : Die) (c : Fin 2) (s : State) : Out :=
  s.onChn d (fun x => x.when (x.chnFollows c) (fun x => x.chnFault d c))

end Sys2Proof.Machine
end

