-- ==== Sys2Proof/Machine/Halt.lean ====
section
/-! DEFINITION. The command catalogue's authorities and states (R580, R604), STATE replies (R574), and entry into
SECURE_HALT (R524 to R527, R579, R607). -/

namespace Sys2Proof.Machine

/-! ### The catalogue (R580, R604) -/

/-- The device states in which an opcode is allowed, as DEV_STATE codes; none where the opcode is not in the catalogue. -/
def opStates (op : Nat) : Option (List Nat) :=
  let blkru := [3, 4, 5, 6, 7]
  match op with
  | 0x001 | 0x003 => some [1, 2, 3, 4, 5, 6, 7, 8]
  | 0x002 => some (2 :: blkru)
  | 0x005 => some [2, 3, 4, 5, 6, 7, 8]
  | 0x004 | 0x006 | 0x007 | 0x008 | 0x009 | 0x281 | 0x180 | 0x181 | 0x182 | 0x384 | 0x385 => some blkru
  | 0x00A | 0x380 | 0x381 => some [6, 7]
  | 0x080 | 0x088 | 0x089 => some [3, 5, 7]
  | 0x081 => some [4, 7]
  | 0x082 | 0x083 | 0x084 | 0x085 | 0x086 | 0x087 | 0x08A | 0x100 | 0x200 | 0x201 | 0x280 | 0x300 | 0x301 => some [7]
  | 0x183 | 0x185 => some [3, 7]
  | 0x184 => some [3]
  | 0x382 | 0x383 | 0x386 => some [3, 5, 6, 7]
  | _ => none

def cmdLen (h : W36) : Nat := bits h 18 8
def cmdTag (h : W36) : Nat := bits h 12 6
def cmdDie (h : W36) : Nat := bits h 0 2

/-- The status codes of R573. -/
def St.ok : Nat := 0x00
def St.busy : Nat := 0x01
def St.state : Nat := 0x02
def St.auth : Nat := 0x03
def St.param : Nat := 0x04
def St.unknownOp : Nat := 0x05
def St.length : Nat := 0x06
def St.integrity : Nat := 0x07
def St.resource : Nat := 0x08
def St.timeout : Nat := 0x09
def St.refused : Nat := 0x0A
def St.partial' : Nat := 0x0B

/-- A reply: header and result words (R572). -/
def replyTo (h : W36) (status : Nat) (ws : List W36) : List W36 :=
  word (status * 2 ^ 28 + ws.length % 256 * 2 ^ 18 + cmdTag h * 2 ^ 12 + cmdDie h) :: ws

/-- A mask of codes with bit 4 + s for code s. -/
def stateMask (codes : List Nat) : Nat := codes.foldl (fun m c => m ||| 2 ^ (4 + c)) 0

/-- The words of a STATE reply: device state and mask; the named block's state and the mask of its allowed states (R574). -/
def Chip.stateWords (s : Chip) (op : Nat) (block : Option (Nat × List Nat)) : List W36 :=
  let w1 := match block with
    | some (st, allowed) => st + stateMask allowed
    | none => 0
  [word (s.dev.code + stateMask ((opStates op).getD [])), word w1]

/-! ### SECURE_HALT -/

/-- A port's running and buffered commands abandoned and its reply discarded; a port that had a command then shows STATE with
that command's tag (R579). -/
def Chip.abandonPort (s : Chip) (p : Nat) (halt : Bool) : Chip :=
  let x := s.cmds.get p
  let cmd := match x.running with
    | some c => some c
    | none => x.buffered
  let reply := match cmd with
    | some (h :: _) => if halt then some (replyTo h St.state (s.stateWords (cmdOp h) none)) else none
    | _ => none
  { s with cmds := s.cmds.set p { x with
      partWords := [], buffered := none, bufferedFrom := none, running := none, runningFrom := none, begun := false,
      unread := reply.isSome, reply := reply, readPos := 0, repeatMark := false } }

/-- JTAG's authority as its fuses give it (R562, R602). -/
def Chip.fusedAuth (s : Chip) : Nat :=
  if s.sec.level = 0 then 0x3FF else if s.sec.level = 1 then s.fuses.authLocked.toNat else s.fuses.authSealed.toNat - s.fuses.authSealed.toNat % 4

/-- The unlock ends: JTAG returns to its fused authority (R602). -/
def Chip.unlockEnds (s : Chip) : Chip :=
  { s with sec := { s.sec with unlocked := false, auth := s.fusedAuth } }

/-- A die's test access port changed. -/
def Chip.onTap (s : Chip) (d : Nat) (f : DieTap → DieTap) : Chip := { s with taps := s.taps.upd d f }

/-- The debug session of a die closes: no core is attached, and no operation waits (R607, R618). -/
def Chip.sessionsClosed (s : Chip) (d : Nat) : Chip := s.onTap d (fun t => { t with attached := 0, busy := none, begun := false, force := none })

/-- What SECURE_HALT does to a die (R524): DONE_N falls, keys are zeroised, latches dropped, transceivers down, sessions closed, DRAM
to self-refresh. -/
def Chip.haltedDie (s : Chip) (d : Nat) : Chip :=
  let s := s.setFlag d F.CFG_STATUS_DONE_OUT false
  let s := s.keysZeroised d
  let s := s.upTo 2 (fun s b => (s.dropLatch d b).onBank d b (fun x => { x with words := [] }))
  let s := s.upTo 8 (fun s q => s.quadDown d q)
  let s := (s.ethCleared d).sessionsClosed d
  s.upTo 2 (fun s c =>
    let s := { s with ddr := s.ddr.upd (2 * d + c) (fun x => { x with
      keys := none, oldKeys := none, queue := [], jobs := [], taking := [], macs := [], cache := [], root := [] }) }
    s.when (s.fld d (F.DDR_STATUS_STATE c) == 3) (fun s => s.setFld d (F.DDR_STATUS_STATE c) 4))

/-- The device enters SECURE_HALT (R524): clocks stop, keys are zeroised, pads, fences and transceivers go to their halt
state, DONE_N falls and HALT_N is asserted, DRAM goes to self-refresh, commands are abandoned, sessions and the unlock end. -/
def Chip.enterSecureHalt (s : Chip) : Chip :=
  if s.dev = .secureHalt || !s.alive then s
  else
    let s := (s.setDev .secureHalt).upTo 5 (fun s p => s.abandonPort p true)
    let s := { s with haltOut := ~~~s.inReset, loads := [], updates := [] }
    (s.upTo 4 (fun s d => s.haltedDie d)).unlockEnds

/-- HALT_INPUT: a HALT wire of an inner edge of a die is high. A die in reset does not take it, and in SELFTEST the input is masked
(R230, R231, R524). -/
def execHaltInput (d : Die) (s : State) : Out :=
  s.onLinks d (fun c => c.when (decide (c.dev ≠ .selftest)) (fun c => c.enterSecureHalt))

/-- An integrity failure of a die's channel at a line: recorded, logged, and the whole device halts (R523, R524, R527). -/
def Chip.integrityFailure (s : Chip) (d c line cause : Nat) : Chip :=
  if s.dev = .secureHalt then s
  else
    let s := s.setReg d Reg.MIE_HALT_INFO (word (line % 2 ^ 32 + c * 2 ^ 32 + cause * 2 ^ 33))
    let s := { (s.logEv d Ev.mieSecureHalt (s.reg d Reg.MIE_HALT_INFO).toNat) with haltDie := some d }
    s.enterSecureHalt

end Sys2Proof.Machine
end

