-- ==== Sys2Proof/Machine/DdrBase.lean ====
section
/-! DEFINITION. DRAM: geometry, stored lines, error records, rank retirement (chapter 15), and the codes of a line (chapter 16,
R502 to R504). -/

namespace Sys2Proof.Machine

/-! ### Channels and geometry (R469 to R472) -/

/-- A channel's record. -/
def Chip.ddrChan (s : Chip) (d c : Nat) : DdrChan := s.ddr.get (2 * d + c)

/-- A channel's record changed. -/
def Chip.onDdr (s : Chip) (d c : Nat) (f : DdrChan → DdrChan) : Chip := { s with ddr := s.ddr.upd (2 * d + c) f }

/-- Logical ranks of a channel. -/
def Chip.lranks (s : Chip) (d c : Nat) : Nat := s.fld d (F.DDR_CFG_LRANKS_M1 c) + 1

/-- The widths of the row, bank group, bank and column fields. -/
def Chip.rowBits (s : Chip) (d c : Nat) : Nat := s.fld d (F.DDR_GEOM_ROWBITS c)
def Chip.bgBits (s : Chip) (d c : Nat) : Nat := s.fld d (F.DDR_GEOM_BGBITS c)
def Chip.baBits (s : Chip) (d c : Nat) : Nat := s.fld d (F.DDR_GEOM_BABITS c)
def Chip.colBits (s : Chip) (d c : Nat) : Nat := s.fld d (F.DDR_GEOM_COLBITS c)

/-- The line count C of R472. -/
def Chip.lineCount (s : Chip) (d c : Nat) : Nat :=
  s.lranks d c * 2 ^ (1 + s.rowBits d c + s.bgBits d c + s.baBits d c + s.colBits d c)

/-- The protection mode of a channel: 0 Plain, 1 Compact, 2 Full (R501). -/
def Chip.mieMode (s : Chip) (d c : Nat) : Nat := s.fld d (F.MIE_CH_CFG_MODE c)

/-- The usable capacity in lines (R472, R507, R528). -/
def Chip.usableLines (s : Chip) (d c : Nat) : Nat :=
  if s.fld d (F.DDR_STATUS_STATE c) != 3 || s.flag d (F.MIE_CH_STATUS_INIT_BUSY c) then 0
  else if s.mieMode d c = 2 then 27 * s.lineCount d c / 32 else s.lineCount d c

/-- Where a line lies: logical rank, rank-local line index, bank (group and bank), row (R469, R470, R491). -/
structure Place where
  rank : Nat
  index : Nat
  bank : Nat
  row : Nat
deriving DecidableEq, Repr

/-- Bits of the rank field under orders 0, 1 and 3 (R470). -/
def rankBits (lranks : Nat) : Nat := if lranks ≤ 1 then 0 else if lranks ≤ 2 then 1 else 2

/-- The DRAM location of a line (R469). -/
def Chip.place (s : Chip) (d c line : Nat) : Place :=
  let m := line / 2
  let co := s.colBits d c
  let bg := s.bgBits d c
  let ba := s.baBits d c
  let ro := s.rowBits d c
  let field (lo w : Nat) : Nat := m / 2 ^ lo % 2 ^ w
  let order := s.fld d (F.DDR_CFG_ORDER c)
  let below := co + bg + ba
  if order = 2 then
    { rank := m / 2 ^ (below + ro), index := line % 2 ^ (1 + below + ro), row := field below ro
      bank := field co bg * 2 ^ ba + field (co + bg) ba }
  else
    let rb := rankBits (s.lranks d c)
    let row := m / 2 ^ (below + rb) % 2 ^ ro
    let index := line % 2 ^ (1 + below) + line / 2 ^ (1 + below + rb) * 2 ^ (1 + below)
    let bgf := if order = 0 then field (co + ba) bg else field 0 bg
    let baf := if order = 0 then field co ba else field (bg + co) ba
    let bgf := if order = 3 then bgf ^^^ (row / 2 ^ ba % 2 ^ bg) else bgf
    let baf := if order = 3 then baf ^^^ (row % 2 ^ ba) else baf
    { rank := field below rb, index := index, row := row, bank := bgf * 2 ^ ba + baf }

/-- The physical rank that serves a logical rank (R471). -/
def Chip.physRank (s : Chip) (d c rank : Nat) : Nat := s.fld d (F.DDR_RANK_MAP_MAP c) / 4 ^ rank % 4

/-- The lines of one rank. -/
def Chip.rankLines (s : Chip) (d c : Nat) : Nat := 2 ^ (1 + s.rowBits d c + s.bgBits d c + s.baBits d c + s.colBits d c)

/-- The key of a stored line. -/
def dramKey (d c phys index : Nat) : Nat := ((2 * d + c) * 4 + phys) * 2 ^ 34 + index

/-! ### Codes (R502 to R504) -/

/-- Octet i of a line, i = 0 to 71, in ascending order (R502). -/
def lineOctets (v : BitVec 576) : List (BitVec 8) := (List.range 72).map (fun i => BitVec.ofNat 8 (bits v (8 * i) 8))

/-- One step of CRC-64 of ECMA-182, most significant bit first (R503). -/
def crc64Step (r : BitVec 64) (b : Bool) : BitVec 64 :=
  if (b != r.getLsbD 63) then (r <<< 1) ^^^ 0x42F0E1EBA9EA3693#64 else r <<< 1

/-- One step of CRC-16 with polynomial 0x1021 (R503). -/
def crc16Step (r : BitVec 16) (b : Bool) : BitVec 16 :=
  if (b != r.getLsbD 15) then (r <<< 1) ^^^ 0x1021#16 else r <<< 1

/-- The CRC-64 and CRC-16 of a line (R503). -/
def crc64 (v : BitVec 576) : BitVec 64 := ((lineOctets v).flatMap octetBits).foldl crc64Step 0
def crc16 (v : BitVec 576) : BitVec 16 := ((lineOctets v).flatMap octetBits).foldl crc16Step 0

/-- The check field's CRC, replaced for a line with data v: good, or as a line stored poisoned (R503, R504). -/
def withCrc (mode : Nat) (v : BitVec 576) (chk : BitVec 64) (poison : Bool) : BitVec 64 :=
  if mode = 1 then
    putBits chk 0 16 (if poison then crc16 v ^^^ 0xFFFF#16 else crc16 v).toNat
  else if poison then crc64 v ^^^ 0xFFFFFFFFFFFFFFFF#64 else crc64 v

/-- The engine's verdict on a line as read (R468, R504). -/
inductive Verdict where
  | pass | poisoned | fail
deriving DecidableEq, Repr

/-- The verdict that a stored line gives in a mode (R503, R504). -/
def lineVerdict (mode : Nat) (x : DramLine) : Verdict :=
  if x.chk = withCrc mode x.data x.chk false then .pass
  else if x.chk = withCrc mode x.data x.chk true then .poisoned
  else .fail

/-- Word t of a line (R502). -/
def lineWord (v : BitVec 576) (t : Nat) : W36 := word (bits v (36 * t) 36)

/-- A line with word t replaced. -/
def setLineWord (v : BitVec 576) (t : Nat) (w : W36) : BitVec 576 := putBits v (36 * t) 36 w.toNat

/-! ### Records and retirement (R486, R489 to R492) -/

/-- The kinds of error records (DDR_ERRQ). -/
def Err.transient : Nat := 0
def Err.persistent : Nat := 1
def Err.caPersistent : Nat := 2
def Err.migPoison : Nat := 3
def Err.mergePoison : Nat := 4
def Err.writeLost : Nat := 5
def Err.noSpare : Nat := 6

/-- A record enters the queue of 64, or is discarded (R489). -/
def Chip.ddrRecord (s : Chip) (d c line kind : Nat) : Chip :=
  if 64 ≤ (s.ddrChan d c).errq.length then s.setFlag d (F.DDR_ERRQ_STATUS_OVERFLOW c) true
  else s.onDdr d c (fun x => { x with errq := x.errq ++ [(line, kind)] })

/-- A retirement of a mapped rank: migration starts with a free spare and none running, else NO_SPARE, logged once per rank;
whether migration started (R490, R491). -/
def Chip.retireRank (s : Chip) (d c rank : Nat) : Chip × Bool :=
  let phys := s.physRank d c rank
  if s.flag d (F.DDR_RANK_MAP_SPARE_FREE c) && !s.flag d (F.DDR_STATUS_MIGRATING c) then
    let s := s.setFlag d (F.DDR_STATUS_MIGRATING c) true
    let s := s.setFld d (F.DDR_MIG_CP c) (s.rankLines d c)
    let s := s.setFld d (F.DDR_MIG_FROM c) phys
    (s.onDdr d c (fun x => { x with migRank := rank }), true)
  else
    let s := s.ddrRecord d c phys Err.noSpare
    if (s.ddrChan d c).noSpare.getLsbD phys then (s, false)
    else ((s.onDdr d c (fun x => { x with noSpare := x.noSpare ||| BitVec.ofNat 4 (2 ^ phys) })).logEv d Ev.ddrNoSpare
      (c + phys * 2), false)

/-- Whether a physical rank is mapped, and as which logical rank. -/
def Chip.logicalOf (s : Chip) (d c phys : Nat) : Option Nat :=
  (List.range (s.lranks d c)).find? (fun r => s.physRank d c r = phys)

/-- A PERSISTENT failure of a line on a physical rank: counted, recorded, logged, and the rank retired at its threshold (R486,
R490). -/
def Chip.ddrPersistent (s : Chip) (d c phys line : Nat) : Chip :=
  let s := s.ddrRecord d c line Err.persistent
  let s := s.satFld d (F.DDR_RANK_ERR_PERSIST c phys) 1
  let s := s.logEv d Ev.ddrReadPoison (c + line * 2)
  let thr := s.fld d (F.DDR_RAS_CFG_RETIRE_THR c)
  match s.logicalOf d c phys with
  | some r =>
    if thr != 0 && s.fld d (F.DDR_RANK_ERR_PERSIST c phys) == thr && s.flag d (F.DDR_RAS_CFG_RETIRE_AUTO c) then
      (s.retireRank d c r).1
    else s
  | none => s

/-! ### Stored lines -/

/-- A line of a physical rank read, its first `bad` reads disturbed: the line and the verdict after the re-reads of R486. -/
def Chip.readRank (s : Chip) (d c phys index line bad : Nat) : Chip × DramLine × Verdict :=
  let x := s.dram.get (dramKey d c phys index)
  let retry := s.fld d (F.DDR_RAS_CFG_READ_RETRY c)
  let v := lineVerdict (s.mieMode d c) x
  if v = .fail || retry < bad then
    ((s.countDdr d c 33 retry).ddrPersistent d c phys line, x, .fail)
  else if bad = 0 then (s, x, v)
  else
    let s := s.ddrRecord d c line Err.transient
    ((s.satFld d (F.DDR_RANK_ERR_TRANSIENT c phys) 1).countDdr d c 33 bad, x, v)

/-- The physical rank that a read of a line comes from: during its migration, the old rank below CP and the spare at or above
it (R491). -/
def Chip.readFrom (s : Chip) (d c : Nat) (p : Place) : Nat :=
  if s.flag d (F.DDR_STATUS_MIGRATING c) && p.rank = (s.ddrChan d c).migRank && s.fld d (F.DDR_MIG_CP c) ≤ p.index then
    s.fld d (F.DDR_CFG_SPARE_RANK c)
  else s.physRank d c p.rank

/-- A stored line read with its re-reads (R486). -/
def Chip.readStored (s : Chip) (d c line bad : Nat) : Chip × DramLine × Verdict :=
  let p := s.place d c line
  s.readRank d c (s.readFrom d c p) p.index line bad

/-- A line put into a physical rank. -/
def Chip.putLine (s : Chip) (d c phys index : Nat) (x : DramLine) : Chip :=
  { s with dram := s.dram.set (dramKey d c phys index) x }

/-- A line written: an armed flip of KIND 8 changes one stored word; a migrating rank is written on both ranks (R491, R499). -/
def Chip.writeStored (s : Chip) (d c line : Nat) (x : DramLine) : Chip :=
  let flip := s.flipArmed d 8 c
  let t := s.fld d F.MIE_FLIP_SEL_WORD
  let x' := if flip then
      { x with data := setLineWord x.data t (lineWord x.data t ^^^ word (s.fld d F.MIE_FLIPMASK_MASK)) }
    else x
  let s := if flip then s.flipDone d else s
  let p := s.place d c line
  let s := s.putLine d c (s.physRank d c p.rank) p.index x'
  if s.flag d (F.DDR_STATUS_MIGRATING c) && p.rank = (s.ddrChan d c).migRank then
    s.putLine d c (s.fld d (F.DDR_CFG_SPARE_RANK c)) p.index x'
  else s

/-- Every stored line of a channel lost (R494, R501). -/
def Chip.dramLost (s : Chip) (d c : Nat) : Chip :=
  { s with dram := SMap.dropRange s.dram (dramKey d c 0 0) (dramKey d c 4 0) }

end Sys2Proof.Machine
end

