-- ==== Sys2Proof/Machine/Mie.lean ====
section
/-! DEFINITION. Memory integrity and encryption: keys, sealed lines, counters, tree, counter cache, reads and writes of
protected lines (chapter 16). -/

namespace Sys2Proof.Machine

/-! ### Keys (R505, R596) -/

/-- A derived key (R596): the counter-mode KDF of two iterations under a device key. -/
def deriveKey (dk : BitVec 256) (label : List (BitVec 8)) (context : List (BitVec 8)) : BitVec 256 :=
  let prf (i : Nat) : BitVec 128 := Config.cmac dk (bigEndian 4 i ++ label ++ [0] ++ context ++ bigEndian 4 256)
  prf 1 ++ prf 2

/-- ASCII octets of the labels of R596. -/
def Label.vimg : List (BitVec 8) := [0x56, 0x49, 0x4D, 0x47]
def Label.mdat : List (BitVec 8) := [0x4D, 0x44, 0x41, 0x54]
def Label.mmac : List (BitVec 8) := [0x4D, 0x4D, 0x41, 0x43]
def Label.mtwk : List (BitVec 8) := [0x4D, 0x54, 0x57, 0x4B]

/-- A channel's keys for a seed (R505, R596). -/
def Chip.channelKeys (s : Chip) (d c : Nat) (seed : BitVec 128) : MieKeys :=
  let ctx := bigEndian 1 d ++ bigEndian 1 c ++ bigEndian 16 seed.toNat
  { data := deriveKey s.fuses.deviceKey Label.mdat ctx, mac := deriveKey s.fuses.deviceKey Label.mmac ctx
    tweak := deriveKey s.fuses.deviceKey Label.mtwk ctx }

/-- New keys drawn for a channel: the seed comes from the part's random source (R505). -/
def Chip.drawKeys (s : Chip) (d c : Nat) : Chip :=
  let seed : BitVec 128 := (Config.random256 s.free).setWidth 128
  let k := s.channelKeys d c seed
  { (s.onDdr d c (fun x => { x with keys := some k })) with free := s.free + 1 }

/-- Whether a REKEY walk has yet to pass a line (R529). -/
def Chip.unwalked (s : Chip) (d c line : Nat) : Bool :=
  s.flag d (F.MIE_CH_STATUS_REKEY_BUSY c) && s.fld d (F.MIE_CH_PTR_PTR c) ≤ line

/-- The keys in force for a line; zeroised keys read as zero (R505, R529). -/
def Chip.lineKeys (s : Chip) (d c line : Nat) : MieKeys :=
  let x := s.ddrChan d c
  ((if s.unwalked d c line then x.oldKeys else x.keys)).getD {}

/-! ### Sealed lines (R506, R511, R512) -/

/-- The octet P of a MAC (R506, R512). -/
def poisonOctet (p : Bool) : List (BitVec 8) := if p then [1] else [0]

/-- MAC48 of a Compact line (R506). -/
def mac48 (k : MieKeys) (line : Nat) (poison : Bool) (ct : BitVec 576) : Nat :=
  bits (Config.cmac k.mac (bigEndian 4 line ++ poisonOctet poison ++ lineOctets ct)) 80 48

/-- The 64-bit MAC of a Full data line (R512). -/
def macFull (k : MieKeys) (line major minor : Nat) (poison : Bool) (ct : BitVec 576) : Nat :=
  bits (Config.cmac k.mac (bigEndian 4 line ++ bigEndian 8 major ++ bigEndian 1 minor ++ poisonOctet poison ++ lineOctets ct))
    64 64

/-- The keystream of a Full line: octet i is octet i mod 16 of counter block i div 16 (R512). -/
def ctrStream (k : MieKeys) (line major minor : Nat) : BitVec 576 :=
  (List.range 72).foldl (fun (v : BitVec 576) i =>
    let b := Config.aes256 k.data
      (BitVec.ofNat 128 (line % 2 ^ 32 * 2 ^ 96 + major % 2 ^ 64 * 2 ^ 32 + minor % 128 * 2 ^ 25 + i / 16))
    v ||| ((BitVec.ofNat 576 (bits b (8 * (15 - i % 16)) 8)) <<< (8 * i))) 0

/-- The 512 payload bits of a tag, counter or tree line, and its 64 nibble bits (R508, R511). -/
def payloadOf (v : BitVec 576) : Nat := (List.range 16).foldl (fun n t => n + bits v (36 * t) 32 * 2 ^ (32 * t)) 0
def nibblesOf (v : BitVec 576) : Nat := (List.range 16).foldl (fun n t => n + bits v (36 * t + 32) 4 * 2 ^ (4 * t)) 0

/-- The line of a payload and its nibble bits. -/
def packLine (payload nibbles : Nat) : BitVec 576 :=
  (List.range 16).foldl (fun v t =>
    setLineWord v t (word (payload / 2 ^ (32 * t) % 2 ^ 32 + nibbles / 2 ^ (4 * t) % 16 * 2 ^ 32))) 0

/-- The 64-bit entry i of a payload. -/
def entry64 (payload i : Nat) : Nat := payload / 2 ^ (64 * i) % 2 ^ 64

/-- A payload with entry i replaced. -/
def setEntry64 (payload i v : Nat) : Nat := payload - entry64 payload i * 2 ^ (64 * i) + v % 2 ^ 64 * 2 ^ (64 * i)

/-- The minor counter of line i of a group, and a payload with it replaced (R509). -/
def minorOf (payload i : Nat) : Nat := payload / 2 ^ (64 + 7 * i) % 128
def setMinor (payload i v : Nat) : Nat := payload - minorOf payload i * 2 ^ (64 + 7 * i) + v % 128 * 2 ^ (64 + 7 * i)

/-- The MAC of a counter or tree line under its version: 64 payload octets in ascending bit order (R511). -/
def nodeMac (k : MieKeys) (addr version payload : Nat) : Nat :=
  bits (Config.cmac k.mac (bigEndian 4 addr ++ bigEndian 8 version ++ lowOctets 64 payload)) 64 64

/-! ### The tree (R507, R510) -/

/-- Sizes of the levels from N0 up to the first of at most 8 lines. -/
def levelSizes : Nat → Nat → List Nat
  | 0, n => [n]
  | fuel + 1, n => if n ≤ 8 then [n] else n :: levelSizes fuel ((n + 7) / 8)

/-- The level sizes N0 to Nh of a channel of C lines. -/
def treeLevels (c : Nat) : List Nat := levelSizes 16 ((27 * c + 2047) / 2048)

/-- MB, TB and the address of node j of level k. -/
def mbOf (c : Nat) : Nat := 27 * c / 32
def tbOf (c : Nat) : Nat := 7 * c / 8
def nodeAddr (c k j : Nat) : Nat := mbOf c + ((treeLevels c).take k).foldl (· + ·) 0 + j

/-- The level and number of the node at an address, from the level sizes. -/
def nodeAt : List Nat → Nat → Nat → Nat × Nat
  | [], k, rel => (k, rel)
  | n :: r, k, rel => if rel < n then (k, rel) else nodeAt r (k + 1) (rel - n)

/-- The highest level h of a channel. -/
def topLevel (c : Nat) : Nat := (treeLevels c).length - 1

/-- The first data line that a node covers. -/
def nodeFirst (k j : Nat) : Nat := j * 8 ^ k * 64

/-! ### The counter cache (R517, R518, R522) -/

/-- Check bits of the 16 words of a line (R496). -/
def wordChecks (v : BitVec 576) : BitVec 64 :=
  (List.range 16).foldl (fun r t => putBits r (4 * t) 4 (checkBits (lineWord v t)).toNat) 0

/-- A statistic of a channel advanced. -/
def Chip.mieStat (s : Chip) (d c n : Nat) : Chip := s.addFld d (F.MIE_CH_STAT_COUNT c n) 1

/-- A line written into the cache as the latest used; an armed flip of KIND 7 changes its word 0 (R499, R517). -/
def Chip.cachePut (s : Chip) (d c addr : Nat) (v : BitVec 576) (dirty poison : Bool) : Chip :=
  let flip := s.flipArmed d 7 c
  let v' := if flip then setLineWord v 0 (lineWord v 0 ^^^ word (s.fld d F.MIE_FLIPMASK_MASK)) else v
  let chk := if flip then wordChecks v ^^^ BitVec.ofNat 64 (s.fld d F.MIE_FLIP_CHK_CHK) else wordChecks v
  let s := if flip then s.flipDone d else s
  let e : CacheLine := { addr := addr, data := v', chk := chk, dirty := dirty, mirror := if dirty then some v else none, poison := poison }
  s.onDdr d c (fun x => { x with cache := e :: x.cache.filter (fun y => y.addr != addr) })

/-- A cached line that fails its check, as its macro's remap table tracks the failing word (R79, R497). -/
def Chip.cacheFail (s : Chip) (d c : Nat) (e : CacheLine) : Chip :=
  let syn (t : Nat) : Nat := bits (wordChecks e.data ^^^ e.chk) (4 * t) 4
  match (List.range 16).find? (fun t => syn t != 0) with
  | some t =>
    if syn t = 15 then s
    else
      let place := Config.cachePlace e.addr t
      let id := (2 * d + c) * 2 ^ 16 + place.1.toNat
      let r := (s.cacheMems.get id).fails place.2.toNat
      let s := { s with cacheMems := s.cacheMems.set id r.1 }
      if r.2 then s.logEv d Ev.ramRemapFull (Config.remapFullDetail (2 ^ 20 + id) place.2.toNat).toNat else s
  | none => s

/-- The cached line at an address after its check: a failed clean entry is discarded, a failed dirty one is rewritten from its mirror;
where that fails too, the part halts (R522, R523). -/
def Chip.cacheGet (s : Chip) (d c addr : Nat) : Chip × Option CacheLine :=
  match (s.ddrChan d c).cache.find? (fun e => e.addr = addr) with
  | none => ((s.mieStat d c 1).countDdr d c 38 1, none)
  | some e =>
    if wordChecks e.data = e.chk then
      ((s.onDdr d c (fun x => { x with cache := e :: x.cache.filter (fun y => y.addr != addr) })).mieStat d c 0, some e)
    else if e.dirty then
      match e.mirror with
      | some v =>
        let s := (s.cacheFail d c e).cachePut d c addr v true e.poison
        (s.mieStat d c 5, (s.ddrChan d c).cache.head?)
      | none => (s.integrityFailure d c addr 4, none)
    else
      let s := (s.cacheFail d c e).onDdr d c (fun x => { x with cache := x.cache.filter (fun y => y.addr != addr) })
      ((s.mieStat d c 2).logEv d Ev.mieNodeRefetch (c + addr * 2), none)

/-- The value of root register j: a copy that fails its check is rewritten from the other; where both fail, the part halts (R522,
R523). -/
def Chip.rootGet (s : Chip) (d c j : Nat) : Chip × Option Nat :=
  let fix (v : Nat) : Chip := (s.onDdr d c (fun x => { x with root := x.root.set j (some v, some v) })).mieStat d c 5
  match ((s.ddrChan d c).root[j]?).getD (some 0, some 0) with
  | (some v, some _) => (s, some v)
  | (some v, none) => (fix v, some v)
  | (none, some v) => (fix v, some v)
  | (none, none) => (s.integrityFailure d c (nodeAddr (s.lineCount d c) (topLevel (s.lineCount d c)) j) 5, none)

/-- Keys for a node: those of the first line it covers (R529). -/
def Chip.nodeKeys (s : Chip) (d c k j : Nat) : MieKeys := s.lineKeys d c (nodeFirst k j)

/-- The payload of counter or tree node j of level k, taken from the cache or fetched and verified from its nearest cached
ancestor or the root; none where the part has halted (R518, R523). `bad` disturbs the first line fetched. -/
def Chip.fetchNode : Nat → Chip → Nat → Nat → Nat → Nat → Nat → Chip × Option Nat
  | 0, s, _, _, _, _, _ => (s, none)
  | fuel + 1, s, d, c, k, j, bad =>
    let n := s.lineCount d c
    let addr := nodeAddr n k j
    match s.cacheGet d c addr with
    | (s, some e) => (s, some (payloadOf e.data))
    | (s, none) =>
      if s.dev = .secureHalt then (s, none) else
      let (s, version) := if topLevel n ≤ k then s.rootGet d c j
        else match Chip.fetchNode fuel s d c (k + 1) (j / 8) 0 with
          | (s, some p) => (s, some (entry64 p (j % 8)))
          | (s, none) => (s, none)
      match version with
      | none => (s, none)
      | some version =>
        let (s, x, v) := s.readStored d c addr bad
        match v with
        | .pass =>
          let p := payloadOf x.data
          if nibblesOf x.data = nodeMac (s.nodeKeys d c k j) addr version p then
            (s.cachePut d c addr x.data false false, some p)
          else (s.integrityFailure d c addr 2, none)
        | _ => (s.integrityFailure d c addr 3, none)

/-- A node's payload with the tree's whole height as fuel. -/
def Chip.node (s : Chip) (d c k j bad : Nat) : Chip × Option Nat := s.fetchNode 20 d c k j bad

/-- A tag line: its payload and whether it could be read. Only its CRC is checked (R518, R519). -/
def Chip.tagLine (s : Chip) (d c line bad : Nat) : Chip × Nat × Bool :=
  let addr := tbOf (s.lineCount d c) + line / 8
  match s.cacheGet d c addr with
  | (s, some e) => (s, payloadOf e.data, !e.poison)
  | (s, none) =>
    if s.dev = .secureHalt then (s, 0, false) else
    let (s, x, v) := s.readStored d c addr bad
    let ok := v = .pass
    let s := s.cachePut d c addr x.data false (!ok)
    let s := if ok then s else (s.mieStat d c 4).logEv d Ev.mieTagPoison (c + addr * 2)
    (s, payloadOf x.data, ok)

/-- The channel becomes read-only (R516). -/
def Chip.majorEnd (s : Chip) (d c : Nat) : Chip :=
  let s := s.setFlag d (F.MIE_CH_STATUS_READ_ONLY c) true
  (s.setFlag d (F.DDR_STATUS_READ_ONLY c) true).logEv d Ev.mieMajorEnd c

/-- A dirty cache line written back: a node's version in its parent, or its root register, is incremented first (R515,
R516). -/
def Chip.writeBack (s : Chip) (d c : Nat) (e : CacheLine) : Chip :=
  let n := s.lineCount d c
  let clean (s : Chip) : Chip := s.onDdr d c (fun x => { x with
    cache := x.cache.map (fun y => if y.addr = e.addr then { y with dirty := false, mirror := none } else y) })
  if tbOf n ≤ e.addr then
    clean (s.writeStored d c e.addr { data := e.data, chk := withCrc 2 e.data 0 e.poison })
  else
    let (k, j) := nodeAt (treeLevels n) 0 (e.addr - mbOf n)
    let store (s : Chip) (version : Nat) : Chip :=
      let p := payloadOf e.data
      let v := packLine p (nodeMac (s.nodeKeys d c k j) e.addr version p)
      clean (s.writeStored d c e.addr { data := v, chk := withCrc 2 v 0 false })
    if topLevel n ≤ k then
      match s.rootGet d c j with
      | (s, none) => s
      | (s, some v) =>
        if v = 2 ^ 64 - 1 then s.majorEnd d c
        else store (s.onDdr d c (fun x => { x with root := x.root.set j (some (v + 1), some (v + 1)) })) (v + 1)
    else
      match s.node d c (k + 1) (j / 8) 0 with
      | (s, none) => s
      | (s, some p) =>
        let v := entry64 p (j % 8)
        if v = 2 ^ 64 - 1 then s.majorEnd d c
        else store (s.cachePut d c (nodeAddr n (k + 1) (j / 8)) (packLine (setEntry64 p (j % 8) (v + 1)) 0) true false) (v + 1)

/-- The cache brought back to 4,096 lines and 512 dirty ones, least recently used first (R517). -/
def Chip.trimCache : Nat → Chip → Nat → Nat → Chip
  | 0, s, _, _ => s
  | fuel + 1, s, d, c =>
    let q := (s.ddrChan d c).cache
    if 512 < (q.filter (·.dirty)).length then
      (match q.reverse.find? (·.dirty) with
      | some e => Chip.trimCache fuel (s.writeBack d c e) d c
      | none => s)
    else if 4096 < q.length then
      (match q.getLast? with
      | some e =>
        let s := if e.dirty then s.writeBack d c e else s
        Chip.trimCache fuel (s.onDdr d c (fun x => { x with cache := x.cache.filter (fun y => y.addr != e.addr) })) d c
      | none => s)
    else s

/-- The cache trimmed after an access. -/
def Chip.cacheTrim (s : Chip) (d c : Nat) : Chip := s.trimCache 64 d c

/-! ### Counters of a line (R509, R513, R529) -/

/-- Whether a REKEY walk stands inside a group, and has yet to pass the line of it. -/
def Chip.inOldGroup (s : Chip) (d c line : Nat) : Bool :=
  s.unwalked d c line && (s.ddrChan d c).rekeyOld.isSome && s.fld d (F.MIE_CH_PTR_PTR c) / 64 == line / 64

/-- The counter line of a data line's group as it stands for that line. -/
def Chip.counters (s : Chip) (d c line bad : Nat) : Chip × Option Nat :=
  if s.inOldGroup d c line then (s, (s.ddrChan d c).rekeyOld) else s.node d c 0 (line / 64) bad

/-- The counter line of a data line's group put back. -/
def Chip.setCounters (s : Chip) (d c line payload : Nat) : Chip :=
  if s.inOldGroup d c line then s.onDdr d c (fun x => { x with rekeyOld := some payload })
  else s.cachePut d c (nodeAddr (s.lineCount d c) 0 (line / 64)) (packLine payload 0) true false

/-! ### Reading a line (R504, R513, R519) -/

/-- A line as read: its plain data, whether it is delivered poisoned, whether it failed every re-read, the outcome of its MAC
where one is checked, and whether the part has halted. -/
structure LineOut where
  data : BitVec 576 := 0
  poison : Bool := false
  failed : Bool := false
  mac : Option Bool := none
  halted : Bool := false

/-- A data line read and decrypted (R519). `bad`, `badTag` and `badNode` disturb reads of the line, its tag, and a node. -/
def Chip.readLine (s : Chip) (d c line bad badTag badNode : Nat) : Chip × LineOut :=
  let k := s.lineKeys d c line
  match s.mieMode d c with
  | 2 =>
    match s.counters d c line badNode with
    | (s, none) => (s, { halted := true })
    | (s, some p) =>
      let minor := minorOf p (line % 64)
      let major := entry64 p 0
      if minor = 0 then (s, {})
      else
        let (s, x, v) := s.readStored d c line bad
        let (s, tag, tagOk) := s.tagLine d c line badTag
        let plain := x.data ^^^ ctrStream k line major minor
        match v with
        | .fail => (s, { data := plain, poison := true, failed := true })
        | .poisoned => (s, { data := plain, poison := true })
        | .pass =>
          if !tagOk then (s, { data := plain, poison := true })
          else (s, { data := plain, mac := some (entry64 tag (line % 8) == macFull k line major minor false x.data) })
  | 1 =>
    let (s, x, v) := s.readStored d c line bad
    let plain := Config.xtsDecrypt k.data k.tweak line x.data
    match v with
    | .fail => (s, { data := plain, poison := true, failed := true })
    | .poisoned => (s, { data := plain, poison := true })
    | .pass => (s, { data := plain, mac := some (bits x.chk 16 48 == mac48 k line false x.data) })
  | _ =>
    let (s, x, v) := s.readStored d c line bad
    (s, { data := x.data, poison := v != .pass, failed := v == .fail })

/-- A line read and verified completely before its data is used; a MAC mismatch halts the part (R521, R523). -/
def Chip.readVerified (s : Chip) (d c line bad badTag badNode : Nat) : Chip × LineOut :=
  let (s, o) := s.readLine d c line bad badTag badNode
  if o.mac = some false then (s.integrityFailure d c line 1, { o with halted := true }) else (s, o)

/-! ### Writing a line (R503, R506, R512, R514) -/

/-- The mask of an armed flip of KIND 9 on a channel's next MAC, and the chip after it (R499). -/
def Chip.macFlip (s : Chip) (d c : Nat) : Chip × Nat :=
  if s.flipArmed d 9 c then (s.flipDone d, s.fld d F.MIE_FLIPMASK_MASK) else (s, 0)

/-- A Full line and its tag written under a major and minor counter (R512, R514). -/
def Chip.putFull (s : Chip) (d c line major minor : Nat) (data : BitVec 576) (poison : Bool) (k : MieKeys) : Chip :=
  let ct := data ^^^ ctrStream k line major minor
  let s := s.writeStored d c line { data := ct, chk := withCrc 2 ct 0 poison }
  let (s, tag, ok) := s.tagLine d c line 0
  let (s, flip) := s.macFlip d c
  let mac := macFull k line major minor poison ct ^^^ flip
  s.cachePut d c (tbOf (s.lineCount d c) + line / 8) (packLine (setEntry64 tag (line % 8) mac) 0) true (!ok)

/-- Whether a line is written again when the group of another is re-encrypted: it is of the group, and a REKEY walk in the
group has not passed between them (R514, R529). -/
def Chip.sameSide (s : Chip) (d c line other : Nat) : Bool := s.inOldGroup d c line == s.inOldGroup d c other

/-- A group re-encryption: the major counter advanced, every other written line of the group read, verified and written again
with minor counter 1; none where the part has halted (R514). -/
def Chip.reencrypt (s : Chip) (d c line payload : Nat) : Chip × Option Nat :=
  let major := entry64 payload 0 + 1
  let others := ((List.range 64).map (fun i => line / 64 * 64 + i)).filter (fun l =>
    l != line && minorOf payload (l % 64) != 0 && s.sameSide d c line l)
  let read := others.foldl (fun (a : Chip × List (Nat × LineOut)) l =>
    let (s, o) := a.1.readVerified d c l 0 0 0
    (s, a.2 ++ [(l, o)])) (s, [])
  let s := (read.1.mieStat d c 3).countDdr d c 39 1
  if read.2.any (fun e => e.2.halted) then (s, none)
  else
    let k := s.lineKeys d c line
    let s := read.2.foldl (fun s (l, o) => s.putFull d c l major 1 o.data o.poison k) s
    let p := read.2.foldl (fun p (l, _) => setMinor p (l % 64) 1) (setEntry64 payload 0 major)
    (s, some p)

/-- A whole data line written in the channel's mode (R503, R504, R506, R514, R516). -/
def Chip.writeLine (s : Chip) (d c line : Nat) (data : BitVec 576) (poison : Bool) (badNode : Nat) : Chip :=
  let k := s.lineKeys d c line
  match s.mieMode d c with
  | 2 =>
    match s.counters d c line badNode with
    | (s, none) => s
    | (s, some p) =>
      let minor := minorOf p (line % 64)
      if minor < 127 then
        let s := s.putFull d c line (entry64 p 0) (minor + 1) data poison k
        s.setCounters d c line (setMinor p (line % 64) (minor + 1))
      else if entry64 p 0 = 2 ^ 64 - 1 then s.majorEnd d c
      else
        match s.reencrypt d c line p with
        | (s, none) => s
        | (s, some p) =>
          let s := s.putFull d c line (entry64 p 0) 1 data poison k
          s.setCounters d c line (setMinor p (line % 64) 1)
  | 1 =>
    let ct := Config.xtsEncrypt k.data k.tweak line data
    let (s, flip) := s.macFlip d c
    let chk : BitVec 64 := BitVec.ofNat 64 ((mac48 k line poison ct ^^^ flip) % 2 ^ 48 * 2 ^ 16)
    s.writeStored d c line { data := ct, chk := withCrc 1 ct chk poison }
  | _ => s.writeStored d c line { data := data, chk := withCrc 0 data 0 poison }

/-- Words merged into a line by their place. -/
def mergeWords (v : BitVec 576) (ws : List (Nat × W36)) : BitVec 576 := ws.foldl (fun v (t, w) => setLineWord v t w) v

/-- A write access carried out: a whole line at once, a part of one by reading, merging and writing; a merge read that fails
writes the line poisoned and is recorded (R477, R481, R487, R521). -/
def Chip.storeWords (s : Chip) (d c line : Nat) (ws : List (Nat × W36)) (poison : Bool) (bad badTag badNode : Nat) : Chip :=
  if (List.range 16).all (fun t => ws.any (fun e => e.1 == t)) then s.writeLine d c line (mergeWords 0 ws) poison badNode
  else
    let (s, o) := s.readVerified d c line bad badTag badNode
    if o.halted then s
    else
      let s := if o.failed then s.ddrRecord d c line Err.mergePoison else s
      s.writeLine d c line (mergeWords o.data ws) (poison || o.poison) 0

/-! ### MAC checks (R519, R523) -/

/-- MAC_CHECK: the oldest check outstanding completes; a mismatch is an integrity failure (R519, R523). -/
def Chip.macCheck (s : Chip) (d c : Nat) : Chip :=
  match (s.ddrChan d c).macs with
  | (line, good) :: r =>
    let s := s.onDdr d c (fun x => { x with macs := r })
    if good then s else s.integrityFailure d c line 1
  | [] => s

/-- MAC_CHECK (R519). -/
def execMacCheck (d : Die) (c : Fin 2) (s : State) : Out := s.onDie d (fun x => x.macCheck d c)

/-! ### Initialisation and REKEY (R528, R529) -/

/-- Initialisation of a channel after bring-up begins, with new keys where the mode has them (R505, R528). -/
def Chip.startInit (s : Chip) (d c : Nat) : Chip :=
  let mode := s.mieMode d c
  let n := s.lineCount d c
  let s := s.setFld d (F.MIE_CH_STATUS_LEVELS c) (if mode = 2 then topLevel n else 0)
  let s := (s.setFlag d (F.MIE_CH_STATUS_INIT_BUSY c) false).setFlag d (F.MIE_CH_STATUS_REKEY_BUSY c) false
  let s := s.onDdr d c (fun x => { x with cache := [], macs := [], rekeyOld := none, oldKeys := none })
  let s := if mode = 0 then s else s.drawKeys d c
  if mode = 0 && !s.flag d (F.MIE_CH_CFG_INIT c) then s
  else
    let s := if mode = 2 then
        s.onDdr d c (fun x => { x with root := List.replicate (((treeLevels n).getLast?).getD 0) (some 0, some 0) })
      else s
    let s := s.setFld d (F.MIE_CH_PTR_PTR c) (if mode = 2 then mbOf n else 0)
    s.setFlag d (F.MIE_CH_STATUS_INIT_BUSY c) true

/-- INIT_WALK_LINE: the next line of the initialisation is written (R528). -/
def Chip.initLine (s : Chip) (d c : Nat) : Chip :=
  if !s.flag d (F.MIE_CH_STATUS_INIT_BUSY c) || s.fld d (F.DDR_STATUS_STATE c) != 3 then s
  else
    let mode := s.mieMode d c
    let n := s.lineCount d c
    let line := s.fld d (F.MIE_CH_PTR_PTR c)
    let s := if mode = 2 then
        let v := packLine 0 (nodeMac (s.lineKeys d c 0) line 0 0)
        s.writeStored d c line { data := v, chk := withCrc 2 v 0 false }
      else s.writeLine d c line 0 false 0
    let s := s.setFld d (F.MIE_CH_PTR_PTR c) (line + 1)
    let last := if mode = 2 then mbOf n + (treeLevels n).foldl (· + ·) 0 else n
    if last ≤ line + 1 then s.setFlag d (F.MIE_CH_STATUS_INIT_BUSY c) false else s

/-- INIT_WALK_LINE (R528). -/
def execInitWalkLine (d : Die) (c : Fin 2) (s : State) : Out := s.onDie d (fun x => x.initLine d c)

/-- A REKEY walk begins: a new seed; lines from the pointer up keep the old keys (R529). -/
def Chip.startRekey (s : Chip) (d c : Nat) : Chip :=
  let s := s.onDdr d c (fun x => { x with oldKeys := x.keys, rekeyOld := none })
  let s := s.drawKeys d c
  (s.setFld d (F.MIE_CH_PTR_PTR c) 0).setFlag d (F.MIE_CH_STATUS_REKEY_BUSY c) true

/-- A REKEY walk enters a group of a Full channel: every node that begins with it is verified under the old keys and is rebuilt
under the new ones, and the group's counters start afresh; false where the part has halted (R529). -/
def Chip.enterGroup (s : Chip) (d c line : Nat) : Chip × Bool :=
  let n := s.lineCount d c
  let g := line / 64
  let levels := (List.range (topLevel n + 1)).filter (fun k => g % 8 ^ k = 0)
  let r := levels.reverse.foldl (fun (a : Chip × Bool) k =>
    if !a.2 then a
    else match a.1.node d c k (g / 8 ^ k) 0 with
      | (s, some p) => (s.cachePut d c (nodeAddr n k (g / 8 ^ k)) (packLine p 0) true false, true)
      | (s, none) => (s, false)) (s, true)
  if !r.2 then r
  else match r.1.node d c 0 g 0 with
    | (s, some p) =>
      let s := s.cachePut d c (nodeAddr n 0 g) 0 true false
      (s.onDdr d c (fun x => { x with rekeyOld := some p }), true)
    | (s, none) => (s, false)

/-- One line of a REKEY walk moved to the new keys; it is read and verified under the old ones (R521, R529). -/
def Chip.rekeyMove (s : Chip) (d c line bad : Nat) : Chip :=
  let mode := s.mieMode d c
  let written : Bool := mode = 1 || (match s.counters d c line 0 with
    | (_, some p) => minorOf p (line % 64) != 0
    | (_, none) => false)
  let next (s : Chip) : Chip := s.setFld d (F.MIE_CH_PTR_PTR c) (line + 1)
  if !written then next s
  else
    let (s, o) := s.readVerified d c line bad 0 0
    if o.halted then s
    else if mode = 1 then (next s).writeLine d c line o.data o.poison 0
    else
      let s := next s
      let s := s.putFull d c line 0 1 o.data o.poison (s.lineKeys d c line)
      match s.node d c 0 (line / 64) 0 with
      | (s, some p) => s.setCounters d c line (setMinor p (line % 64) 1)
      | (s, none) => s

/-- REKEY_WALK_LINE: the next line is re-encrypted under the new keys; the last one ends the walk (R529). -/
def Chip.rekeyLine (s : Chip) (d c bad : Nat) : Chip :=
  if !s.flag d (F.MIE_CH_STATUS_REKEY_BUSY c) || s.fld d (F.DDR_STATUS_STATE c) != 3 then s
  else
    let line := s.fld d (F.MIE_CH_PTR_PTR c)
    let full := s.mieMode d c = 2
    let last := if full then mbOf (s.lineCount d c) else s.lineCount d c
    let (s, ok) := if full && line % 64 = 0 then s.enterGroup d c line else (s, true)
    if !ok then s
    else
      let s := s.rekeyMove d c line bad
      let s := if full && (line + 1) % 64 = 0 then s.onDdr d c (fun x => { x with rekeyOld := none }) else s
      let s := if last ≤ line + 1 then
          let s := s.setFlag d (F.MIE_CH_STATUS_REKEY_BUSY c) false
          let s := s.setFlag d (F.MIE_CH_STATUS_READ_ONLY c) false
          let s := s.setFlag d (F.DDR_STATUS_READ_ONLY c) false
          (s.onDdr d c (fun x => { x with oldKeys := none, rekeyOld := none })).logEv d Ev.mieRekeyDone c
        else s
      s.cacheTrim d c

/-- REKEY_WALK_LINE (R529). -/
def execRekeyWalkLine (d : Die) (c : Fin 2) (badReads : Nat) (s : State) : Out :=
  s.onDie d (fun x => x.rekeyLine d c badReads)

/-! ### Registers (R499 to R501) -/

/-- The number of targets of a KIND, and whether the KIND exists (R499, R500). -/
def flipIndexes (kind : Nat) : Option Nat :=
  match kind with
  | 0 => some 4096
  | 1 => some 2048
  | 2 | 3 | 4 => some 64
  | 5 | 7 | 8 | 9 => some 2
  | 6 => some 4096
  | 10 => some 2304
  | 11 => some 128
  | _ => none

/-- A write of MIE_FLIP_SEL: an arming that breaks R500 is ignored (R499, R500). -/
def Chip.flipSelWrite (s : Chip) (d : Nat) (v : W36) : Chip :=
  let ok : Bool := match flipIndexes (bits v 0 4) with
    | some n => decide (bits v 4 12 < n) && (bits v 0 4 != 9 || s.flag d F.MIE_CTRL_TEST_EN)
    | none => false
  if bit v 20 && !ok then s.setFlag d F.MIE_STATUS_REFUSED true else s.plainWrite d Reg.MIE_FLIP_SEL v

/-- MIE_FLIP_ARM (R499). -/
def execMieFlipArm (d : Die) (v : W36) (s : State) : Out := s.onDie d (fun c => c.flipSelWrite d (v ||| 0x100000))

/-- A write of MIE_CTRL: TEST_EN may be set only in OPEN (R500). -/
def Chip.mieCtrlWrite (s : Chip) (d : Nat) (v : W36) : Chip :=
  if bit v 0 && s.sec.level != 0 then s.setFlag d F.MIE_STATUS_REFUSED true else s.plainWrite d Reg.MIE_CTRL v

/-- TEST_EN_WRITE (R500). -/
def execTestEnWrite (d : Die) (v : W36) (s : State) : Out := s.onDie d (fun c => c.mieCtrlWrite d v)

/-- A write of MIE_CH_c_CFG: MODE changes only while the channel is off, and the contents are discarded (R501). -/
def Chip.mieCfgWrite (s : Chip) (d c : Nat) (v : W36) : Chip :=
  let old := s.reg d (Reg.MIE_CH_CFG c)
  if bits v 0 2 = bits old 0 2 then s.plainWrite d (Reg.MIE_CH_CFG c) v
  else if s.flag d (F.DDR_CFG_EN c) || bits v 0 2 = 3 then s.setFlag d (F.MIE_CH_STATUS_REFUSED c) true
  else (s.plainWrite d (Reg.MIE_CH_CFG c) v).dramLost d c

/-- A write of a register of the MIE_ block. -/
def Chip.mieWrite (s : Chip) (d off : Nat) (v : W36) : Chip :=
  if off = Reg.MIE_CTRL then s.mieCtrlWrite d v
  else if off = Reg.MIE_FLIP_SEL then s.flipSelWrite d v
  else if off = Reg.MIE_CH_CFG 0 then s.mieCfgWrite d 0 v
  else if off = Reg.MIE_CH_CFG 1 then s.mieCfgWrite d 1 v
  else s.plainWrite d off v

end Sys2Proof.Machine
end

