-- ==== Sys2Proof/Machine/Ddr.lean ====
section
/-! DEFINITION. The DDR5 controllers: bring-up, request queues, scheduling, command errors, migration, registers (chapter
15). -/

namespace Sys2Proof.Machine

/-! ### Bring-up (R474, R475, R494, R495) -/

/-- Step 1 of a bring-up: STATE becomes INIT; after POR, SPARE_FREE takes SPARE_EN (R474). -/
def Chip.ddrStart (s : Chip) (d c : Nat) : Chip :=
  let s := s.setFld d (F.DDR_STATUS_STATE c) 1
  let s := if (s.ddrChan d c).spareSet then s
    else s.setFld d (F.DDR_RANK_MAP_SPARE_FREE c) (s.fld d (F.DDR_CFG_SPARE_EN c))
  s.onDdr d c (fun x => { x with step := 1, rank := 0, spareSet := true })

/-- The next installed, unretired rank to train from a number on. -/
def Chip.nextRank (s : Chip) (d c lo : Nat) : Option Nat :=
  (List.range (s.fld d (F.DDR_CFG_RANKS_M1 c) + 1)).find? (fun p =>
    lo ≤ p && !(s.fld d (F.DDR_RANK_MAP_RETIRED c)).testBit p)

/-- Step 5: READY; contents kept over a die reset stay, any other channel is initialised (R474, R495, R528, R531). -/
def Chip.ddrReady (s : Chip) (d c : Nat) : Chip :=
  let kept := (s.ddrChan d c).selfRefreshed
  let s := s.setFld d (F.DDR_STATUS_STATE c) 3
  let s := s.onDdr d c (fun x => { x with step := 5, selfRefreshed := false, rows := [] })
  let s := if kept then s.setFlag d (F.DDR_STATUS_KEPT c) true else s
  if kept && s.mieMode d c != 2 then s else s.startInit d c

/-- Training goes on with the next rank, or the channel is READY. -/
def Chip.trainFrom (s : Chip) (d c lo : Nat) : Chip :=
  match s.nextRank d c lo with
  | some p => s.onDdr d c (fun x => { x with rank := p })
  | none => s.ddrReady d c

/-- DDR_BRINGUP_STEP: the time of the next step of R474 is reached (RESET_n released; clock, mode registers and ZQ; training).
Step 4 ends by the training of the ranks. -/
def Chip.bringupStep (s : Chip) (d c : Nat) : Chip :=
  let x := s.ddrChan d c
  if !s.flag d (F.DDR_CFG_EN c) then s
  else if x.step = 1 || x.step = 2 then s.onDdr d c (fun x => { x with step := x.step + 1 })
  else if x.step = 3 then
    ((s.setFld d (F.DDR_STATUS_STATE c) 2).onDdr d c (fun x => { x with step := 4 })).trainFrom d c 0
  else s

/-- DDR_BRINGUP_STEP (R474). -/
def execDdrBringupStep (d : Die) (c : Fin 2) (s : State) : Out := s.onDie d (fun x => x.bringupStep d c)

/-- RANK_TRAINING_DONE: a failing mapped rank is replaced by a free spare; a failing spare is only given up; any other failure
fails the channel (R475). -/
def Chip.rankTrained (s : Chip) (d c : Nat) (pass : Bool) : Chip :=
  let x := s.ddrChan d c
  if x.step != 4 then s
  else
    let p := x.rank
    if pass then s.trainFrom d c (p + 1)
    else
      let s := s.setFld d (F.DDR_STATUS_TRAIN_FAIL c) (s.fld d (F.DDR_STATUS_TRAIN_FAIL c) ||| 2 ^ p)
      let spare := s.fld d (F.DDR_CFG_SPARE_RANK c)
      match s.logicalOf d c p with
      | some r =>
        if s.flag d (F.DDR_RANK_MAP_SPARE_FREE c) then
          let s := s.setFld d (F.DDR_RANK_MAP_MAP c) (putBits (s.reg d (Reg.DDR_RANK_MAP c)) (2 * r) 2 spare).toNat
          let s := s.setFld d (F.DDR_RANK_MAP_RETIRED c) (s.fld d (F.DDR_RANK_MAP_RETIRED c) ||| 2 ^ p)
          let s := s.setFlag d (F.DDR_RANK_MAP_SPARE_FREE c) false
          (s.logEv d Ev.ddrRankRetired (c + p * 2 + spare * 8)).trainFrom d c (p + 1)
        else
          let s := s.setFld d (F.DDR_STATUS_STATE c) 5
          (s.onDdr d c (fun x => { x with step := 0 })).logEv d Ev.ddrTrainFail (c + p * 2)
      | none =>
        if s.flag d (F.DDR_CFG_SPARE_EN c) && p = spare then
          (s.setFlag d (F.DDR_RANK_MAP_SPARE_FREE c) false).trainFrom d c (p + 1)
        else
          let s := s.setFld d (F.DDR_STATUS_STATE c) 5
          (s.onDdr d c (fun x => { x with step := 0 })).logEv d Ev.ddrTrainFail (c + p * 2)

/-- RANK_TRAINING_DONE (R475). -/
def execRankTrainingDone (d : Die) (c : Fin 2) (pass : Bool) (s : State) : Out := s.onDie d (fun x => x.rankTrained d c pass)

/-- The channel's requests in service are dropped and its state set. -/
def Chip.ddrStop (s : Chip) (d c st : Nat) : Chip :=
  (s.setFld d (F.DDR_STATUS_STATE c) st).onDdr d c (fun x => { x with
    queue := [], draining := 0, rows := [], strict := [], jobs := [], taking := [], macs := [], step := 0, held := 0 })

/-- The channel's domain has come to IDLE or HOLD (self-refresh) or OFF (contents lost) (R494). -/
def Chip.ddrAsleep (s : Chip) (d c st : Nat) : Chip :=
  if !s.flag d (F.DDR_CFG_EN c) then s
  else if st = 3 then (s.ddrStop d c 0).dramLost d c
  else if s.fld d (F.DDR_STATUS_STATE c) = 3 then s.setFld d (F.DDR_STATUS_STATE c) 4 else s

/-- The channel's domain is back in RUN: READY after self-refresh, a new bring-up after OFF (R494). -/
def Chip.ddrAwake (s : Chip) (d c : Nat) : Chip :=
  if s.fld d (F.DDR_STATUS_STATE c) = 4 then s.setFld d (F.DDR_STATUS_STATE c) 3
  else if s.fld d (F.DDR_STATUS_STATE c) = 0 && s.flag d (F.DDR_CFG_EN c) && 3 ≤ s.dieStage d then s.ddrStart d c
  else s

/-- A die reset begins: every rank in self-refresh; a migration does not resume; Full contents are lost with their keys,
registers and cache (R493, R495, R531). -/
def Chip.ddrResetStart (s : Chip) (d c : Nat) : Chip :=
  let was := s.fld d (F.DDR_STATUS_STATE c) == 3 || s.fld d (F.DDR_STATUS_STATE c) == 4
  let s := s.ddrStop d c (if was then 4 else 0)
  s.onDdr d c (fun x => { x with
    selfRefreshed := was, errq := [], noSpare := 0, root := [], cache := [], oldKeys := none, rekeyOld := none
    keys := if s.mieMode d c = 2 then none else x.keys })

/-- A die has returned from reset: self-refresh is left in place of steps 1 to 3 (R495); a Full channel's contents are lost,
recorded and logged (R531). -/
def Chip.ddrResetReturn (s : Chip) (d c : Nat) : Chip :=
  if !s.flag d (F.DDR_CFG_EN c) then s
  else if (s.ddrChan d c).selfRefreshed then
    let s := if s.mieMode d c = 2 then
        (s.setFlag d (F.MIE_CH_STATUS_LOST c) true).logEv d Ev.mieChannelLost c
      else s
    ((s.setFld d (F.DDR_STATUS_STATE c) 2).onDdr d c (fun x => { x with step := 4 })).trainFrom d c 0
  else s.ddrStart d c

/-! ### Taking requests (R472, R476, R477, R481, R482) -/

/-- The lines that count words from an offset touch. -/
def linesOf (off count : Nat) : List Nat := (List.range ((off + count - 1) / 16 + 1 - off / 16)).map (fun i => off / 16 + i)

/-- Queued accesses of one kind in a sub-channel. -/
def DdrChan.count (x : DdrChan) (sub : Nat) (write : Bool) : Nat :=
  (x.queue.filter (fun a => a.line % 2 = sub && a.write = write)).length

/-- The lines of write requests whose flits are being taken: their room is theirs (R476). -/
def DdrChan.promised (x : DdrChan) : List Nat := x.taking.flatMap (fun j => linesOf j.flit.w2.toNat (bits j.flit.w3 0 6 + 1))

/-- Whether the queues of both sub-channels have room for accesses to these lines (R476). -/
def DdrChan.room (x : DdrChan) (write : Bool) (lines : List Nat) : Bool :=
  let all := if write then lines ++ x.promised else lines
  (List.range 2).all (fun sub => x.count sub write + (all.filter (fun l => l % 2 = sub)).length ≤ 64)

/-- Accesses put at the end of the queues; a read that meets pending writes of its bank and row puts the bank in strict order
up to its arrival (R479); a write queue of 48 entries begins to drain (R478). -/
def Chip.enqueue (s : Chip) (d c : Nat) (a : LineAccess) : Chip :=
  let x := s.ddrChan d c
  let a := { a with order := x.order, since := s.now }
  let p := s.place d c a.line
  let bank (l : Nat) : Nat := let q := s.place d c l; (q.rank * 256 + q.bank) * 2 + l % 2
  let meets := !a.write && x.queue.any (fun b => b.write && bank b.line = bank a.line && (s.place d c b.line).row = p.row)
  let s := s.countDdr d c (if a.write then 29 else 28) 1
  s.onDdr d c (fun x =>
    let x := { x with queue := x.queue ++ [a], order := x.order + 1 }
    let x := if meets then { x with strict := x.strict.set (bank a.line) (a.order + 1) } else x
    if a.write && 48 ≤ x.count (a.line % 2) true then
      { x with draining := x.draining ||| BitVec.ofNat 2 (2 ^ (a.line % 2)) } else x)

/-- A request beyond the usable capacity: UNREACHABLE, RANGE_SEEN, and DDR_RANGE at most once per millisecond (R472). -/
def Chip.ddrRange (s : Chip) (d c line : Nat) (f : Flit) : Chip :=
  let s := match s.refuseUnreachable (ddrHome d c) 4 f with
    | (s, .answered a) => s.sendFlit (ddrHome d c) 3 a
    | (s, _) => s
  let s := s.setFlag d (F.DDR_STATUS_RANGE_SEEN c) true
  let due : Bool := match (s.ddrChan d c).lastRange with
    | some t => decide (1000000 ≤ s.now - t)
    | none => true
  if due then (s.onDdr d c (fun x => { x with lastRange := some s.now })).logEv d Ev.ddrRange (c + line * 2) else s

/-- The first of these lines at or beyond the usable capacity. -/
def Chip.beyond (s : Chip) (d c : Nat) (lines : List Nat) : Option Nat := lines.find? (fun l => s.usableLines d c ≤ l)

/-- A read request split into one access for each line (R476). -/
def Chip.startRead (s : Chip) (d c : Nat) (f : Flit) : Chip :=
  let off := f.w2.toNat
  let lines := linesOf off (bits f.w3 0 6 + 1)
  match s.beyond d c lines with
  | some l => s.ddrRange d c l f
  | none =>
    let id := (s.ddrChan d c).order
    let s := s.onDdr d c (fun x => { x with jobs := x.jobs ++ [{ id := id, flit := f, left := lines.length }] })
    s.each lines (fun s l => s.enqueue d c { line := l, req := id })

/-- DDR_READ_REQ: the request at the port is taken once both queues have room for it (R476). -/
def Chip.ddrReadReq (s : Chip) (d c : Nat) : Chip :=
  match (s.port (ddrHome d c) 3).delivered with
  | f :: _ =>
    if f.typ = Typ.readReq && (s.ddrChan d c).room false (linesOf f.w2.toNat (bits f.w3 0 6 + 1)) then
      (s.takeDelivered (ddrHome d c) 3 Typ.readReq).1.startRead d c f
    else s
  | [] => s

/-- DDR_READ_REQ (R476). -/
def execDdrReadReq (d : Die) (c : Fin 2) (s : State) : Out := s.onDie d (fun x => x.ddrReadReq d c)

/-- A WRITE_ACK for a DRAM write, and its status in the stream table (R215, R217, R482). -/
def Chip.ackWrite (s : Chip) (d c : Nat) (f : Flit) (status : Nat) : Chip :=
  let router := ddrHome d c
  let key := streamKey f
  let s := s.onPort router 3 (fun q => { q with table := q.table.map (fun e =>
    if e.key = key then { e with recent := e.recent.map (fun p =>
      if p.first = f.seq then { p with confirmed := true, status := status } else p) } else e) })
  s.ackTo router 3 f f.seq status

/-- A whole write request accepted, refused as read-only, or beyond the capacity (R472, R477, R481, R482). -/
def Chip.startWrite (s : Chip) (d c : Nat) (f : Flit) (ws : List (W36 × Bool)) : Chip :=
  let off := f.w2.toNat
  let lines := linesOf off ws.length
  match s.beyond d c lines with
  | some l => s.ddrRange d c l f
  | none =>
    if s.flag d (F.DDR_STATUS_READ_ONLY c) then s.ackWrite d c f 7
    else
      let items := ws.zipIdx.map (fun ((w, p), i) => (off + i, w, p))
      let s := s.each lines (fun s l =>
        let mine := items.filter (fun e => e.1 / 16 = l)
        s.enqueue d c { line := l, write := true, words := mine.map (fun e => (e.1 % 16, e.2.1)), poison := mine.any (fun e => e.2.2) })
      s.ackWrite d c f 0

/-- The flits of write requests at the port taken while they lead it, up to the end of one request (R476, R194). -/
def Chip.takeWrites : Nat → Chip → Nat → Nat → Chip
  | 0, s, _, _ => s
  | fuel + 1, s, d, c =>
    match (s.port (ddrHome d c) 3).delivered with
    | [] => s
    | f :: _ =>
      if f.typ != Typ.writeReq then s
      else
        let x := s.ddrChan d c
        let key := streamKey f
        let taken (s : Chip) : Chip := (s.takeDelivered (ddrHome d c) 3 Typ.writeReq).1
        let pw (l : List W36) : List (W36 × Bool) := l.map (fun w => (w, f.poison))
        match x.taking.find? (fun j => j.key = key) with
        | some j =>
          let ws := j.words ++ pw ([f.w2, f.w3, f.w4, f.w5].take j.left)
          let rest := x.taking.filter (fun y => y.key != key)
          if j.left ≤ 4 then ((taken s).onDdr d c (fun x => { x with taking := rest })).startWrite d c j.flit ws
          else Chip.takeWrites fuel ((taken s).onDdr d c (fun x => { x with
            taking := rest ++ [{ j with left := j.left - 4, words := ws }] })) d c
        | none =>
          let count := bits f.w3 0 6 + 1
          if !x.room true (linesOf f.w2.toNat count) then s
          else if count ≤ 2 then (taken s).startWrite d c f (pw ([f.w4, f.w5].take count))
          else Chip.takeWrites fuel ((taken s).onDdr d c (fun x => { x with
            taking := x.taking ++ [{ key := key, flit := f, left := count - 2, words := pw [f.w4, f.w5] }] })) d c

/-- DDR_WRITE_REQ (R476, R477). -/
def execDdrWriteReq (d : Die) (c : Fin 2) (s : State) : Out := s.onDie d (fun x => x.takeWrites 17 d c)

/-! ### Scheduling (R478 to R480, R485, R488) -/

/-- The bank of a line, with its rank and sub-channel. -/
def Chip.bankKey (s : Chip) (d c line : Nat) : Nat := let q := s.place d c line; (q.rank * 256 + q.bank) * 2 + line % 2

/-- Whether a bank is served in strict arrival order: a write pending at some read's arrival is still queued (R479). -/
def Chip.strictBank (s : Chip) (d c bank : Nat) : Bool :=
  let x := s.ddrChan d c
  let limit := x.strict.get bank
  x.queue.any (fun a => a.write && s.bankKey d c a.line = bank && a.order < limit)

/-- The accesses that may issue next in a sub-channel (R478 to R480, R488). -/
def Chip.candidates (s : Chip) (d c sub : Nat) : List LineAccess :=
  let x := s.ddrChan d c
  let here := x.queue.filter (fun a => a.line % 2 = sub)
  let heldBank (b : Nat) : Bool := here.any (fun a =>
    a.write && s.bankKey d c a.line = b && x.held.getLsbD (s.physRank d c (s.place d c a.line).rank))
  let free (a : LineAccess) : Bool :=
    let bank := s.bankKey d c a.line
    !here.any (fun b => b.order < a.order && (b.line = a.line || (s.bankKey d c b.line = bank && s.strictBank d c bank))) &&
      !heldBank bank
  let reads := here.filter (fun a => !a.write && free a)
  let needed (a : LineAccess) : Bool :=
    s.strictBank d c (s.bankKey d c a.line) || here.any (fun b => !b.write && a.order < b.order && b.line = a.line)
  let writes := here.filter (fun a => a.write && free a && (x.draining.getLsbD sub || reads.isEmpty || needed a))
  sortBy (fun a b => a.order ≤ b.order) (reads ++ writes)

/-- The access to issue next: one that has waited 256 controller cycles, else one to an open row, else the oldest (R478). -/
def Chip.chooseAccess (s : Chip) (d c sub : Nat) : Option LineAccess :=
  let cs := s.candidates d c sub
  let mhz := 50 * (s.fld d (F.DDR_CFG_RATE c) + 1)
  let openRow (a : LineAccess) : Bool :=
    (s.ddrChan d c).rows.get (s.bankKey d c a.line) = (s.place d c a.line).row + 1
  match cs.find? (fun a => 256000 ≤ (s.now - a.since) * mhz) with
  | some a => some a
  | none => match cs.find? openRow with
    | some a => some a
    | none => cs.head?

/-- An access leaves the queues; a write queue of 16 entries ends its drain (R478). -/
def Chip.dequeue (s : Chip) (d c : Nat) (a : LineAccess) : Chip :=
  s.onDdr d c (fun x =>
    let x := { x with queue := x.queue.filter (fun b => b.order != a.order) }
    let sub := a.line % 2
    if x.count sub true ≤ 16 then { x with draining := x.draining &&& ~~~(BitVec.ofNat 2 (2 ^ sub)) } else x)

/-- The words of a line delivered to its read request, which is answered once its last line has come (R481, R483). -/
def Chip.deliverLine (s : Chip) (d c : Nat) (a : LineAccess) (data : BitVec 576) (poison : Bool) : Chip :=
  let s := if poison then s.countDdr d c 34 1 else s
  match (s.ddrChan d c).jobs.find? (fun j => j.id = a.req) with
  | none => s
  | some j =>
    let ws := j.words ++ (List.range 16).map (fun t => (16 * a.line + t, lineWord data t, poison))
    let others := (s.ddrChan d c).jobs.filter (fun y => y.id != j.id)
    if j.left ≤ 1 then
      let s := s.onDdr d c (fun x => { x with jobs := others })
      let off := j.flit.w2.toNat
      let out := (List.range (bits j.flit.w3 0 6 + 1)).map (fun i =>
        match ws.find? (fun e => e.1 = off + i) with
        | some (_, w, p) => (w, p)
        | none => (0, false))
      s.respond (ddrHome d c) 3 j.flit (bits j.flit.w3 6 12) out
    else s.onDdr d c (fun x => { x with jobs := others ++ [{ j with left := j.left - 1, words := ws }] })

/-- DDR_ACCESS_ISSUE: the access chosen is issued and its result handled (R478, R486, R487, R496, R519). -/
def Chip.issueAccess (s : Chip) (d c sub bad badTag badNode : Nat) : Chip :=
  if s.fld d (F.DDR_STATUS_STATE c) != 3 then s
  else match s.chooseAccess d c sub with
  | none => s
  | some a =>
    let bank := s.bankKey d c a.line
    let row := (s.place d c a.line).row + 1
    let was := (s.ddrChan d c).rows.get bank
    let s := s.countDdr d c (if was = row then 30 else if was = 0 then 31 else 32) 1
    let s := (s.dequeue d c a).onDdr d c (fun x => { x with rows := x.rows.set bank row })
    let s := if a.write then s.storeWords d c a.line a.words a.poison bad badTag badNode
      else
        let (s, o) := s.readLine d c a.line bad badTag badNode
        if o.halted then s
        else
          let s := match o.mac with
            | some good => s.onDdr d c (fun x => { x with macs := x.macs ++ [(a.line, good)] })
            | none => s
          s.deliverLine d c a o.data (o.poison || a.poison)
    s.cacheTrim d c

/-- DDR_ACCESS_ISSUE (R478). -/
def execDdrAccessIssue (d : Die) (c : Fin 2) (sub : Fin 2) (badReads badTag badNode : Nat) (s : State) : Out :=
  s.onDie d (fun x => x.issueAccess d c sub badReads badTag badNode)

/-- REFRESH_TIMER: a rank in service is refreshed (R484, R492). -/
def execRefreshTimer (d : Die) (c : Fin 2) (rank : Fin 4) (s : State) : Out :=
  s.onDie d (fun x => x.when (x.fld d (F.DDR_STATUS_STATE c) == 3 && !(x.fld d (F.DDR_RANK_MAP_RETIRED c)).testBit rank)
    (fun x => x.countDdr d c 36 1))

/-- RETRAIN_TIMER: DQS timing is retrained one rank at a time; the rows it closes are all that stays of it (R485). -/
def execRetrainTimer (d : Die) (c : Fin 2) (s : State) : Out :=
  s.onDie d (fun x => x.when (x.fld d (F.DDR_STATUS_STATE c) == 3) (fun x => x.onDdr d c (fun y => { y with rows := [] })))

/-- A persistent command error on a physical rank: recorded and logged; its queued reads are delivered with POISON; its writes
wait for the rank's retirement, or are lost where none can start (R488, R490). -/
def Chip.caFail (s : Chip) (d c sub phys line : Nat) : Chip :=
  let s := (s.ddrRecord d c line Err.caPersistent).logEv d Ev.ddrCaFail (c + phys * 2)
  let mine (a : LineAccess) : Bool := a.line % 2 = sub && s.physRank d c (s.place d c a.line).rank = phys
  let queue := (s.ddrChan d c).queue
  let s := s.each (queue.filter (fun a => mine a && !a.write)) (fun s a =>
    let t := (s.dequeue d c a).deliverLine d c a (Config.lostLine s.free) true
    { t with free := t.free + 1 })
  let (s, started) := match s.logicalOf d c phys with
    | some r =>
      if s.flag d (F.DDR_STATUS_MIGRATING c) && s.fld d (F.DDR_MIG_FROM c) = phys then (s, true)
      else if s.flag d (F.DDR_RAS_CFG_RETIRE_AUTO c) then s.retireRank d c r
      else (s, false)
    | none => (s, false)
  if started then s.onDdr d c (fun x => { x with held := x.held ||| BitVec.ofNat 4 (2 ^ phys) })
  else s.each (queue.filter (fun a => mine a && a.write)) (fun s a => (s.dequeue d c a).ddrRecord d c a.line Err.writeLost)

/-- CA_PARITY_ALERT: `alerts` alerts in a row meet the access to be issued next; past CA_RETRY reissues the error is persistent
(R488). -/
def Chip.caAlert (s : Chip) (d c sub alerts : Nat) : Chip :=
  match s.chooseAccess d c sub with
  | none => s
  | some a =>
    let phys := s.physRank d c (s.place d c a.line).rank
    let retry := s.fld d (F.DDR_RAS_CFG_CA_RETRY c)
    let n := min alerts (retry + 1)
    let s := s.satFld d (F.DDR_RANK_ERR_CA c phys) n
    let s := s.countDdr d c 35 (min alerts retry)
    if retry < alerts then s.caFail d c sub phys a.line else s

/-- CA_PARITY_ALERT (R488). -/
def execCaParityAlert (d : Die) (c : Fin 2) (sub : Fin 2) (alerts : Nat) (s : State) : Out :=
  s.onDie d (fun x => x.caAlert d c sub alerts)

/-! ### Migration (R491, R492, R530) -/

/-- The line of a rank-local index of a logical rank (R491). -/
def Chip.lineOfIndex (s : Chip) (d c rank index : Nat) : Nat :=
  let below := s.colBits d c + s.bgBits d c + s.baBits d c
  if s.fld d (F.DDR_CFG_ORDER c) = 2 then index + rank * 2 ^ (1 + below + s.rowBits d c)
  else
    let rb := rankBits (s.lranks d c)
    index % 2 ^ (1 + below) + rank * 2 ^ (1 + below) + index / 2 ^ (1 + below) * 2 ^ (1 + below + rb)

/-- The retired rank's place goes to the spare (R492). -/
def Chip.migrationDone (s : Chip) (d c : Nat) : Chip :=
  let from' := s.fld d (F.DDR_MIG_FROM c)
  let spare := s.fld d (F.DDR_CFG_SPARE_RANK c)
  let r := (s.ddrChan d c).migRank
  let s := s.setFld d (F.DDR_RANK_MAP_MAP c) (putBits (s.reg d (Reg.DDR_RANK_MAP c)) (2 * r) 2 spare).toNat
  let s := s.setFld d (F.DDR_RANK_MAP_RETIRED c) (s.fld d (F.DDR_RANK_MAP_RETIRED c) ||| 2 ^ from')
  let s := s.setFlag d (F.DDR_RANK_MAP_SPARE_FREE c) false
  let s := s.setFlag d (F.DDR_STATUS_MIGRATING c) false
  let s := s.setFlag d (F.DDR_MIG_DONE c) true
  let s := s.onDdr d c (fun x => { x with held := 0 })
  s.logEv d Ev.ddrRankRetired (c + from' * 2 + spare * 8)

/-- MIGRATION_COPY: the next line downward is copied as stored; one that fails every re-read is written poisoned (R491,
R530). -/
def Chip.migrateLine (s : Chip) (d c bad : Nat) : Chip :=
  if !s.flag d (F.DDR_STATUS_MIGRATING c) || s.fld d (F.DDR_STATUS_STATE c) != 3 then s
  else
    let i := s.fld d (F.DDR_MIG_CP c) - 1
    let rank := (s.ddrChan d c).migRank
    let line := s.lineOfIndex d c rank i
    let (s, x, v) := s.readRank d c (s.fld d (F.DDR_MIG_FROM c)) i line bad
    let (s, x) := if v = .fail then
        (s.ddrRecord d c line Err.migPoison, { x with chk := withCrc (s.mieMode d c) x.data x.chk true })
      else (s, x)
    let s := (s.putLine d c (s.fld d (F.DDR_CFG_SPARE_RANK c)) i x).countDdr d c 37 1
    let s := s.setFld d (F.DDR_MIG_CP c) i
    if i = 0 then s.migrationDone d c else s

/-- MIGRATION_COPY (R491). -/
def execMigrationCopy (d : Die) (c : Fin 2) (badReads : Nat) (s : State) : Out :=
  s.onDie d (fun x => x.migrateLine d c badReads)

/-! ### Registers -/

/-- Whether a channel's registers hold a valid configuration (R473). -/
def ddrValid (cfg geom map : W36) : Bool :=
  let lr := bits cfg 11 2 + 1
  let spare := bits cfg 15 1
  let rate := bits cfg 1 4
  let order := bits cfg 13 2
  let lines := lr * 2 ^ (1 + bits geom 0 5 + bits geom 5 3 + bits geom 8 2 + bits geom 10 2)
  (order == 2 || lr != 3) && lr + spare ≤ bits cfg 9 2 + 1 && lines ≤ 2 ^ 32 &&
    (spare == 0 || (List.range lr).all (fun l => bits map (2 * l) 2 != bits cfg 16 2)) &&
    7 ≤ rate && (bits cfg 5 1 == 0 || rate ≤ 13) && bits cfg 6 2 != 3 &&
    16 ≤ bits geom 0 5 && bits geom 0 5 ≤ 18 && 6 ≤ bits geom 5 3 && 2 ≤ bits geom 8 2 && 1 ≤ bits geom 10 2 && bits geom 10 2 ≤ 2

/-- A refused write of a channel. -/
def Chip.ddrRefused (s : Chip) (d c : Nat) : Chip := s.setFlag d (F.DDR_STATUS_REFUSED c) true

/-- A write of DDR_CFG: fields other than EN and REINIT change only while EN = 0 or with EN written 0 (R473, R474). -/
def Chip.ddrCfgWrite (s : Chip) (d c : Nat) (v : W36) : Chip :=
  let old := s.reg d (Reg.DDR_CFG c)
  let changes := bits v 1 18 != bits old 1 18
  let ok := ddrValid v (s.reg d (Reg.DDR_GEOM c)) (s.reg d (Reg.DDR_RANK_MAP c))
  if changes && ((bit old 0 && bit v 0) || !ok) then s.ddrRefused d c
  else
    let s := s.plainWrite d (Reg.DDR_CFG c) v
    let s := if bit v 19 && s.fld d (F.DDR_STATUS_STATE c) = 5 then s.ddrStart d c else s
    if bit v 0 && !bit old 0 && 3 ≤ s.dieStage d then s.ddrStart d c
    else if !bit v 0 && bit old 0 then (s.ddrStop d c 0).dramLost d c
    else s

/-- REINIT (R474). -/
def execReinit (d : Die) (c : Fin 2) (v : W36) (s : State) : Out := s.onDie d (fun x => x.ddrCfgWrite d c (v ||| 0x80000))

/-- A write of DDR_MIG_CTRL: START retires the logical rank named (R490). -/
def Chip.migCtrlWrite (s : Chip) (d c : Nat) (v : W36) : Chip :=
  s.when (bit v 2 && bits v 0 2 < s.lranks d c) (fun s => (s.retireRank d c (bits v 0 2)).1)

/-- DDR_MIG_START (R490). -/
def execDdrMigStart (d : Die) (c : Fin 2) (v : W36) (s : State) : Out := s.onDie d (fun x => x.migCtrlWrite d c (v ||| 4))

/-- A read of DDR_ERRQ: the oldest record, taken where the read is active (R15, R489). -/
def Chip.errqRead (s : Chip) (d c : Nat) (active : Bool) : Chip × W36 :=
  match (s.ddrChan d c).errq with
  | (line, kind) :: r =>
    (if active then s.onDdr d c (fun x => { x with errq := r }) else s, word (line % 2 ^ 32 + kind * 2 ^ 32))
  | [] => (s, 0x800000000)

/-- DDR_ERRQ (R489). -/
def execDdrErrq (d : Die) (c : Fin 2) (s : State) : Out := s.onDie d (fun x => returning (x.errqRead d c true))

/-- The channel of a register of the DDR_ block, and its offset from the channel's first. -/
def ddrReg (off : Nat) : Nat × Nat := ((off - Reg.DDR_CFG 0) / 0x10000, (off - Reg.DDR_CFG 0) % 0x10000)

/-- The values a read of a DDR_ register finds beside the stored fields. -/
def Chip.ddrRead (s : Chip) (d off : Nat) (active : Bool) : Chip × W36 :=
  let (c, i) := ddrReg off
  if i = 8 then s.errqRead d c active
  else if i = 9 then (s, putBits (s.reg d off) 0 7 (s.ddrChan d c).errq.length)
  else (s, s.reg d off)

/-- A write of a register of the DDR_ block. -/
def Chip.ddrWrite (s : Chip) (d off : Nat) (v : W36) : Chip :=
  let (c, i) := ddrReg off
  let on := s.flag d (F.DDR_CFG_EN c)
  let changes := v != s.reg d off
  if i = 0 then s.ddrCfgWrite d c v
  else if i = 1 then
    (if changes && (on || !ddrValid (s.reg d (Reg.DDR_CFG c)) v (s.reg d (Reg.DDR_RANK_MAP c))) then s.ddrRefused d c
    else s.plainWrite d off v)
  else if i = 2 then (if changes && on then s.ddrRefused d c else s.plainWrite d off v)
  else if i = 4 then
    (if on || !ddrValid (s.reg d (Reg.DDR_CFG c)) (s.reg d (Reg.DDR_GEOM c)) v then s.ddrRefused d c
    else s.plainWrite d off v)
  else if i = 7 then s.migCtrlWrite d c v
  else s.plainWrite d off v

end Sys2Proof.Machine
end

