-- ==== Sys2Proof/Machine/OboeExec.lean ====
section
/-! DEFINITION. The Oboe instructions: issue of the word at the program counter, its effect, placement faults, loops,
repetition, delay slots and LOCK sequences (R254 to R262, R268, R272 to R275, R278 to R303). -/

namespace Sys2Proof.Machine

/-! ### What follows an instruction (R257, R261, R262, R268) -/

/-- Where an instruction sends the core: on to the next address, a branch with two delay slots, a direct change of the
address at once, or the same instruction again (an EMIT or WAITTASK that has to wait). -/
inductive Onward where
  | next
  | branch (target : Option Nat)
  | jump (pc : Nat)
  | hold
deriving DecidableEq, Repr

/-- The loop tests after the end instruction at pc, innermost first: the entries left, LC, and the start to go back to (R262,
R295). -/
def loopTest (pc : Nat) : List LoopRec → Nat → List LoopRec × Nat × Option Nat
  | [], lc => ([], lc, none)
  | l :: ls, lc =>
    if l.fin = pc then
      let lc' := (lc + 65535) % 65536
      if lc' = 0 then loopTest pc ls l.prev else (l :: ls, lc', some l.start)
    else (l :: ls, lc, none)

/-- The address after an instruction that is neither repeated again nor followed by delay slots. -/
def Core.afterLoop (c : Core) (pc t : Nat) : Core :=
  match c.loops with
  | l :: _ =>
    if l.fin = pc then
      let (ls, lc, back) := loopTest pc c.loops (c.loopCount t)
      { c.writeLoop t lc with loops := ls, pc := back.getD ((pc + 1) % 8192) }
    else { c with pc := (pc + 1) % 8192 }
  | [] => { c with pc := (pc + 1) % 8192 }

/-- The core moved past the instruction at pc that entered AG at oc t: repetition, delay slots, loop tests (R257, R261,
R262). -/
def Core.moveOn (c : Core) (pc t : Nat) (o : Onward) : Core :=
  match o with
  | .branch target => { c with slots := 2, target := target, pc := (pc + 1) % 8192 }
  | .jump dest => { c with pc := dest % 8192 }
  | .hold => c
  | .next =>
    if 1 < c.rep then { c with rep := c.rep - 1 }
    else if c.rep = 1 then ({ c with rep := 0 } : Core).afterLoop pc t
    else if c.slots = 1 then { c with slots := 0, target := none, pc := c.target.getD ((pc + 1) % 8192) % 8192 }
    else if 1 < c.slots then { c with slots := c.slots - 1, pc := (pc + 1) % 8192 }
    else c.afterLoop pc t

/-- One instruction of a LOCK sequence done: SR.LK falls once the n-th has passed WB (R268). -/
def Core.lockStep (c : Core) (t : Nat) : Core :=
  if c.lock = 0 then c
  else if c.lock = 1 then { c.write (t + 3) Rc.sr Sr.lk 1 0 with lock := 0 }
  else { c with lock := c.lock - 1 }

/-- An instruction completes: the core moves on and the oc go by; events 0, 1, 10, 11, 17, 18, 27 and 39 are counted, 27
while a flit waits at the port that LOCK stalls (R268, R636). -/
def Chip.retire (s : Chip) (d n pc t cost : Nat) (o : Onward) : Chip :=
  let c := s.core d n
  let back := c.loops.any (fun l => l.fin == pc) && c.rep ≤ 1 && c.slots = 0 && o = .next
  let s := s.coreOcs d n 0 cost
  let s := s.when (o != .hold) (fun s => s.countCore d n 1 1)
  let s := s.when (c.rep != 0 && o = .next) (fun s => s.countCore d n 10 1)
  let s := s.when (c.lock != 0) (fun s => s.countCore d n 17 cost)
  let s := s.when (c.heldOff && (s.wantedInt d n (c.readAt Rc.sr t / 2 ^ 5 % 16)).isSome) (fun s => s.countCore d n 18 cost)
  let s := s.when (c.lock != 0 && !(s.port (coreRouter d n) 2).delivered.isEmpty) (fun s => s.countCore d n 27 cost)
  let s := s.when (1 < cost) (fun s => s.countCore d n 39 (cost - 1))
  let s := s.onCore d n (fun c => { (c.moveOn pc t o).lockStep t with cycle := t + cost })
  s.when (back && (s.core d n).pc != (pc + 1) % 8192) (fun s => s.countCore d n 11 1)

/-! ### Operands with their V (R259, R281) -/

/-- V set at the end of oc land where b holds. -/
def Core.raiseV (c : Core) (land : Nat) (b : Bool) : Core := if b then c.write land Rc.sr Sr.v 1 1 else c

/-- Setting of V counted (event 23). -/
def Chip.countV (s : Chip) (d n : Nat) (b : Bool) : Chip := s.when b (fun s => s.countCore d n 23 1)

/-- A store of a sample by the core: memory in WB, BEX lowered, V where a stored accumulator uses its guard bits (R259). -/
def Chip.coreStore (s : Chip) (d n t m a v : Nat) (ovf : Bool) : Chip :=
  let c := s.core d n
  let v := v % 2 ^ 24
  let s := s.countCore d n (if m = 1 then 6 else 7) 1
  let s := s.when (decide (headroom v < c.readAt Rc.bex (t + 4))) (fun s => s.countCore d n 40 1)
  let s := s.countV d n ovf
  s.onCore d n (fun c =>
    let c := c.raiseV (t + 3) ovf
    { c with
      stores := c.stores ++ [{ land := t + 3, mem := m, addr := a % 8192, value := v }]
      pend := c.pend ++ [{ land := t + 3, code := Rc.bex, op := .minBex (headroom v) }] })

/-- What an instruction does: faults, traps on a failing sample, or an effect with its cost and where it leads. -/
inductive Issue where
  | fault (stack : Bool)
  | trap (mem addr : Nat) (syndrome : BitVec 4)
  | run (effect : Chip → Chip) (cost : Nat) (onward : Onward)

/-- A plain one-oc instruction. -/
def Issue.plain (effect : Chip → Chip) : Issue := .run effect 1 .next

/-! ### Class M (R282 to R287) -/

/-- The source register of a parallel store (R286). -/
def storeCode (r : Nat) : Nat := if r < 6 then r else if r = 6 then 8 else 11

/-- The sample a move loads, with its syndrome; nothing for other moves. -/
def Chip.moveSample (s : Chip) (d n t m : Nat) : PMove → Option (Nat × Nat × BitVec 4)
  | .load p _ _ =>
    let a := (s.core d n).readAt (Rc.ap p) t
    let (v, syn) := s.coreSample d n m a (t + 1)
    some (a, v, syn)
  | _ => none

/-- A parallel move's effect (R286, R287): memory m is 1 X or 2 Y; c is the core before the instruction. -/
def Chip.doMove (s : Chip) (c : Core) (d n t pc m : Nat) (mv : PMove) (sample : Option (Nat × Nat × BitVec 4)) : Chip :=
  match mv with
  | .none => s
  | .load p md r =>
    let v := match sample with
      | some (_, v, _) => v
      | none => 0
    (s.onCore d n (fun x => (x.write (t + 1) r.val 0 24 v).postModify p t (c.modifier p t md))).countCore d n
      (if m = 1 then 4 else 5) 1
  | .store p md r =>
    let a := c.readAt (Rc.ap p) t
    let (v, ovf) := c.readReg (storeCode r) (t + 1) pc
    (s.coreStore d n t m a v ovf).onCore d n (fun x => x.postModify p t (c.modifier p t md))

/-- The partner of a register (R283). -/
def partner (r : Nat) : Nat := if r % 2 = 0 then r + 1 else r - 1

/-- The arithmetic of a class-M instruction: accumulators and flags in WB, MXV, MXI and IXC at the end of EX (R255, R284). -/
def Chip.doAlu (s : Chip) (c : Core) (d n t : Nat) (op : AluOp) (s1 s2 dd ng : Nat) : Chip :=
  let x1 := c.readAt s1 (t + 1)
  match op with
  | .move => s
  | .maxi | .mini =>
    let (v, i, k, better) := extremum (op == .maxi) x1 (c.readAt Rc.mxv (t + 2)) (c.readAt Rc.mxi (t + 2)) (c.readAt Rc.ixc (t + 2))
    let s := s.onCore d n (fun x =>
      ((x.write (t + 2) Rc.mxv 0 24 v).write (t + 2) Rc.mxi 0 13 i).write (t + 2) Rc.ixc 0 13 k)
    (s.countCore d n 3 1).when better (fun s => s.countCore d n 41 1)
  | _ =>
    let dual := op == .dmpy || op == .dmac
    let acd := c.accAt dd t
    let aco := if dual then c.accAt 1 t else c.readAt (Rc.ac0 + (1 - dd)) (t + 1)
    let fr := (c.readAt Rc.sr (t + 1)).testBit Sr.fr
    let r := aluOp op fr (ng == 1) x1 (c.readAt s2 (t + 1)) (c.readAt (partner s1) (t + 1)) acd aco
    let logic := op == .and || op == .or || op == .xor
    let s := s.onCore d n (fun x =>
      let x := match r.acc with
        | some a =>
          let w : CoreWrite := {
            land := t + 3, code := Rc.ac0 + dd, fwd := true,
            op := if logic then .put 24 24 (a / 2 ^ 24) else .put 0 56 a }
          { x with pend := x.pend ++ [w] }
        | none => x
      let x := match r.other with
        | some a =>
          let w : CoreWrite := { land := t + 3, code := Rc.ac1, fwd := true, op := .put 0 56 a }
          { x with pend := x.pend ++ [w] }
        | none => x
      x.writeFlags (t + 3) r.flags)
    let s := if dual then s.countCore d n 2 2 else if op == .mpy || op == .mac then s.countCore d n 2 1 else s.countCore d n 3 1
    s.countV d n r.flags.v

/-- A class-M instruction (R282 to R287). -/
def Chip.issueM (s : Chip) (c : Core) (d n t pc : Nat) (op : AluOp) (s1 s2 dd ng : Nat) (x y : PMove) : Issue :=
  let sx := s.moveSample d n t 1 x
  let sy := s.moveSample d n t 2 y
  let bad (m : Nat) (v : Option (Nat × Nat × BitVec 4)) : Option Issue := match v with
    | some (a, _, syn) => if syn = 0 then none else some (.trap m a syn)
    | none => none
  match bad 1 sx, bad 2 sy with
  | some i, _ => i
  | none, some i => i
  | none, none => .plain (fun s =>
      let s := s.doAlu c d n t op s1 s2 dd ng
      (s.doMove c d n t pc 1 x sx).doMove c d n t pc 2 y sy)

/-! ### Classes R, L, A and S (R296 to R302) -/

/-- MOVR (R297). -/
def issueMovr (c : Core) (d n t pc dst src : Nat) : Issue :=
  let (v, ovf) := c.readReg src (t + 1) pc
  .plain (fun s => (s.countV d n ovf).onCore d n (fun x => (x.raiseV (t + 3) ovf).writeReg dst v (t + 3)))

/-- Whether MOVC reaches an offset of the core's block, for a read or a write (R642). -/
def Chip.movcOpen (s : Chip) (d n off : Nat) (write : Bool) : Bool :=
  !(0x100 ≤ off && off < 0x200) || s.flag d (if write then F.OBE_PMC_USER_WRITE n else F.OBE_PMC_USER_READ n)

/-- A MOVC read (R298). -/
def Chip.movcRead (s : Chip) (d n t dst h off : Nat) : Chip :=
  let (s, w) := if s.movcOpen d n off false then s.obeRead d n off true else (s, 0)
  let v := if h = 1 then bits w 24 12 else bits w 0 24
  (s.onCore d n (fun x => x.writeReg dst v (t + 3))).countCore d n 38 1

/-- A MOVC write (R298). A refused write of OBE_PMC_USER is noted there (R642). -/
def Chip.movcWrite (s : Chip) (d n t v h off : Nat) (ovf : Bool) : Chip :=
  let s := (s.countCore d n 38 1).countV d n ovf
  let s := s.onCore d n (fun x => x.raiseV (t + 3) ovf)
  if h = 1 then s.onCore d n (fun x => { x with hlatch := v % 2 ^ 12 })
  else
    let w := word ((s.core d n).hlatch * 2 ^ 24 + v % 2 ^ 24)
    let s := s.onCore d n (fun x => { x with hlatch := 0 })
    if off = 0x101 then s.obeWrite d n off w false
    else if s.movcOpen d n off true then s.obeWrite d n off w false
    else s

/-- The oc at whose end a loaded or immediate value stands in a register: RD for X0, X1, Y0 and Y1, WB for any other (R255, R296,
R299). -/
def loadLand (reg t : Nat) : Nat := if reg < 4 then t + 1 else t + 3

/-- A class-L instruction (R255, R299). -/
def Chip.issueL (s : Chip) (c : Core) (d n t pc store m reg mode p addr : Nat) : Issue :=
  let (a, md) := c.memAddress t mode p addr
  if store = 1 then
    let (v, ovf) := c.readReg reg (t + 1) pc
    .plain (fun s => (s.coreStore d n t m a v ovf).onCore d n (fun x => x.postModify p t md))
  else
    let (v, syn) := s.coreSample d n m a (t + 1)
    if syn = 0 then
      .plain (fun s => (s.onCore d n (fun x => (x.writeReg reg v (loadLand reg t)).postModify p t md)).countCore d n
        (if m = 1 then 4 else 5) 1)
    else .trap m a syn

/-- A class-S result into ACd (R301); ovf: reading SRC set V (R259). -/
def Chip.shiftResult (s : Chip) (d n t dd : Nat) (r : AluOut) (ovf : Bool) : Chip :=
  (s.countV d n (r.flags.v || ovf)).onCore d n (fun x =>
    let x := match r.acc with
      | some a =>
        let w : CoreWrite := { land := t + 3, code := Rc.ac0 + dd, fwd := true, op := .put 0 56 a }
        { x with pend := x.pend ++ [w] }
      | none => x
    x.writeFlags (t + 3) { r.flags with v := r.flags.v || ovf })

/-! ### Class C, B and D (R288 to R295) -/

/-- Whether a branch condition holds in AG at oc t (R291). -/
def Core.condition (c : Core) (t cond : Nat) : Bool :=
  let sr := c.readAt Rc.sr t
  let z := sr.testBit Sr.z
  let ng := sr.testBit Sr.n
  match cond with
  | 0 => true
  | 1 => z
  | 2 => !z
  | 3 => ng
  | 4 => !ng
  | 5 => sr.testBit Sr.c
  | 6 => !sr.testBit Sr.c
  | 7 => sr.testBit Sr.v
  | 8 => !sr.testBit Sr.v
  | 9 => sr.testBit Sr.e
  | 10 => !sr.testBit Sr.e
  | 11 => !ng && !z
  | 12 => ng || z
  | 13 => c.readAt Rc.lc t != 0
  | 14 => sr.testBit Sr.tv
  | _ => !sr.testBit Sr.tv

/-- SR.TV as the task interface keeps it, every write done. -/
def Core.tv (c : Core) : Bool := (c.seen Rc.sr (fun _ => true)).testBit Sr.tv

/-- A branch or call to a target (R290 to R292). -/
def issueBranch (c : Core) (d n t pc call cond target : Nat) : Issue :=
  if c.condition t cond then
    if call = 1 then
      if 16 ≤ c.sys.length then .fault true
      else .run (fun s => (s.countCore d n 8 1).onCore d n (fun x =>
        { x with sys := ((pc + 3) % 8192, c.readAt Rc.sr t) :: x.sys })) 1 (.branch (some target))
    else .run (fun s => s.countCore d n 8 1) 1 (.branch (some target))
  else .run (fun s => s.countCore d n 9 1) 1 (.branch none)

/-- A return by RTS (R288, R292). -/
def issueRts (c : Core) (d n : Nat) : Issue :=
  match c.sys with
  | (a, _) :: rest => .run (fun s => (s.countCore d n 8 1).onCore d n (fun x => { x with sys := rest })) 1 (.branch (some a))
  | [] => .fault true

/-- RTI: PC and SR popped once every earlier instruction has passed WB; LK and TV stay the core's own; NMI is cleared (R265,
R266). From the vector-1 handler itself, and not from what interrupted it, it is ILLEGAL (R275). -/
def issueRti (c : Core) (d n : Nat) : Issue :=
  if c.inPoison && c.sys.length ≤ c.poisonAt then .fault false
  else match c.sys with
    | (a, sr) :: rest => .run (fun s => ((s.drainCore d n).countCore d n 8 1).onCore d n (fun x =>
        let old := x.committed Rc.sr
        let sr := putNat (putNat sr Sr.lk 1 (old / 2 ^ Sr.lk)) Sr.tv 1 (old / 2 ^ Sr.tv)
        { x.setNow Rc.sr (putNat sr Sr.nmi 1 0) with sys := rest, wdogSeen := false })) 3 (.jump a)
    | [] => .fault true

/-- The count a register's 24-bit value names, zero-extended to 16 bits: AMn and the guard bits by their own width (R281, R293). -/
def zeroExtended (reg v : Nat) : Nat :=
  if 0x20 ≤ reg && reg < 0x28 then v % 2 ^ 13 else if reg = 6 || reg = 9 then v % 2 ^ 8 else v % 2 ^ 16

/-- DO with a count (R262, R293, R294). -/
def issueDo (c : Core) (d n t pc count fin : Nat) (ovf : Bool) : Issue :=
  let v (s : Chip) : Chip := (s.countV d n ovf).onCore d n (fun x => x.raiseV (t + 3) ovf)
  if fin < pc + 1 then .fault false
  else if count = 0 then .run v 3 (.jump (fin + 1))
  else if 4 ≤ c.loops.length then .fault true
  else
    let l : LoopRec := { prev := c.loopCount t, start := (pc + 1) % 8192, fin := fin, count := count }
    .run (fun s => (v s).onCore d n (fun x => { x.writeLoop t count with loops := l :: x.loops })) 1 .next

/-- ENDDO (R288, R289): the entry goes in AG, its LC comes back in WB. -/
def issueEnddo (c : Core) (d n t : Nat) : Issue :=
  match c.loops with
  | l :: ls => .plain (fun s => s.onCore d n (fun x => { x.writeLoop t l.prev with loops := ls }))
  | [] => .fault true

/-- REP with a count already read (R261). -/
def issueRep (d n pc count : Nat) : Issue :=
  if count = 0 then .run id 1 (.jump (pc + 2))
  else .run (fun s => s.onCore d n (fun x => { x with rep := count })) 1 (.jump (pc + 1))

/-- LOCK of count + 1 instructions, and itself (R268). -/
def issueLock (d n count : Nat) : Issue :=
  .run (fun s => s.onCore d n (fun x => { x.setSr Sr.lk true with lock := count + 2 })) 1 .next

/-! ### Task instructions (R245, R271 to R273, R288) -/

/-- The samples of the emit area, or the first that fails (R272, R274). -/
def Chip.emitArea (s : Chip) (d n t : Nat) : List (Nat × Nat × BitVec 4) :=
  (List.range 8).map (fun i =>
    let (v, syn) := s.coreSample d n 1 (0x1FD8 + i) (t + 1)
    (0x1FD8 + i, v, syn))

/-- The EMIT packet of a task from the emit area's samples (R272, R273, R330). -/
def Chip.emitOf (s : Chip) (d : Nat) (task : HeldTask) (area : List (Nat × Nat × BitVec 4)) : Packet :=
  let v (i : Nat) : Nat := match area[i]? with
    | some (_, v, _) => v
    | none => 0
  let f := v 1
  let w2 := v 0 % 1024 + f / 16 % 4 * 2 ^ 10 + f / 8 % 2 * 2 ^ 12 + f % 2 * 2 ^ 13 + f / 2 % 2 * 2 ^ 14 + f / 4 % 2 * 2 ^ 15 +
    taskBits task
  let p (w : Nat) : W36 := if w < f / 16 % 4 then word (v (2 + 2 * w) + v (3 + 2 * w) % 2 ^ 12 * 2 ^ 24) else 0
  s.emitPacket d task.flow w2 (p 0) (p 1) (p 2)

/-- EMIT (R272, R273): with both token places full the core is held and tries again. -/
def Chip.issueEmit (s : Chip) (c : Core) (d n t : Nat) : Issue :=
  if !c.tv then .fault false
  else
    let area := s.emitArea d n t
    match area.find? (fun e => e.2.2 != 0) with
    | some (a, _, syn) => .trap 1 a syn
    | none =>
      if 2 ≤ c.tokens.length then .run (fun s => s.countCore d n 19 1) 1 .hold
      else
        let task := c.task.getD { flow := 0, seq := 0, attempt := 0 }
        let last := ((area[1]?).map (fun e => e.2.1 % 2)).getD 0 = 1
        .run (fun s =>
          let p := s.emitOf d task area
          (s.countCore d n 20 1).onCore d n (fun x =>
            let x := { x with tokens := x.tokens ++ [x.numbered p], emits := x.emits + 1, lastFailed := false }
            if last then { x.write (t + 3) Rc.sr Sr.tv 1 0 with task := none } else x)) 9 .next

/-- ABORT (R273, R330). -/
def issueAbort (c : Core) (d n t : Nat) : Issue :=
  if !c.tv then .fault false
  else .plain (fun s => ((s.abortTask d n 0).countCore d n 22 1).onCore d n (fun x => x.write (t + 3) Rc.sr Sr.tv 1 0))

/-- WAITTASK (R245, R271): a task area already written completes it at once. -/
def Chip.doWaittask (s : Chip) (d n : Nat) : Chip :=
  let s := ((s.drainCore d n).onCore d n (fun x => { x with inPoison := false, cycle := x.cycle + 1 })).coreOcs d n 0 1
  if (s.core d n).areaReady then s.completeWait d n
  else (s.when (s.readyDue d n) (fun s => s.announceReady d n)).setCoreState d n Obe.waittask

/-- SLEEP (R245, R265). -/
def Chip.doSleep (s : Chip) (d n : Nat) : Chip :=
  ((s.drainCore d n).onCore d n (fun c => { c with wakeNoted := false })).setCoreState d n Obe.sleep

/-! ### Issue -/

/-- Whether R279 aside the instruction may stand where it does (R257, R261, R262, R268, R271, R295, R303). -/
def Core.placed (c : Core) (pc : Nat) (i : OInstr) : Bool :=
  let restricted := i.isBranch || i.isControl
  let isEnd := match c.loops with
    | l :: _ => l.fin = pc
    | [] => false
  !(c.slots != 0 && (restricted || isEnd)) && !(c.rep != 0 && !i.repeatable) && !(c.lock != 0 && i.isControl) &&
    !(isEnd && restricted) && !(i == .waittask && c.tv)

/-- What a placed instruction does at oc t. -/
def Chip.issueOf (s : Chip) (c : Core) (d n t pc : Nat) : OInstr → Issue
  | .alu op s1 s2 dd ng x y => s.issueM c d n t pc op s1 s2 dd ng x y
  | .nop => .plain id
  | .rts => issueRts c d n
  | .rti => issueRti c d n
  | .waittask => .run id 0 .hold
  | .emit => s.issueEmit c d n t
  | .abort => issueAbort c d n t
  | .sleep => .run id 1 .next
  | .kick => .plain (fun s => s.reloadWdog d n)
  | .enddo => issueEnddo c d n t
  | .bexr => .plain (fun s => s.onCore d n (fun x => x.write (t + 3) Rc.bex 0 5 23))
  | .rep k => issueRep d n pc (k + 1)
  | .repLc => issueRep d n pc (c.readAt Rc.lc t)
  | .lock k => issueLock d n k
  | .setipl level => .plain (fun s => s.onCore d n (fun x => x.write (t + 3) Rc.sr 5 4 level))
  | .branch call cond target => issueBranch c d n t pc call cond target
  | .branchAp call cond p => issueBranch c d n t pc call cond (c.readAt (Rc.ap p) t)
  | .doImm count fin => issueDo c d n t pc count fin false
  | .doReg reg fin =>
    let (v, ovf) := c.readReg reg t pc
    issueDo c d n t pc (zeroExtended reg v) fin ovf
  | .ldi reg imm => .plain (fun s => s.onCore d n (fun x => x.writeReg reg imm (loadLand reg t)))
  | .movr dst src => issueMovr c d n t pc dst src
  | .movcRead dst h off => .run (fun s => s.movcRead d n t dst h off) 4 .next
  | .movcWrite src h off =>
    let (v, ovf) := c.readReg src (t + 1) pc
    .run (fun s => s.movcWrite d n t v h off ovf) 4 .next
  | .mem store y reg mode p addr => s.issueL c d n t pc store (1 + y) reg mode p addr
  | .moda p m => .plain (fun s => s.onCore d n (fun x => x.postModify p t (some (signed 13 m))))
  | .asr dd k => .plain (fun s => s.shiftResult d n t dd (shiftRight (c.accAt dd t) k) false)
  | .asl dd k => .plain (fun s => s.shiftResult d n t dd (shiftLeft (c.accAt dd t) k) false)
  | .norm dd src =>
    let (v, ovf) := c.readReg src (t + 1) pc
    .plain (fun s => s.shiftResult d n t dd (shiftLeft (c.accAt dd t) (min (v % 32) 23)) ovf)
  | .scale dd k src =>
    let (v, ovf) := c.readReg src (t + 1) pc
    let b := min (v % 32) 23
    .plain (fun s => s.shiftResult d n t dd (shiftRight (c.accAt dd t) (k - min b k)) ovf)

/-- What the core does after an instruction's effect: WAITTASK and SLEEP leave RUN. -/
def Chip.leaveRun (s : Chip) (d n : Nat) : OInstr → Chip
  | .waittask => s.doWaittask d n
  | .sleep => s.doSleep d n
  | _ => s

/-- The instruction at the program counter of a running core, where it goes by mnemonic mn; a core whose word goes by another
mnemonic is unchanged (R278 to R303). -/
def Chip.issue (s : Chip) (d n : Nat) (mn : OMn) : Chip :=
  if !s.coreClocked d n || s.coreState d n != Obe.run || ((s.core d n).haltAsked && !(s.core d n).heldOff) then s
  else
    let pc := (s.core d n).pc
    let t := (s.core d n).cycle
    let (w, syn) := s.coreWord d n 0 pc
    if mnemonicOf w != mn then s
    else if syn != 0 then (s.readTrap d n pc 0 pc syn).stepEnd d n
    else
      let s := (s.commitCore d n t).onCore d n (fun c => { c with agPc := pc })
      let c := s.core d n
      match OInstr.decode w with
      | none => (s.coreFault d n pc false).stepEnd d n
      | some i =>
        if !c.placed pc i then (s.coreFault d n pc false).stepEnd d n
        else match s.issueOf c d n t pc i with
          | .fault stack => (s.coreFault d n pc stack).stepEnd d n
          | .trap m a syn => (s.readTrap d n pc m a syn).stepEnd d n
          | .run f cost o => (((f s).retire d n pc t cost o).leaveRun d n i).stepEnd d n

/-! ### One row each -/

/-- MOVE (R284, R285). -/
def execMove (d : Die) (n : Fin 64) (s : State) : Out := s.onDie d (fun c => c.issue d n (.alu .move))

/-- MPY (R284, R285). -/
def execMpy (d : Die) (n : Fin 64) (s : State) : Out := s.onDie d (fun c => c.issue d n (.alu .mpy))

/-- MAC (R284, R285). -/
def execMac (d : Die) (n : Fin 64) (s : State) : Out := s.onDie d (fun c => c.issue d n (.alu .mac))

/-- DMPY (R284, R285). -/
def execDmpy (d : Die) (n : Fin 64) (s : State) : Out := s.onDie d (fun c => c.issue d n (.alu .dmpy))

/-- DMAC (R284, R285). -/
def execDmac (d : Die) (n : Fin 64) (s : State) : Out := s.onDie d (fun c => c.issue d n (.alu .dmac))

/-- SUM (R284, R285). -/
def execSum (d : Die) (n : Fin 64) (s : State) : Out := s.onDie d (fun c => c.issue d n (.alu .sum))

/-- DIF (R284, R285). -/
def execDif (d : Die) (n : Fin 64) (s : State) : Out := s.onDie d (fun c => c.issue d n (.alu .dif))

/-- ADD (R284, R285). -/
def execAdd (d : Die) (n : Fin 64) (s : State) : Out := s.onDie d (fun c => c.issue d n (.alu .add))

/-- SUB (R284, R285). -/
def execSub (d : Die) (n : Fin 64) (s : State) : Out := s.onDie d (fun c => c.issue d n (.alu .sub))

/-- ADDA (R284, R285). -/
def execAdda (d : Die) (n : Fin 64) (s : State) : Out := s.onDie d (fun c => c.issue d n (.alu .adda))

/-- SUBA (R284, R285). -/
def execSuba (d : Die) (n : Fin 64) (s : State) : Out := s.onDie d (fun c => c.issue d n (.alu .suba))

/-- TFR (R284, R285). -/
def execTfr (d : Die) (n : Fin 64) (s : State) : Out := s.onDie d (fun c => c.issue d n (.alu .tfr))

/-- CLR_ACC (R284, R285). -/
def execClrAcc (d : Die) (n : Fin 64) (s : State) : Out := s.onDie d (fun c => c.issue d n (.alu .clr))

/-- NEG (R284, R285). -/
def execNeg (d : Die) (n : Fin 64) (s : State) : Out := s.onDie d (fun c => c.issue d n (.alu .neg))

/-- ABS (R284, R285). -/
def execAbs (d : Die) (n : Fin 64) (s : State) : Out := s.onDie d (fun c => c.issue d n (.alu .abs))

/-- CMP (R284, R285). -/
def execCmp (d : Die) (n : Fin 64) (s : State) : Out := s.onDie d (fun c => c.issue d n (.alu .cmp))

/-- AND (R284, R285). -/
def execAndOp (d : Die) (n : Fin 64) (s : State) : Out := s.onDie d (fun c => c.issue d n (.alu .and))

/-- OR (R284, R285). -/
def execOrOp (d : Die) (n : Fin 64) (s : State) : Out := s.onDie d (fun c => c.issue d n (.alu .or))

/-- XOR (R284, R285). -/
def execXorOp (d : Die) (n : Fin 64) (s : State) : Out := s.onDie d (fun c => c.issue d n (.alu .xor))

/-- MAXI (R259, R284). -/
def execMaxi (d : Die) (n : Fin 64) (s : State) : Out := s.onDie d (fun c => c.issue d n (.alu .maxi))

/-- MINI (R259, R284). -/
def execMini (d : Die) (n : Fin 64) (s : State) : Out := s.onDie d (fun c => c.issue d n (.alu .mini))

/-- NOP (R288). -/
def execNop (d : Die) (n : Fin 64) (s : State) : Out := s.onDie d (fun c => c.issue d n .nop)

/-- RTS (R288, R292). -/
def execRts (d : Die) (n : Fin 64) (s : State) : Out := s.onDie d (fun c => c.issue d n .rts)

/-- RTI (R265, R266, R288). -/
def execRti (d : Die) (n : Fin 64) (s : State) : Out := s.onDie d (fun c => c.issue d n .rti)

/-- WAITTASK (R245, R271, R289). -/
def execWaittask (d : Die) (n : Fin 64) (s : State) : Out := s.onDie d (fun c => c.issue d n .waittask)

/-- EMIT (R272, R273). -/
def execEmit (d : Die) (n : Fin 64) (s : State) : Out := s.onDie d (fun c => c.issue d n .emit)

/-- ABORT (R273). -/
def execAbort (d : Die) (n : Fin 64) (s : State) : Out := s.onDie d (fun c => c.issue d n .abort)

/-- SLEEP (R245, R288). -/
def execSleep (d : Die) (n : Fin 64) (s : State) : Out := s.onDie d (fun c => c.issue d n .sleep)

/-- KICK (R269, R288). -/
def execKick (d : Die) (n : Fin 64) (s : State) : Out := s.onDie d (fun c => c.issue d n .kick)

/-- ENDDO (R288, R289). -/
def execEnddo (d : Die) (n : Fin 64) (s : State) : Out := s.onDie d (fun c => c.issue d n .enddo)

/-- BEXR (R259, R288). -/
def execBexr (d : Die) (n : Fin 64) (s : State) : Out := s.onDie d (fun c => c.issue d n .bexr)

/-- REP (R261). -/
def execRep (d : Die) (n : Fin 64) (s : State) : Out := s.onDie d (fun c => c.issue d n .rep)

/-- REP_LC (R261). -/
def execRepLc (d : Die) (n : Fin 64) (s : State) : Out := s.onDie d (fun c => c.issue d n .repLc)

/-- LOCK of count + 1 instructions, and itself (R268). -/
def execLock (d : Die) (n : Fin 64) (s : State) : Out := s.onDie d (fun c => c.issue d n .lock)

/-- SETIPL (R288). -/
def execSetipl (d : Die) (n : Fin 64) (s : State) : Out := s.onDie d (fun c => c.issue d n .setipl)

/-- B (R290 to R292). -/
def execBranch (d : Die) (n : Fin 64) (s : State) : Out := s.onDie d (fun c => c.issue d n .b)

/-- CALL (R290 to R292). -/
def execCall (d : Die) (n : Fin 64) (s : State) : Out := s.onDie d (fun c => c.issue d n .call)

/-- B_APN (R290 to R292). -/
def execBApn (d : Die) (n : Fin 64) (s : State) : Out := s.onDie d (fun c => c.issue d n .bAp)

/-- CALL_APN (R290 to R292). -/
def execCallApn (d : Die) (n : Fin 64) (s : State) : Out := s.onDie d (fun c => c.issue d n .callAp)

/-- DO (R262, R293, R294). -/
def execDoLoop (d : Die) (n : Fin 64) (s : State) : Out := s.onDie d (fun c => c.issue d n .doLoop)

/-- LDI (R296). -/
def execLdi (d : Die) (n : Fin 64) (s : State) : Out := s.onDie d (fun c => c.issue d n .ldi)

/-- MOVR (R297). -/
def execMovr (d : Die) (n : Fin 64) (s : State) : Out := s.onDie d (fun c => c.issue d n .movr)

/-- MOVC (R297, R298). -/
def execMovc (d : Die) (n : Fin 64) (s : State) : Out := s.onDie d (fun c => c.issue d n .movc)

/-- MEMORY_MOVE (R299). -/
def execMemoryMove (d : Die) (n : Fin 64) (s : State) : Out := s.onDie d (fun c => c.issue d n .mem)

/-- MODA (R300). -/
def execModa (d : Die) (n : Fin 64) (s : State) : Out := s.onDie d (fun c => c.issue d n .moda)

/-- ASR (R301). -/
def execAsr (d : Die) (n : Fin 64) (s : State) : Out := s.onDie d (fun c => c.issue d n .asr)

/-- ASL (R301). -/
def execAsl (d : Die) (n : Fin 64) (s : State) : Out := s.onDie d (fun c => c.issue d n .asl)

/-- NORM (R301, R302). -/
def execNorm (d : Die) (n : Fin 64) (s : State) : Out := s.onDie d (fun c => c.issue d n .norm)

/-- SCALE (R301, R302). -/
def execScale (d : Die) (n : Fin 64) (s : State) : Out := s.onDie d (fun c => c.issue d n .scale)

end Sys2Proof.Machine
end

