-- ==== Sys2Proof/Machine/Image.lean ====
section
/-! DEFINITION. The image container and the checks that its words alone decide: header, directory, claim table, pool, frame rules
and the direct-crossing check (chapter 5; R45, R55, R60, R99, R116, R133, R141, R395, R425). A word list `ws` holds the words of
an image from word 0. -/

namespace Sys2Proof.Machine

/-! ### Header and sections (R167, R168) -/

def imgKind (ws : List W36) : Nat := bits (ws.getD 1 0) 8 2
def imgEnc (ws : List W36) : Bool := bit (ws.getD 1 0) 10
def imgEpoch (ws : List W36) : Nat := bits (ws.getD 3 0) 0 7
def imgGeneration (ws : List W36) : Nat := bits (ws.getD 4 0) 0 20
def imgRegions (ws : List W36) : BitVec 64 := BitVec.ofNat 64 (bits (ws.getD 5 0) 0 32 + bits (ws.getD 6 0) 0 32 * 2 ^ 32)
def imgGlobal (ws : List W36) : Nat := bits (ws.getD 7 0) 0 4
def imgPoolFrames (ws : List W36) : Nat := bits (ws.getD 10 0) 0 24
def imgPoolWords (ws : List W36) : Nat := (ws.getD 11 0).toNat
def imgDoneSrc (ws : List W36) : Nat := bits (ws.getD 13 0) 0 2
def imgStageDelay (ws : List W36) : Nat := bits (ws.getD 13 0) 2 16
def imgKeySlot (ws : List W36) : Nat := bits (ws.getD 17 0) 0 8

/-- The first words of the claim table and of the pool, and the length of the image (R167, R674). -/
def imgClaims (ws : List W36) : Nat := 80 + 2 * bits (ws.getD 8 0) 0 24
def imgPool (ws : List W36) : Nat := imgClaims ws + bits (ws.getD 9 0) 0 24
def imgLength (ws : List W36) : Nat := imgPool ws + imgPoolWords ws + 8

/-- The octets of words as they are hashed, checked and encrypted (R169). -/
def octetsOf (ws : List W36) : List (BitVec 8) := ws.flatMap wordOctets

/-- The least SCK_DIV but 0 that keeps CFG_SCK within the limit of R162: in the flash modes by MODE, otherwise by READ (R680). -/
def sckLeast (mode read : Nat) : Nat := if mode < 4 then (if mode < 2 then 6 else 8) else if 2 ≤ read then 6 else 8

/-- Whether a header passes R168, whatever its source. -/
def headerOk (mode : Nat) (ws : List W36) : Bool :=
  let div := bits (ws.getD 12 0) 2 8
  ws.getD 0 0 == 0xA5C3E9440 && bits (ws.getD 1 0) 0 8 == 1 && bits (ws.getD 2 0) 0 16 == 0x9440 && bits (ws.getD 2 0) 16 4 == 1 &&
    imgKind ws < 2 && imgDoneSrc ws != 3 && (div = 0 || sckLeast mode (bits (ws.getD 12 0) 0 2) ≤ div)

/-- Whether an image suits its load (R673). -/
def headerSuits (partial' : Bool) (ws : List W36) : Bool :=
  if partial' then imgKind ws == 1 && imgRegions ws != 0 && imgGlobal ws == 0 else imgKind ws == 0 && imgGlobal ws == 15

/-- Whether a header declares a region, or with r = 16 the die-global frames, of a die. -/
def declares (ws : List W36) (d r : Nat) : Bool :=
  if r < 16 then (imgRegions ws).getLsbD (16 * d + r) else r == 16 && (imgGlobal ws).testBit d

/-! ### Directory (R171) -/

/-- A directory entry. -/
structure DirEntry where
  first : Nat
  run : Nat
  pool : Nat
  kind : Nat
deriving DecidableEq, Repr

/-- The directory of an image. -/
def dirEntries (ws : List W36) : List DirEntry :=
  (List.range (bits (ws.getD 8 0) 0 24)).map (fun i =>
    let a := ws.getD (80 + 2 * i) 0
    let b := ws.getD (81 + 2 * i) 0
    { first := bits a 0 25, run := bits a 25 11, pool := bits b 0 24, kind := bits b 24 2 })

/-- Die, region and frame of a frame address. -/
def faDie (fa : Nat) : Nat := fa / 2 ^ 23 % 4
def faRegion (fa : Nat) : Nat := fa / 2 ^ 18 % 32
def faFrame (fa : Nat) : Nat := fa % 2 ^ 14

/-- Whether an entry alone is valid. -/
def DirEntry.ok (e : DirEntry) (ws : List W36) : Bool :=
  let r := faRegion e.first
  e.first / 2 ^ 14 % 16 = 0 && e.kind != 3 && declares ws (faDie e.first) r &&
    faFrame e.first + e.run ≤ (if r = 16 then 1023 else 16383) &&
    (e.kind = 2 || e.pool + (if e.kind = 0 then e.run else 0) < imgPoolFrames ws)

/-- The first entry that makes a directory invalid, as the frame address that it names (R171). -/
def dirFault (ws : List W36) : List DirEntry → Nat → Option Nat
  | [], _ => none
  | e :: es, next => if e.ok ws && next ≤ e.first then dirFault ws es (e.first + e.run + 1) else some e.first

/-- The frame addresses of an entry with the pool frame each takes. -/
def DirEntry.uses (e : DirEntry) : List (Nat × Nat) :=
  (List.range (e.run + 1)).map (fun i => (e.first + i, if e.kind = 0 then e.pool + i else e.pool))

/-- The frame addresses that take pool frame n, in directory order. -/
def usesOf (es : List DirEntry) (n : Nat) : List Nat :=
  es.flatMap (fun e => if e.kind < 2 then (e.uses.filter (fun u => u.2 = n)).map (·.1) else [])

/-! ### Claim table (R173) -/

/-- The words of the claim table. -/
def claimWords (ws : List W36) : List W36 := (ws.drop (imgClaims ws)).take (bits (ws.getD 9 0) 0 24)

/-- The wire that a claim word names. -/
def claimKey (w : W36) : Nat := wireKey (bits w 0 2) (bits w 2 4) (bits w 6 2) (bits w 8 13)

/-- Whether the claim table breaks R173: ascending order, no duplicates, no die edge. -/
def claimsBad : List W36 → Option W36 → Bool
  | [], _ => false
  | w :: r, prev =>
    let order : Bool := match prev with
      | some p => decide (p.toNat < w.toNat)
      | none => true
    !order || (acrossSide (bits w 2 4) (bits w 6 2)).isNone || claimsBad r (some w)

/-! ### Pool (R174, R175) -/

/-- n words copied one at a time from a distance back; the output is held latest first. -/
def copyBack : Nat → Nat → List W36 → List W36
  | 0, _, out => out
  | n + 1, dist, out => copyBack n dist (out.getD (dist - 1) 0 :: out)

/-- The decompressor after one more word of the stream (R174). -/
def Inflate.feed (x : Inflate) (w : W36) : Inflate :=
  if x.broken then x
  else if x.literal != 0 then { x with out := w :: x.out, literal := x.literal - 1 }
  else
    let n := bits w 0 16 + 1
    let dist := bits w 16 16 + 1
    match bits w 34 2 with
    | 0 => { x with literal := n }
    | 1 => { x with out := List.replicate n 0 ++ x.out }
    | 2 => if x.out.isEmpty then { x with broken := true } else { x with out := copyBack n 1 x.out }
    | _ => if x.out.length < dist then { x with broken := true } else { x with out := copyBack n dist x.out }

/-- Whole pool frames put out so far. -/
def Inflate.frames (x : Inflate) : Nat := x.out.length / 65

/-- Pool frame n: 64 frame words and the word of its CRC. -/
def Inflate.frame (x : Inflate) (n : Nat) : List W36 := (x.out.reverse.drop (65 * n)).take 65

/-- Whether a pool frame passes its CRC-32 (R174). -/
def frameGood (fw : List W36) : Bool := (fw.getD 64 0).toNat == (crc32 (octetsOf (fw.take 64))).toNat

/-- Whether the stream ends as it must at its last word (R174). -/
def Inflate.complete (x : Inflate) (ws : List W36) : Bool :=
  !x.broken && x.literal == 0 && x.out.length == 65 * imgPoolFrames ws

/-- The header IV (R168). -/
def imgIv (ws : List W36) : BitVec 96 :=
  BitVec.ofNat 96 (bits (ws.getD 14 0) 0 32 * 2 ^ 64 + bits (ws.getD 15 0) 0 32 * 2 ^ 32 + bits (ws.getD 16 0) 0 32)

/-- The pool words of an image decrypted under the image key, and the tag over them (R175, R596). -/
def openPool (deviceKey : BitVec 256) (ws pool : List W36) : List W36 × BitVec 128 :=
  Config.gcmOpen (deriveKey deviceKey Label.vimg (bigEndian 1 (imgKeySlot ws))) (imgIv ws) (octetsOf (ws.take 32)) pool

/-! ### Frame rules (R177) -/

/-- The portion of a spine track that starts at a region-local position of region column (or row) rr, as its length (R92). -/
def portionLen (rr p : Nat) : Option Nat :=
  match rr, p with
  | 0, 0 => some 48
  | 1, 0 => some 16
  | 1, 16 => some 32
  | 2, 0 => some 32
  | 2, 32 => some 16
  | 3, 0 => some 48
  | _, _ => none

/-- The first position of the portion that holds a region-local position (R92). -/
def portionFirst (rr p : Nat) : Nat := if rr = 1 && 16 ≤ p then 16 else if rr = 2 && 32 ≤ p then 32 else 0

/-- Whether a region side faces a bank of the pad ring, or transceiver quads (R384, R412). -/
def bankFaces (d r side : Nat) : Bool := side = bankSide d && (r = bankRegion d 0 || r = bankRegion d 1)
def quadFaces (d r side : Nat) : Bool := side = quadSide d && r / 4 = (if d < 2 then 0 else 3)

/-- A reserved value of a driver selector (R93, R99). -/
def selReserved (v : Nat) : Bool := 238 ≤ v && v ≤ 254

/-- Whether lane k that leaves a cluster exists (R90). -/
def laneExists (cx cy k : Nat) : Bool :=
  let (span, dir, _) := laneClass k
  if dir = 1 then cx + span < 192 else if dir = 3 then span ≤ cx else if dir = 2 then cy + span < 192 else span ≤ cy

/-- A driver field at the first position p of a portion of region column (or row) rr, of the track whose lane end is e, breaks
R99. -/
def driverBad (rr p e : Nat) (w : W36) : Bool :=
  let src := bits w 6 8
  match portionLen rr p with
  | some n => selReserved src || n ≤ bits w 0 6 || src == 64 + e
  | none => src != 255

/-- Far-side or edge selectors of a boundary frame break R99 (R97, R393, R424): `lane` says whether the cluster has crossing lanes
or edge signals there. -/
def farBad (lane : Bool) (w : Nat → W36) : Bool :=
  (List.range 136).any (fun j => let v := selByte (w (j / 4)) j
    if lane then selReserved v else v != 255)

/-- The collar values of a side that must be 0b00: strobes of a bank or of a transceiver slot (R395, R425). -/
def strobes (d r side : Nat) : List Nat :=
  if bankFaces d r side then (List.range 24).flatMap (fun p => [50 * p + 12, 50 * p + 13]) ++ [1200]
  else if quadFaces d r side then
    (List.range 8).map (fun n => 80 * n + 72) ++ (if r % 4 % 2 = 0 then [640 + 512, 640 + 524, 640 + 525] else [])
  else []

/-- A collar frame m of a side breaks R133, R141, R395 or R425. -/
def collarBad (d r side m : Nat) (w : Nat → W36) : Bool :=
  if 9 ≤ m then (List.range 64).any (fun i => w i != 0)
  else
    let code (v : Nat) : Nat := bits (w (v / 16 % 64)) (2 * (v % 16)) 2
    (List.range 1024).any (fun i => 1024 * m + i < 8768 && code (1024 * m + i) == 3) ||
      (m == 8 && (List.range 64).any (fun i => 36 ≤ i && w i != 0)) ||
      (strobes d r side).any (fun e => (6720 + e) / 1024 == m && code (6720 + e) != 0)

/-- Frame f of a region with words w breaks a frame rule (R45, R55, R60, R99, R133, R141, R395, R425). -/
def frameBad (d r f : Nat) (w : Nat → W36) : Bool :=
  if 16 ≤ r then false
  else if f < 13824 then
    let lx := f / 6 % 48
    let ly := f / 6 / 48
    let cx := 48 * (r % 4) + lx
    let cy := 48 * (r / 4) + ly
    match f % 6 with
    | 0 => (List.range 32).any (fun k =>
        let a := cellFunc (w (2 * k))
        let b := cellFunc (w (2 * k + 1))
        ((a == 1) != (b == 1)) || ((a == 3 || b == 3) && (a != b || lx % 4 != 3)))
    | 3 =>
      (List.range 88).any (fun k => let v := selByte (w (k / 4)) k
        selReserved v || (v != 255 && !laneExists cx cy k)) ||
      (List.range 4).any (fun t => driverBad (r % 4) lx (88 + t) (w (24 + t)) || driverBad (r / 4) ly (92 + t) (w (28 + t)))
    | 4 =>
      let side := if lx = 0 then 3 else 1
      farBad ((lx = 0 || lx = 47) && ((acrossSide r side).isSome || bankFaces d r side)) w
    | 5 =>
      let side := if ly = 0 then 0 else 2
      farBad ((ly = 0 || ly = 47) && ((acrossSide r side).isSome || quadFaces d r side)) w
    | _ => false
  else if 15872 ≤ f && f < 16000 then bits (w 0) 0 2 == 3 || bits (w 0) 2 2 == 3
  else if 16136 ≤ f && f < 16200 then collarBad d r ((f - 16136) / 16) ((f - 16136) % 16) w
  else 16200 ≤ f && (List.range 64).any (fun i => w i != 0)

/-! ### A configuration as far as it is known -/

/-- Word w of a frame address, where it is known. -/
abbrev Look := Nat → Nat → Option W36

/-- What a load makes of the configuration: the frames of the regions it declares as its image gives them, those of other ACTIVE
regions as they stand; regions in any other state have no part in it (R116). -/
def Chip.loadLook (s : Chip) (ws : List W36) (x : Inflate) : Look := fun fa w =>
  let d := faDie fa
  let r := faRegion fa
  if declares ws d r then
    match (dirEntries ws).find? (fun e => e.first ≤ fa && fa ≤ e.first + e.run) with
    | some e =>
      if e.kind = 2 then some (blankWord (fa * 64 + w))
      else
        let n := if e.kind = 0 then e.pool + (fa - e.first) else e.pool
        if n < x.frames then some ((x.frame n).getD w 0) else none
    | none => some (blankWord (fa * 64 + w))
  else if s.regionState d r = Rgn.active then some (s.frameWord fa w) else none

/-- Whether word w of a frame is known to hold a selector of value v. -/
def wordHas (look : Look) (fa w v : Nat) : Bool :=
  match look fa w with
  | some x => (List.range 4).any (fun i => selByte x i == v)
  | none => false

/-- Frame m of a cluster. -/
def clusterFrame (d cx cy m : Nat) : Nat := frameAddr d (clusterRegion cx cy) (6 * clusterIndex cx cy + m)

/-- Whether a control line selector of a cluster, used by one of its cells, is known to select lane end e (R52). -/
def ctrlReads (look : Look) (d cx cy e : Nat) : Bool :=
  let cell (p : W36 → Bool) : Bool := (List.range 64).any (fun n => match look (clusterFrame d cx cy 0) n with
    | some x => p x
    | none => false)
  let sel (w lo : Nat) : Bool := match look (clusterFrame d cx cy 2) w with
    | some c => bits c lo 7 == e
    | none => false
  let cin : Bool := match look (clusterFrame d cx cy 2) 1 with
    | some c => bits c 14 2 == 3
    | none => false
  (sel 0 6 && cell (fun x => bits x 24 2 == 1)) || (sel 0 13 && cell (fun x => bits x 24 2 == 2)) ||
    (sel 0 20 && cell (fun x => bits x 21 2 == 1)) || (sel 0 27 && cell (fun x => bits x 21 2 == 2)) ||
    (sel 1 0 && cell (fun x => cellFunc x == 3)) || (sel 1 7 && cin && cell (fun x => cellFunc x == 2))

/-- Whether a cluster is known to read its lane end e: through its crossbar, a control line, a driver selector, a RAM or a gate
it hosts (R51, R52, R93, R101, R125). -/
def readsEnd (look : Look) (d cx cy e : Nat) : Bool :=
  let r := clusterRegion cx cy
  let lx := cx % 48
  let ly := cy % 48
  let has (fa lo n : Nat) : Bool := (List.range n).any (fun i => wordHas look fa (lo + i) (64 + e))
  let cf (m : Nat) : Nat := clusterFrame d cx cy m
  let drives (fa w off : Nat) : Bool := match look fa w with
    | some x => bits x 6 8 == 64 + e && bits x 0 6 == off
    | none => false
  let px := portionFirst (r % 4) lx
  let py := portionFirst (r / 4) ly
  has (cf 1) 0 64 || has (cf 3) 0 22 || has (cf 4) 0 34 || has (cf 5) 0 34 || ctrlReads look d cx cy e ||
    (List.range 4).any (fun t =>
      drives (clusterFrame d (cx - lx + px) cy 3) (24 + t) (lx - px) || drives (clusterFrame d cx (cy - ly + py) 3) (28 + t) (ly - py)) ||
    (match hostedRam cx cy with
      | some i => has (frameAddr d r (15872 + i)) 8 30
      | none => false) ||
    (List.range 4).any (fun side =>
      let at' : Bool := if side = 0 then ly == 0 else if side = 1 then lx == 47 else if side = 2 then ly == 47 else lx == 0
      match gateAt (if side % 2 = 1 then ly else lx) with
      | some g => at' && has (frameAddr d r (16000 + 32 * side + g)) 1 10
      | none => false)

/-- Whether a wire driven in cluster o of one region and read in the clusters given, some of them in another, is known to break
R115. -/
def crossBad (look : Look) (d r1 r2 : Nat) (clusters : List (Nat × Nat)) : Bool :=
  let direct (r : Nat) : Option (Option Nat) := (look (frameAddr d r 16128) 1).map (fun w => if bit w 5 then some (bits w 0 5) else none)
  let off (k : Nat) : Bool := clusters.any (fun c => match look (clusterFrame d c.1 c.2 2) 0 with
    | some w => bits w 0 5 != k || bit w 5
    | none => false)
  let one (x : Option (Option Nat)) : Bool := match x with
    | some none => true
    | some (some k) => off k
    | none => false
  one (direct r1) || one (direct r2) || (match direct r1, direct r2 with
    | some (some a), some (some b) => a != b
    | _, _ => false)

/-- The lane and spine drivers held in frame 6c + 3 of a cluster: whether one of them is known to break R115. -/
def driversCross (look : Look) (fa : Nat) : Bool :=
  let d := faDie fa
  let r := faRegion fa
  let c := faFrame fa / 6
  let cx := 48 * (r % 4) + c % 48
  let cy := 48 * (r / 4) + c / 48
  let lanes := (List.range 88).any (fun k =>
    let on : Bool := match look fa (k / 4) with
      | some x => selByte x k != 255
      | none => false
    let (span, dir, _) := laneClass k
    let e : Nat × Nat := if dir = 1 then (cx + span, cy) else if dir = 3 then (cx - span, cy)
      else if dir = 2 then (cx, cy + span) else (cx, cy - span)
    let r2 := clusterRegion e.1 e.2
    on && laneExists cx cy k && r2 != r && readsEnd look d e.1 e.2 k && crossBad look d r r2 [(cx, cy), e])
  let spine (horiz : Bool) (t : Nat) : Bool :=
    let rr := if horiz then r % 4 else r / 4
    let lp := if horiz then cx % 48 else cy % 48
    let at2 (p : Nat) : Nat × Nat := if horiz then (p, cy) else (cx, p)
    let e := (if horiz then 88 else 92) + t
    match portionLen rr lp, look fa ((if horiz then 24 else 28) + t) with
    | some _, some x =>
      let p0 := if horiz then cx else cy
      let g := p0 / 64
      let readers := ((List.range 64).map (fun i => at2 (64 * g + i))).filter (fun q => readsEnd look d q.1 q.2 e)
      let others := readers.filter (fun q => clusterRegion q.1 q.2 != r)
      match others with
      | q :: _ => bits x 6 8 != 255 && crossBad look d r (clusterRegion q.1 q.2) (at2 (p0 + bits x 0 6) :: readers)
      | [] => false
    | _, _ => false
  lanes || (List.range 4).any (fun t => spine true t || spine false t)

/-- The frame of the first driver known to break the direct-crossing check (R116): among the frames that the image supplies, and
those of ACTIVE regions it does not declare. -/
def Chip.crossFault (s : Chip) (ws : List W36) (x : Inflate) : Option Nat :=
  let look := s.loadLook ws x
  let mine := (dirEntries ws).flatMap (fun e => if e.kind < 2 then (e.uses.filter (fun u => u.2 < x.frames)).map (·.1) else [])
  let theirs := ((s.frames.map (fun e => e.1 / 64)).eraseDups).filter (fun fa =>
    !declares ws (faDie fa) (faRegion fa) && s.regionState (faDie fa) (faRegion fa) == Rgn.active)
  (mine ++ theirs).find? (fun fa => faRegion fa < 16 && faFrame fa < 13824 && faFrame fa % 6 == 3 && driversCross look fa)

/-! ### Boundary selectors (R143, R172, R173, R672) -/

/-- The two driver selectors of a boundary wire of a die, as (frame address, word, lowest bit): the one of the region of its name,
and the one of the region across. None where the name names no wire. -/
def wireDrivers (key : Nat) : Option ((Nat × Nat × Nat) × (Nat × Nat × Nat)) :=
  let v := key % 8768
  let side := key / 8768 % 4
  let r := key / 8768 / 4 % 16
  let d := key / 8768 / 4 / 16
  if (acrossSide r side).isNone then none
  else if v < 6528 then
    let p := v / 136
    let j := v % 136
    let (span, dist, lane) := if j < 8 then (1, 1, j) else if j < 40 then (4, (j - 8) / 8 + 1, j % 8)
      else (16, (j - 40) / 6 + 1, (j - 40) % 6)
    let base := if span = 1 then 0 else if span = 4 then 32 else 64
    let per := if span = 16 then 6 else 8
    let ord := if side = 1 then 0 else if side = 3 then 1 else if side = 2 then 2 else 3
    let k := base + per * ord + lane
    let b := sideCluster r side p
    let o := if side = 1 then (b.1 - (dist - 1), b.2) else if side = 3 then (b.1 + (dist - 1), b.2)
      else if side = 2 then (b.1, b.2 - (dist - 1)) else (b.1, b.2 + (dist - 1))
    let f := farCluster o.1 o.2 (if side = 1 then 1 else if side = 3 then 3 else if side = 2 then 2 else 0)
    some ((clusterFrame d o.1 o.2 3, k / 4, 8 * (k % 4)),
      (clusterFrame d f.1 f.2 (if side = 1 || side = 3 then 4 else 5), j / 4, 8 * (j % 4)))
  else if v < 6720 && (side = 1 || side = 2) then
    let p := (v - 6528) / 4
    let t := (v - 6528) % 4
    let g := if side = 1 then r % 4 else r / 4
    let (p0, p1) := portions g
    let at2 (q : Nat) : Nat × Nat := if side = 1 then (q, 48 * (r / 4) + p) else (48 * (r % 4) + p, q)
    let w := (if side = 1 then 24 else 28) + t
    some ((clusterFrame d (at2 p0).1 (at2 p0).2 3, w, 6), (clusterFrame d (at2 p1).1 (at2 p1).2 3, w, 6))
  else none

/-- The wires that a boundary frame's selectors can drive, with whether each is the near side's selector: those of the lanes that
cross from the cluster, of the spine portions that start in it, and of the far-side selectors. -/
def frameWires (fa : Nat) : List Nat :=
  let d := faDie fa
  let r := faRegion fa
  let c := faFrame fa / 6
  let cx := 48 * (r % 4) + c % 48
  let cy := 48 * (r / 4) + c / 48
  if 16 ≤ r || 13824 ≤ faFrame fa then []
  else match faFrame fa % 6 with
    | 3 =>
      let lanes := (List.range 88).filterMap (fun k =>
        let (span, dir, lane) := laneClass k
        let e : Nat × Nat := if dir = 1 then (cx + span, cy) else if dir = 3 then (cx - span, cy)
          else if dir = 2 then (cx, cy + span) else (cx, cy - span)
        if laneExists cx cy k && clusterRegion e.1 e.2 != r then some (wireKey d r dir (laneWire cx cy dir span lane)) else none)
      let spine (horiz : Bool) : List Nat :=
        let pos := if horiz then cx else cy
        let rr := if horiz then r % 4 else r / 4
        let across := if horiz then cy % 48 else cx % 48
        match portionLen rr (pos % 48) with
        | some _ =>
          let g := pos / 64
          let near := if horiz then r - r % 4 + g else 4 * g + r % 4
          (List.range 4).map (fun t => wireKey d near (if horiz then 1 else 2) (6528 + 4 * across + t))
        | none => []
      lanes ++ spine true ++ spine false
    | 4 =>
      let p := cy % 48
      if cx % 48 = 0 && r % 4 != 0 then (List.range 136).map (fun j => wireKey d (r - 1) 1 (136 * p + j))
      else if cx % 48 = 47 && r % 4 != 3 then (List.range 136).map (fun j => wireKey d (r + 1) 3 (136 * p + j)) else []
    | 5 =>
      let p := cx % 48
      if cy % 48 = 0 && 4 ≤ r then (List.range 136).map (fun j => wireKey d (r - 4) 2 (136 * p + j))
      else if cy % 48 = 47 && r < 12 then (List.range 136).map (fun j => wireKey d (r + 4) 0 (136 * p + j)) else []
    | _ => []

/-- Whether a driver selector is known to be enabled, or known to be 255. -/
def driverOn (look : Look) (x : Nat × Nat × Nat) : Bool :=
  match look x.1 x.2.1 with
  | some w => bits w x.2.2 8 != 255
  | none => false
def driverOff (look : Look) (x : Nat × Nat × Nat) : Bool :=
  match look x.1 x.2.1 with
  | some w => bits w x.2.2 8 == 255
  | none => false

/-- Whether the region of a wire's name, or the one across, is declared. -/
def nearDeclared (ws : List W36) (key : Nat) : Bool := declares ws (key / 8768 / 4 / 16) (key / 8768 / 4 % 16)
def farDeclared (ws : List W36) (key : Nat) : Bool :=
  match acrossSide (key / 8768 / 4 % 16) (key / 8768 % 4) with
  | some n => declares ws (key / 8768 / 4 / 16) n
  | none => false

/-- A selector that the load has written differs from the claim table (R143): an enabled one the table does not name, or a wire of
the table on which no selector of a declared region is enabled. -/
def Chip.claimMismatch (s : Chip) (ws : List W36) (x : Inflate) : Bool :=
  let look := s.loadLook ws x
  let keys := (claimWords ws).map claimKey
  let mine := (dirEntries ws).flatMap (fun e => if e.kind < 2 then (e.uses.filter (fun u => u.2 < x.frames)).map (·.1) else [])
  let driven (k : Nat) : Bool := match wireDrivers k with
    | some (a, b) => (nearDeclared ws k && driverOn look a) || (farDeclared ws k && driverOn look b)
    | none => false
  let still (k : Nat) : Bool := match wireDrivers k with
    | some (a, b) => (!nearDeclared ws k || driverOff look a) && (!farDeclared ws k || driverOff look b)
    | none => true
  mine.any (fun fa => (frameWires fa).any (fun k => driven k && !keys.contains k)) || keys.any still

/-- The claims that the table records: each wire with whether the region of its name, or the one across, holds the claim. With both
regions declared the image's own selectors tell (R172, R672). -/
def Chip.claimRecords (s : Chip) (ws : List W36) (x : Inflate) : List (Nat × Bool × Bool) :=
  let look := s.loadLook ws x
  (claimWords ws).map (fun w =>
    let k := claimKey w
    let a := nearDeclared ws k
    let b := farDeclared ws k
    match wireDrivers k with
    | some (p, q) =>
      let on := (a && driverOn look p, b && driverOn look q)
      if on.1 || on.2 then (k, on.1, on.2) else (k, a, b && !a)
    | none => (k, a, b && !a))

end Sys2Proof.Machine
end

