-- ==== Sys2Proof/Machine/DroneBase.lean ====
section
/-! DEFINITION. Command ports: packets assembled and carried out one at a time, replies, and the checks every command passes
first (R561 to R577). -/

namespace Sys2Proof.Machine

/-! ### Ports (R561 to R565) -/

def Port.jtag : Nat := 0
def Port.svc : Nat := 1
def Port.fab : Nat := 2
def Port.krn : Nat := 3
def Port.con : Nat := 4

/-- A command port. -/
def Chip.cmd (s : Chip) (p : Nat) : CmdPort := s.cmds.get p

/-- A command port changed. -/
def Chip.onCmd (s : Chip) (p : Nat) (f : CmdPort → CmdPort) : Chip := { s with cmds := s.cmds.upd p f }

/-- The die whose Drone leads: D0, or the lowest-numbered die not in reset (R565). -/
def Chip.lead (s : Chip) : Nat := ((List.range 4).find? (fun d => !s.dieInReset d)).getD 0

/-- Whether a port answers: the Drones run, and JTAG, SVC and CON while D0 is not in reset (R157, R565). -/
def Chip.portAnswers (s : Chip) (p : Nat) : Bool :=
  s.alive && (p = Port.fab || p = Port.krn || !s.dieInReset 0)

/-- Whether a port takes words from its transport (R564). -/
def Chip.portTakes (s : Chip) (p : Nat) : Bool := s.portAnswers p && s.portAuth p != 0

/-! ### The catalogue (R580, R604) -/

/-- The least authority of an opcode: 1 OBSERVER, 2 OPERATOR, 3 OWNER; RESET needs OWNER in SECURE_HALT. The link messages are
admitted under R457 and need none. -/
def opAuth (op : Nat) (halted : Bool) : Nat :=
  match op with
  | 0x001 | 0x002 | 0x003 | 0x004 | 0x006 | 0x008 | 0x180 | 0x181 | 0x182 | 0x281 => 1
  | 0x005 => if halted then 3 else 2
  | 0x183 | 0x184 | 0x185 | 0x301 | 0x386 => 3
  | 0x380 | 0x381 | 0x382 | 0x383 | 0x384 | 0x385 => 0
  | _ => 2

/-- Whether a vendor-test opcode (R580, R593). -/
def vendorOp (op : Nat) : Bool := 0x3E0 ≤ op && op ≤ 0x3FF

/-- Whether one of the link messages 0x380 to 0x385, which only links carry (R457, R580). -/
def linkOp (op : Nat) : Bool := 0x380 ≤ op && op ≤ 0x385

/-- Whether a number of parameter words is allowed for an opcode. -/
def opLength (op n : Nat) (w0 : W36) : Bool :=
  match op with
  | 0x003 | 0x004 | 0x005 | 0x009 | 0x00A | 0x083 | 0x084 | 0x085 | 0x086 | 0x089 | 0x100 | 0x183 | 0x185 | 0x280 | 0x300 |
    0x301 => n = 1
  | 0x006 => n = 2
  | 0x007 => n = 3
  | 0x080 | 0x082 => n = 2 || (n = 1 && bits w0 0 2 != 3)
  | 0x081 | 0x088 => 1 ≤ n
  | 0x087 => n = 4
  | 0x08A => 5 ≤ n && n ≤ 20 && (n = 4 + bits w0 1 5 || bits w0 1 5 = 0 || 16 < bits w0 1 5)
  | 0x181 => n = 48
  | 0x184 => n = 20
  | 0x200 => n = 5
  | 0x386 => n = 10
  | 0x380 | 0x381 | 0x382 | 0x383 | 0x384 | 0x385 => true
  | _ => n = 0

/-! ### Replies (R572, R576) -/

/-- The reply of a port's running command made ready: sent as a CMD packet where the command came as one, put out at once on
CON, and held in the port's reply register otherwise (R568, R569, R576). -/
def Chip.setReply (s : Chip) (p status : Nat) (ws : List W36) : Chip :=
  let x := s.cmd p
  match x.running with
  | some (h :: _) =>
    let r := replyTo h status ws
    let s := s.onCmd p (fun x => { x with running := none, runningFrom := none, begun := false })
    match x.runningFrom with
    | some b => s.submit b.gateway 3 { dev := b.dev, router := b.router, port := b.port, typ := Typ.cmd, flow := b.flow, body := quads r }
    | none =>
      let s := s.onCmd p (fun x => { x with reply := some r, readPos := 0, unread := p != Port.con, repeatMark := false })
      if p = Port.con then { s with returned := r } else s
  | _ => s.onCmd p (fun x => { x with running := none, runningFrom := none, begun := false })

/-- A command refused for want of authority, logged at most once per second per port (R563). -/
def Chip.authRefused (s : Chip) (p op : Nat) : Chip :=
  let due : Bool := match (s.cmd p).lastRefused with
    | some t => t + 10 ^ 9 ≤ s.now
    | none => true
  s.when due (fun s =>
    (s.logEv s.lead Ev.drnAuthRefused (p + op * 8)).onCmd p (fun x => { x with lastRefused := some s.now }))

/-- The reply of a port's running command that its authority refuses (R563). -/
def Chip.replyAuth (s : Chip) (p op : Nat) : Chip := (s.authRefused p op).setReply p St.auth []

/-- What a vendor-test command meets: authority and state as R593 and R604 give them; its effect is not described, so the
status of its reply is free. -/
def Chip.vendorCmd (s : Chip) (p : Nat) (h : W36) : Chip :=
  let auth := if s.sec.level = 0 || (s.sec.level = 1 && s.sec.unlocked) then s.portAuth p else 0
  if auth < 3 then s.replyAuth p (cmdOp h)
  else if s.dev ≠ .blank && s.dev ≠ .user then s.setReply p St.state [word (s.dev.code + stateMask [3, 7]), 0]
  else s.setReply p (Config.vendorStatus h).toNat []

/-- The buffered packet of a port starts to run once nothing runs there. One whose TAG is that of the reply held is answered
with that reply; a packet at a CLOSED FAB, an opcode outside the catalogue, a vendor-test opcode and a link message, which is none of
a port's commands, are answered at once; any other packet waits for its command (R564, R573, R576, R577). -/
def Chip.startNext (s : Chip) (p : Nat) : Chip :=
  let x := s.cmd p
  match x.running, x.buffered with
  | none, some (h :: ws) =>
    let held : Bool := match x.reply with
      | some (r :: _) => x.bufferedFrom.isNone && cmdTag r == cmdTag h
      | _ => false
    let s := s.onCmd p (fun x => { x with buffered := none, bufferedFrom := none })
    if held then s.onCmd p (fun x => { x with repeatMark := true, readPos := 0, unread := true })
    else
      let s := s.onCmd p (fun y => { y with running := some (h :: ws), runningFrom := x.bufferedFrom, begun := false })
      let s := if x.bufferedFrom.isSome then s
        else s.onCmd p (fun x => { x with reply := none, readPos := 0, unread := false, repeatMark := false })
      if p = Port.fab && s.portAuth p = 0 then s.replyAuth p (cmdOp h)
      else if vendorOp (cmdOp h) then s.vendorCmd p h
      else if (opStates (cmdOp h)).isNone then s.setReply p St.unknownOp []
      else if linkOp (cmdOp h) then s.replyAuth p (cmdOp h)
      else s
  | _, _ => s

/-- A port's running command replies, and the next packet starts. -/
def Chip.finish (s : Chip) (p status : Nat) (ws : List W36) : Chip := (s.setReply p status ws).startNext p

/-- A word arrives at a port: discarded while a packet is buffered; the last word of a packet completes it (R571, R575). -/
def Chip.portWord (s : Chip) (p : Nat) (w : W36) : Chip :=
  let x := s.cmd p
  if x.buffered.isSome then s.when (p == Port.fab) (fun s => s.setFlag s.lead F.DRN_MBOX_STATUS_OVERRUN true)
  else
    let ws := x.partWords ++ [w]
    if ws.length = 1 + cmdLen (ws.headD 0) then
      (s.onCmd p (fun x => { x with partWords := [], buffered := some ws, bufferedFrom := none })).startNext p
    else s.onCmd p (fun x => { x with partWords := ws })

/-- The words of a CMD packet arrive at a port; they are discarded while a packet is buffered (R569, R575). -/
def Chip.portPacket (s : Chip) (p : Nat) (ws : List W36) (back : ReplyPath) : Chip :=
  let n := 1 + cmdLen (ws.headD 0)
  if (s.cmd p).buffered.isSome then s
  else (s.onCmd p (fun x => { x with
      buffered := some ((ws ++ List.replicate n 0).take n), bufferedFrom := some back })).startNext p

/-- The header a reply register shows before its reply is ready: BUSY, with the tag and die of the command (R576). -/
def busyHead (x : CmdPort) : W36 :=
  let h := match x.running, x.buffered with
    | some (h :: _), _ => h
    | _, some (h :: _) => h
    | _, _ => 0
  word (St.busy * 2 ^ 28 + cmdTag h * 2 ^ 12 + cmdDie h)

/-- The word that the reply register of a port shows, and the port after it is read (R576). -/
def CmdPort.readWord (x : CmdPort) : CmdPort × W36 :=
  match x.reply with
  | none => (x, busyHead x)
  | some r =>
    let w := r.getD x.readPos 0
    let w := if x.readPos = 0 && x.repeatMark then w ||| 4 else w
    if x.readPos + 1 < r.length then ({ x with readPos := x.readPos + 1, unread := false }, w)
    else ({ x with readPos := 0, unread := false, repeatMark := true }, w)

/-- The reply register of a port read n times. -/
def Chip.replyWords (s : Chip) (p : Nat) : Nat → Chip × List W36
  | 0 => (s, [])
  | n + 1 =>
    let (x, w) := (s.cmd p).readWord
    let (s, ws) := Chip.replyWords (s.onCmd p (fun _ => x)) p n
    (s, w :: ws)

/-! ### Carrying out a command (R563, R573) -/

/-- The packet of opcode op that runs at a port and has not begun: the checks of length, authority and device state, then its
own effect (R573). -/
def Chip.command (s : Chip) (p op : Nat) (run : Chip → W36 → List W36 → Chip) : Chip :=
  match (s.cmd p).running with
  | some (h :: ws) =>
    if !s.portAnswers p || (s.cmd p).begun || cmdOp h != op then s
    else if !opLength op ws.length (ws.headD 0) then s.finish p St.length []
    else if s.portAuth p < opAuth op (s.dev == .secureHalt) then (s.replyAuth p op).startNext p
    else if !((opStates op).getD []).contains s.dev.code then s.finish p St.state (s.stateWords op none)
    else run s h ws
  | _ => s

/-- The packet that `command` would carry out: its header and parameter words. -/
def Chip.admitted (s : Chip) (p op : Nat) : Option (W36 × List W36) :=
  match (s.cmd p).running with
  | some (h :: ws) =>
    if s.portAnswers p && !(s.cmd p).begun && cmdOp h == op && opLength op ws.length (ws.headD 0) &&
        opAuth op (s.dev == .secureHalt) ≤ s.portAuth p && ((opStates op).getD []).contains s.dev.code then some (h, ws) else none
  | _ => none

/-- A command that names a die: RESOURCE where that die is in reset (R573). -/
def Chip.onNamedDie (s : Chip) (p : Nat) (h : W36) (run : Chip → Nat → Chip) : Chip :=
  if s.dieInReset (cmdDie h) then s.finish p St.resource [] else run s (cmdDie h)

/-- A STATE reply that names a block: its state, and the mask of its states in which the command is allowed (R574). -/
def Chip.finishState (s : Chip) (p op st : Nat) (allowed : List Nat) : Chip :=
  s.finish p St.state (s.stateWords op (some (st, allowed)))

/-- A running command goes on beyond its own step. -/
def Chip.begin (s : Chip) (p : Nat) : Chip := s.onCmd p (fun x => { x with begun := true })

end Sys2Proof.Machine
end

