-- ==== Sys2Proof/Machine/RegionBase.lean ====
section
/-! DEFINITION. What every event of a region is made of: its collar closed and opened, its claims recorded, enabled and dropped,
its stages, and a load that ends (R128 to R151). -/

namespace Sys2Proof.Machine

/-- A region's state set. -/
def Chip.setRegion (s : Chip) (d r st : Nat) : Chip := s.setFld d (F.CFG_REGION_STATUS_STATE r) st

/-! ### The collar (R134, R138, R139) -/

/-- The collar closes, if open, and the region enters a state in which it is closed. -/
def Chip.leaveActive (s : Chip) (d r st : Nat) : Chip :=
  let open' := s.collarOpen d r
  let s := s.when open' (fun s => s.sampleCollar d r)
  (s.setRegion d r st).when open' (fun s => s.regionWorkers d r false)

/-- Several regions close their collars at one instant and enter a state: every latch samples before any of them has changed
(R139, R147). Regions are numbered 16 d + r. -/
def Chip.leaveTogether (s : Chip) (rs : List Nat) (st : Nat) : Chip :=
  let was := rs.filter (fun i => s.collarOpen (i / 16) (i % 16))
  let s := s.each was (fun s i => s.sampleCollar (i / 16) (i % 16))
  let s := s.each rs (fun s i => s.setRegion (i / 16) (i % 16) st)
  s.each was (fun s i => s.regionWorkers (i / 16) (i % 16) false)

/-- The collar opens: the region enters ACTIVE, its workers are eligible again, and its gates show their heads (R124, R138,
R139). -/
def Chip.enterActive (s : Chip) (d r : Nat) : Chip :=
  let s := (s.setFlag d (F.CFG_REGION_STATUS_ACT_PENDING r) false).onRegion d r (fun x => { x with act := none })
  ((s.setRegion d r Rgn.active).regionWorkers d r true).checkGates d r

/-- The raise of a die's next waiting domain, as a place becomes free (R546). -/
def Chip.nextRaise (s : Chip) (d : Nat) : Chip :=
  let c := s.clock d
  match c.waiting with
  | dom :: rest =>
    if c.raising.length < 2 then
      let s := s.onClock d (fun c => { c with raising := c.raising ++ [dom], waiting := rest })
      (s.setFlag d (F.PWR_DOM_STATUS_WAKE_PENDING dom) false).raise d dom
    else s
  | [] => s

/-- A region's domain is held in RUN, as the state that the region enters asks for (R152; log 200). -/
def Chip.holdRun (s : Chip) (d r : Nat) : Chip :=
  if s.asleep d r || s.domPhase d r = 2 then
    let s := (s.setFld d (F.PWR_DOM_STATUS_STATE r) 0).setFld d (F.PWR_DOM_STATUS_PHASE r) 0
    let s := (s.setFlag d (F.PWR_DOM_STATUS_WAKE_PENDING r) false).setFlag d (F.PWR_DOM_STATUS_ON_OSC r) false
    let s := s.onDom d r (fun x => { x with committed := false, queued := false })
    (s.onClock d (fun c => { c with raising := c.raising.filter (fun x => x != r), waiting := c.waiting.filter (fun x => x != r) })).nextRaise d
  else s

/-- A pending activation is cancelled (R151). -/
def Chip.cancelAct (s : Chip) (d r : Nat) : Chip :=
  (s.setFlag d (F.CFG_REGION_STATUS_ACT_PENDING r) false).onRegion d r (fun x => { x with act := none })

/-! ### Claims (R142, R144, R672) -/

/-- The region, side and index of a wire's key. -/
def wireRegion (key : Nat) : Nat := key / 8768 / 4 % 16
def wireSide (key : Nat) : Nat := key / 8768 % 4
def wireIndex (key : Nat) : Nat := key % 8768

/-- A region's claims changed: those on wires of its own name by one function, those on its neighbours' wires by the other. -/
def Chip.onClaims (s : Chip) (d r : Nat) (here nbr : Claim → Claim) : Chip :=
  s.each (SMap.keysIn s.claims (wireKey d 0 0 0) (wireKey (d + 1) 0 0 0)) (fun s k =>
    if wireRegion k = r then { s with claims := s.claims.upd k here }
    else if acrossSide (wireRegion k) (wireSide k) = some r then { s with claims := s.claims.upd k nbr }
    else s)

/-- A region's claims removed (R142). -/
def Chip.dropClaims (s : Chip) (d r : Nat) : Chip :=
  s.onClaims d r (fun c => { c with here := false, hereOn := false }) (fun c => { c with nbr := false, nbrOn := false })

/-- A region's claims no longer enabled (R144). -/
def Chip.disableClaims (s : Chip) (d r : Nat) : Chip :=
  s.onClaims d r (fun c => { c with hereOn := false }) (fun c => { c with nbrOn := false })

/-- A second claim on a wire has become enabled: recorded and logged (R144). -/
def Chip.contention (s : Chip) (d k : Nat) : Chip :=
  let s := s.setFlag d F.CFG_CONTENTION_SEEN true
  let s := s.setFld d F.CFG_CONTENTION_REGION (wireRegion k)
  let s := s.setFld d F.CFG_CONTENTION_SIDE (wireSide k)
  let s := s.setFld d F.CFG_CONTENTION_INDEX (wireIndex k)
  let s := s.satFld d F.CFG_CONTENTION_COUNT 1
  s.logEv d Ev.boundaryContention (bits (s.reg d Reg.CFG_CONTENTION) 1 19)

/-- A region's recorded claims become enabled at stage 1 (R144). -/
def Chip.enableClaims (s : Chip) (d r : Nat) : Chip :=
  s.each (SMap.keysIn s.claims (wireKey d 0 0 0) (wireKey (d + 1) 0 0 0)) (fun s k =>
    let c := s.claims.get k
    if wireRegion k = r && c.here && !c.hereOn then
      let s := { s with claims := s.claims.upd k (fun c => { c with hereOn := true }) }
      s.when c.nbrOn (fun s => s.contention d k)
    else if acrossSide (wireRegion k) (wireSide k) = some r && c.nbr && !c.nbrOn then
      let s := { s with claims := s.claims.upd k (fun c => { c with nbrOn := true }) }
      s.when c.hereOn (fun s => s.contention d k)
    else s)

/-- CFG_CLAIM_DATA as CFG_CLAIM_SEL selects it (chapter 4). -/
def Chip.claimData (s : Chip) (d : Nat) : W36 :=
  let c := s.claims.get (wireKey d (s.fld d F.CFG_CLAIM_SEL_REGION) (s.fld d F.CFG_CLAIM_SEL_SIDE) (s.fld d F.CFG_CLAIM_SEL_INDEX))
  let ok := s.fld d F.CFG_CLAIM_SEL_INDEX < 6720
  word (if ok then ofBool c.here + 2 * ofBool c.nbr + 4 * ofBool (c.hereOn && c.nbrOn) else 0)

/-! ### EMPTY, and loads that end (R130, R148) -/

/-- A region enters EMPTY: its collar closed, its claims dropped, its activation cancelled, its flip-flops at INIT_Q (R128). -/
def Chip.emptyRegion (s : Chip) (d r : Nat) : Chip :=
  if s.regionState d r = Rgn.empty then s
  else
    let s := (((s.leaveActive d r Rgn.empty).dropClaims d r).cancelAct d r).initRegionQ d r
    let s := s.setFld d (F.CFG_REGION_STATUS_STAGE r) 0
    s.onRegion d r (fun x => { x with accepted := false, wasActive := false, stepping := false, deviceRelease := false })

/-- The outcome of the last failed load, on every die (CFG_FAIL and CFG_FAIL_FRAME). -/
def Chip.noteFail (s : Chip) (status cause slot frame : Nat) : Chip :=
  s.upTo 4 (fun s d =>
    let s := s.setReg d Reg.CFG_FAIL (word (status + cause * 2 ^ 8 + ofBool (slot == 1) * 2 ^ 12))
    s.setFld d F.CFG_FAIL_FRAME_FRAME frame)

/-- CFG_STATUS.PASS on every die. -/
def Chip.showPass (s : Chip) (n : Nat) : Chip := s.upTo 4 (fun s d => s.setFld d F.CFG_STATUS_PASS n)

/-- A load takes the configuration engine of key k: 0 to 3 a die's, 4 the whole device's. -/
def Chip.beginLoad (s : Chip) (k : Nat) (l : Loader) : Chip :=
  ({ s with loads := s.loads.set k (some l) }).when (decide (l.kind ≠ LoadKind.verify)) (fun s => s.showPass 0)

/-- Whether a load is in progress on a die: one its engine carries out, or one that declares regions of it (R131). -/
def Chip.engineBusy (s : Chip) (d : Nat) : Bool :=
  s.loads.any (fun e => match e.2 with
    | some l => e.1 = d || e.1 = 4 || bits l.regions (16 * d) 16 != 0
    | none => false)

/-! ### UPDATE_APPLY (R585) -/

/-- The service of a die ends: AUTO_ACT of the regions it loaded is restored, and its command replies. -/
def Chip.endUpdate (s : Chip) (d status : Nat) (ws : List W36) : Chip :=
  match s.updates.get d with
  | some u =>
    let s := s.each u.savedAuto (fun s a => s.setFlag (a.1 / 16) (F.CFG_REGION_CTRL_AUTO_ACT (a.1 % 16)) a.2)
    let s := { s with updates := s.updates.set d none }
    match u.port with
    | some p => s.finish p status ws
    | none => s
  | none => s

/-- The service stops at its present image with a status (R585). -/
def Chip.stopUpdate (s : Chip) (d status : Nat) : Chip :=
  match s.updates.get d with
  | some u =>
    (s.logEv d Ev.updStopped (u.index + status * 16)).endUpdate d St.partial' [word u.index, word status, s.reg d Reg.CFG_FAIL]
  | none => s

/-- The load of the service's present image begins (R585). -/
def Chip.updateLoad (s : Chip) (d : Nat) : Chip :=
  match s.updates.get d with
  | some u =>
    let (cs, byte) := u.images.getD u.index (0, 0)
    if s.engineBusy d then s.stopUpdate d St.busy
    else s.beginLoad d { kind := .part true, src := .flash cs byte, update := true, slot := 3 }
  | none => s

/-- The service goes on once every region of its present image is ACTIVE (R585). -/
def Chip.updateProgress (s : Chip) (d : Nat) : Chip :=
  match s.updates.get d with
  | some u =>
    if u.waiting.isEmpty || !u.waiting.all (fun k => s.regionState (k / 16) (k % 16) == Rgn.active) then s
    else
      let s := s.logEv d Ev.updRegionDone u.index
      if u.index + 1 < u.images.length then
        ({ s with updates := s.updates.set d (some { u with index := u.index + 1, waiting := [] }) }).updateLoad d
      else s.endUpdate d St.ok []
  | none => s

/-- The loader of key k is done with, and the command that waits for it replies (R177, R581, R584, R585). -/
def Chip.endLoad (s : Chip) (k status : Nat) (ws : List W36) : Chip :=
  match s.loads.get k with
  | some l =>
    let s := { s with loads := s.loads.set k none }
    if l.update then s.stopUpdate k status
    else match l.port with
      | some p => s.finish p status ws
      | none => s
  | none => s

/-- A declared region of a load. -/
def Loader.declares (l : Loader) (d r : Nat) : Bool := l.regions.getLsbD (16 * d + r)

/-- Payload corruption of a partial load in its write pass: every region of it that is LOADING enters EMPTY and is logged, and
the load ends with a status (R130, R148). -/
def Chip.corruptPart (s : Chip) (k status cause frame : Nat) : Chip :=
  match s.loads.get k with
  | some l =>
    let s := s.noteFail status cause l.slot frame
    let s := s.upTo 64 (fun s i =>
      if l.regions.getLsbD i && s.regionState (i / 16) (i % 16) == Rgn.loading then
        (s.emptyRegion (i / 16) (i % 16)).logEv (i / 16) Ev.regionLoadFail (i % 16 + cause * 16)
      else s)
    s.endLoad k status []
  | none => s

/-- A region of a partial load in its write pass leaves LOADING by another event: the load ends for every region of it, as
payload corruption (R148). -/
def Chip.leftLoading (s : Chip) (d r : Nat) : Chip :=
  s.upTo 4 (fun s k => match s.loads.get k with
    | some l => s.when (l.writing && l.declares d r) (fun s => s.corruptPart k St.integrity 9 0)
    | none => s)

/-- A region enters EMPTY by an event of its own: a load that was writing it ends with it, and the region is logged like every
other region of that load (R130, R148). -/
def Chip.regionToEmpty (s : Chip) (d r : Nat) : Chip :=
  if s.regionState d r = Rgn.loading then (s.leftLoading d r).emptyRegion d r else s.emptyRegion d r

/-! ### Stages (R149, R150, R187) -/

/-- One gate is emptied, by the region, side and number of its write half (R127). -/
def Chip.emptyGate (s : Chip) (d r side g : Nat) : Chip := s.onGate d r side g (fun _ => {})

/-- Every gate with a half in a region is emptied, as configuration writes the region's frames (R127). -/
def Chip.emptyGates (s : Chip) (d r : Nat) : Chip := s.each (s.gatesOf d r) (fun s (q, side, g) => s.emptyGate d q side g)

/-- The fabric of a region as its completed load leaves it: flip-flops at INIT_Q, LUT RAMs at INIT, gates empty, and the collar
values in force (R43, R54, R127, R134). -/
def Chip.configured (s : Chip) (d r : Nat) : Chip :=
  (((s.initRegionQ d r).initLutRam d r).emptyGates d r).takeCollars d r

/-- A configuration frame of a region, frame f of it, written again with its own content: its cells' flip-flops take INIT_Q and
their LUT RAMs INIT, a gate with the half it configures is emptied (R43, R54, R127; log 201). -/
def Chip.rewriteFrame (s : Chip) (d r f : Nat) : Chip :=
  if f < 13824 then
    if f % 6 = 0 then
      let cx := 48 * (r % 4) + f / 6 % 48
      let cy := 48 * (r / 4) + f / 6 / 48
      { s with
        ff := (List.range 64).foldl (fun m n => m.set (cellKey d cx cy n) (bit (s.cellWord d cx cy n) 20)) s.ff
        lutRam := SMap.dropRange s.lutRam (cellKey d cx cy 0) (cellKey d cx cy 64) }
    else s
  else if 16000 ≤ f && f < 16128 then
    let side := (f - 16000) / 32
    let g := f % 32
    let s := s.emptyGate d r side g
    match acrossSide r side with
    | some n => s.emptyGate d n (opposite side) g
    | none => s
  else s

/-- Stage 1 of a region: its claims are enabled. -/
def Chip.stageOne (s : Chip) (d r : Nat) : Chip := (s.setFld d (F.CFG_REGION_STATUS_STAGE r) 1).enableClaims d r

/-- A region enters STAGING (R130, R149): loads counted, stage 1 at once; a region of a full load waits for the device's
release instead (R187). -/
def Chip.enterStaging (s : Chip) (d r : Nat) (device : Bool) : Chip :=
  let s := s.setRegion d r Rgn.staging
  let s := s.satFld d (F.CFG_REGION_STATUS_LOAD_COUNT r) 1
  let s := s.onRegion d r (fun x => { x with deviceRelease := device, stepping := !device })
  if device then s else s.stageOne d r

end Sys2Proof.Machine
end

