-- ==== Sys2Proof/Machine/Regions.lean ====
section
/-! DEFINITION. Region events and commands: the staged release of one region, faults of its frames, isolation, resumption, reset,
clearing and activation by a window of positions (chapter 4). -/

namespace Sys2Proof.Machine

/-! ### Stages (R149, R150) -/

/-- The last step of a release: the collar opens where AUTO_ACT = 1 and no activation has been accepted (R149, R188). -/
def Chip.stageFour (s : Chip) (d r : Nat) : Chip :=
  s.when (s.regionState d r == Rgn.staging && s.flag d (F.CFG_REGION_CTRL_AUTO_ACT r) && !(s.region d r).accepted)
    (fun s => s.enterActive d r)

/-- REGION_STAGE_TIMER: STAGE_DELAY has passed since the last step of a region's own release (R149, R150). -/
def Chip.regionStage (s : Chip) (d r : Nat) : Chip :=
  let st := s.regionState d r
  if !(s.region d r).stepping || st = Rgn.empty || st = Rgn.loading then s
  else
    let stage := s.fld d (F.CFG_REGION_STATUS_STAGE r)
    if stage < 3 then s.setFld d (F.CFG_REGION_STATUS_STAGE r) (stage + 1)
    else (s.onRegion d r (fun x => { x with stepping := false })).stageFour d r

/-- REGION_STAGE_TIMER (R149). -/
def execRegionStageTimer (d : Die) (r : Fin 16) (s : State) : Out := s.onDieFabric d (fun c => c.regionStage d r)

/-! ### Frame checks (R130, R496) -/

/-- REGION_FAULT: a configuration frame of the region fails its check. Release stages still to come go on (log 202), and a
domain asleep returns to RUN (log 200). In FAULTED it is the frame being rewritten that fails again. -/
def Chip.regionFault (s : Chip) (d r frame : Nat) : Chip :=
  let st := s.regionState d r
  if st = Rgn.staging || st = Rgn.active || st = Rgn.isolated || st = Rgn.sleeping then
    let s := (s.leaveActive d r Rgn.faulted).when (st = Rgn.sleeping) (fun s => s.holdRun d r)
    let s := s.setFld d (F.CFG_REGION_STATUS_FAULT_CAUSE r) 1
    (s.onRegion d r (fun x => { x with faultFrame := frame })).logEv d Ev.regionFault (r + frame * 16)
  else if st = Rgn.faulted && s.flag d (F.CFG_REGION_CTRL_AUTO_REPAIR r) && s.fld d (F.CFG_REGION_STATUS_FAULT_CAUSE r) = 1 &&
      frame = (s.region d r).faultFrame then
    s.setFld d (F.CFG_REGION_STATUS_FAULT_CAUSE r) 3
  else s

/-- REGION_FAULT (R130). -/
def execRegionFault (d : Die) (r : Fin 16) (frame : BitVec 25) (s : State) : Out :=
  s.onDieFabric d (fun c => c.regionFault d r frame.toNat)

/-- REGION_REPAIRED: with AUTO_REPAIR = 1 the failing frame is rewritten from its source and verifies, at once or after a rewrite
that failed (R130). -/
def Chip.regionRepaired (s : Chip) (d r : Nat) : Chip :=
  let cause := s.fld d (F.CFG_REGION_STATUS_FAULT_CAUSE r)
  if s.regionState d r = Rgn.faulted && s.flag d (F.CFG_REGION_CTRL_AUTO_REPAIR r) && (cause = 1 || cause = 3) then
    let s := s.rewriteFrame d r ((s.region d r).faultFrame % 2 ^ 14)
    let s := (s.setRegion d r Rgn.isolated).setFlag d (F.CFG_REGION_STATUS_REPAIRED r) true
    let s := s.setFld d (F.CFG_REGION_STATUS_FAULT_CAUSE r) 0
    s.logEv d Ev.regionRepaired (r + (s.region d r).faultFrame * 16)
  else s

/-- REGION_REPAIRED (R130). -/
def execRegionRepaired (d : Die) (r : Fin 16) (s : State) : Out := s.onDieFabric d (fun c => c.regionRepaired d r)

/-! ### Activation by a window (R151) -/

/-- REGION_ACTIVATE on a region whose state allows it: the chip after it, and the status of its reply (R151). -/
def Chip.activate (s : Chip) (d r ch lo hi : Nat) : Chip × Nat :=
  let len := (hi + 2 ^ 48 - lo % 2 ^ 48) % 2 ^ 48
  if len = 0 || 2 ^ 47 ≤ len then (s, St.param)
  else if s.dieInReset d then (s, St.resource)
  else if atOrBeyond (s.chnPos d ch) (hi * 256) then (s, St.refused)
  else
    let w : ActWindow := { chan := ch, lo := lo, hi := hi }
    ((s.setFlag d (F.CFG_REGION_STATUS_ACT_PENDING r) true).onRegion d r (fun x => { x with act := some w, accepted := true }), St.ok)

/-- The states of a region in which REGION_ACTIVATE is accepted. -/
def activateStates : List Nat := [Rgn.loading, Rgn.staging, Rgn.isolated]

/-- A pending window compared with the snapshot of tick n (R130, R151). -/
def Chip.windowTick (s : Chip) (n d r : Nat) : Chip :=
  match (s.region d r).act with
  | some w =>
    let st := s.regionState d r
    match (s.chan d w.chan).snapAt n with
    | some (q, _) =>
      if st != Rgn.staging && st != Rgn.isolated then s
      else if atOrBeyond q (w.hi * 256) then (s.cancelAct d r).logEv d Ev.regionActMissed r
      else if 3 ≤ s.fld d (F.CFG_REGION_STATUS_STAGE r) && atOrBeyond q (w.lo * 256) then s.enterActive d r
      else s
    | none => s
  | none => s

/-- AGREEMENT_TICK: the position dies agree, pending windows are compared, and positions go out on Karn links (R151, R367,
R461). -/
def execAgreementTick (s : State) : Out :=
  s.onFabric (fun c =>
    let c := c.agreementTick
    let n := c.chnAll.tick
    let c := c.upTo 4 (fun c d => c.when (c.runs d) (fun c => c.upTo 16 (fun c r => c.windowTick n d r)))
    let c := c.upTo 4 (fun c d => c.updateProgress d)
    c.when (c.runs 0) (fun c => c.posSend))

/-! ### Region commands (R130, R580) -/

/-- A region command: STATE with the region's state and the states that allow it, RESOURCE on a die in reset, else its effect
(R130, R573). -/
def Chip.regionCommand (s : Chip) (p op : Nat) (allowed : List Nat) (ok : Chip → Nat → Nat → Bool)
    (act : Chip → Nat → Nat → Chip) : Chip :=
  s.command p op (fun s h ws =>
    let r := bits (ws.headD 0) 0 4
    let d := cmdDie h
    if !allowed.contains (s.regionState d r) || !ok s d r then s.finishState p op (s.regionState d r) allowed
    else s.onNamedDie p h (fun s d => ((act s d r).finish p St.ok []).upTo 4 (fun s e => s.updateProgress e)))

/-- REGION_ISOLATE: the collar closes, a pending activation is cancelled; a region in STAGING finishes its stages (R130). -/
def Chip.isolate (s : Chip) (d r : Nat) : Chip := (s.cancelAct d r).leaveActive d r Rgn.isolated

/-- REGION_ISOLATE (R130). -/
def execRegionIsolate (p : Fin 5) (s : State) : Out :=
  s.onFabric (fun c => c.regionCommand p 0x083 [Rgn.staging, Rgn.active, Rgn.isolated]
    (fun c d r => c.regionState d r != Rgn.isolated || (c.region d r).act.isSome) (fun c d r => c.isolate d r))

/-- REGION_RESUME (R130). -/
def execRegionResume (p : Fin 5) (s : State) : Out :=
  s.onFabric (fun c => c.regionCommand p 0x084 [Rgn.isolated] (fun _ _ _ => true) (fun c d r => c.enterActive d r))

/-- REGION_RESET: write enables off, flip-flops at INIT_Q, user resets; then steps 2 and 3 again (R150). -/
def Chip.regionReset (s : Chip) (d r : Nat) : Chip :=
  ((s.initRegionQ d r).setFld d (F.CFG_REGION_STATUS_STAGE r) 1).onRegion d r (fun x => { x with stepping := true })

/-- REGION_RESET (R150). -/
def execRegionReset (p : Fin 5) (s : State) : Out :=
  s.onFabric (fun c => c.regionCommand p 0x085 [Rgn.isolated] (fun _ _ _ => true) (fun c d r => c.regionReset d r))

/-- REGION_CLEAR: the region enters EMPTY; a domain that the region held asleep returns to RUN (R130, R152; log 200). -/
def Chip.clearRegion (s : Chip) (d r : Nat) : Chip :=
  let slept : Bool := s.regionState d r == Rgn.sleeping
  (s.regionToEmpty d r).when slept (fun s => s.holdRun d r)

/-- REGION_CLEAR (R130). -/
def execRegionClear (p : Fin 5) (s : State) : Out :=
  s.onFabric (fun c => c.regionCommand p 0x086 [1, 2, 3, 4, 5, 6] (fun _ _ _ => true) (fun c d r => c.clearRegion d r))

/-- The window of a REGION_ACTIVATE's parameter words, from its second word. -/
def windowOf (ws : List W36) : Nat × Nat :=
  let hi := ws.getD 3 0
  ((ws.getD 1 0).toNat + bits hi 0 12 * 2 ^ 36, (ws.getD 2 0).toNat + bits hi 12 12 * 2 ^ 36)

/-- REGION_ACTIVATE (R151). -/
def execRegionActivate (p : Fin 5) (s : State) : Out :=
  s.onChip (fun c => c.command p 0x087 (fun c h ws =>
    let d := cmdDie h
    let r := bits (ws.headD 0) 0 4
    if !activateStates.contains (c.regionState d r) then c.finishState p 0x087 (c.regionState d r) activateStates
    else
      let (lo, hi) := windowOf ws
      let (c, st) := c.activate d r (bits (ws.headD 0) 4 1) lo hi
      c.finish p st []))

end Sys2Proof.Machine
end

