-- ==== Sys2Proof/Machine/Loader.lean ====
section
/-! DEFINITION. The configuration engine: sources, the two passes over an image, die-global settings, device start-up from BLANK
to USER, and the load and update commands (chapter 5; R581 to R585). -/

namespace Sys2Proof.Machine

/-! ### Flash and slots (R162, R166, R680) -/

/-- An octet of the configuration flash; one never written reads as erased (log 4). -/
def flashOctet (flash : SMap (BitVec 8)) (cs byte : Nat) : BitVec 8 := SMap.getD (fun _ => 0xFF) flash (cs * 2 ^ 32 + byte % 2 ^ 32)

/-- Octet 4 of a word pair is shared: word i takes nine nibbles, and nibble n of the image is half of octet n / 2 (R166). -/
def flashWord (flash : SMap (BitVec 8)) (cs byte i : Nat) : W36 :=
  word ((List.range 9).foldl (fun v n =>
    let k := 9 * i + n
    v + bits (flashOctet flash cs (byte + k / 2)) (4 * (k % 2)) 4 * 16 ^ n) 0)

/-- Word i of an image stored in the flash (R166). -/
def storeWord (flash : SMap (BitVec 8)) (cs byte i : Nat) (w : W36) : SMap (BitVec 8) :=
  (List.range 9).foldl (fun m n =>
    let k := 9 * i + n
    SMap.setD (fun _ => 0xFF) m (cs * 2 ^ 32 + (byte + k / 2) % 2 ^ 32)
      (putBits (flashOctet m cs (byte + k / 2)) (4 * (k % 2)) 4 (bits w (4 * n) 4))) flash

/-- Where slot 0 (A) or 1 (B) lies (R162, R680). -/
def Chip.slotSource (s : Chip) (slot : Nat) : ImageSource :=
  match s.cfg.mode.toNat with
  | 1 | 3 => .flash 0 (slot * 0x8000000)
  | 5 => .karn 0 slot
  | _ => .flash slot 0

/-- The flash octets of a slot, as chip select, first byte and the byte after its last (R583). -/
def Chip.slotRange (s : Chip) (slot : Nat) : Nat × Nat × Nat :=
  match s.cfg.mode.toNat with
  | 1 | 3 => if slot = 0 then (0, 0, 0x8000000) else (0, 0x8000000, 2 ^ 32)
  | _ => (slot, 0, 2 ^ 32)

/-! ### A Karn source (R459) -/

/-- The words that a load still wants from its Karn source are asked for, up to 248 at a time. -/
def Chip.askKarn (s : Chip) (l : Loader) : Chip :=
  match l.src with
  | .karn link slot =>
    let hdr := if l.head.isEmpty then l.taken.reverse else l.head
    let total := if hdr.length < 32 then 32 else imgLength hdr
    s.when (l.queue.isEmpty && l.count < total) (fun s =>
      s.queueMsg (link / 4) (link % 4) (.bootReq (slot == 1) l.count (min 248 (total - l.count))))
  | _ => s

/-! ### Attempts (R155, R163, R164) -/

/-- An attempt at a full image starts. -/
def Chip.startAttempt (s : Chip) (src : ImageSource) (slot : Nat) (stream : Option Nat) : Chip :=
  let s := s.upTo 4 (fun s d => (s.satFld d F.CFG_ATTEMPT_ATTEMPTS 1).setFld d F.CFG_STATUS_SLOT slot)
  let s := { s with cfg := { s.cfg with lastSlot := if slot < 2 then some slot else s.cfg.lastSlot, probe := none } }
  let l : Loader := { src := src, slot := slot, stream := stream }
  ((s.setDev .loading).beginLoad 4 l).askKarn l

/-- The slot tried first, from the headers of A and B: the one that passes R168 and has the higher GENERATION, A where both are
equal or neither passes (R163). -/
def firstSlot (mode : Nat) (a b : List W36) : Nat :=
  let okB := headerOk mode b
  if okB && (!headerOk mode a || imgGeneration a < imgGeneration b) then 1 else 0

/-- BOOT_START (R163): with a flash source, the headers of both slots are read and the preferred slot is tried; with a Karn source,
both headers are asked for first. -/
def Chip.bootStart (s : Chip) (flash : SMap (BitVec 8)) : Chip :=
  let mode := s.cfg.mode.toNat
  if s.dev ≠ .blank || s.cfg.probe.isSome || s.loads.any (fun e => e.2.isSome) then s
  else if mode < 4 then
    let head (slot : Nat) : List W36 := match s.slotSource slot with
      | .flash cs byte => (List.range 32).map (fun i => flashWord flash cs byte i)
      | _ => []
    let slot := firstSlot mode (head 0) (head 1)
    s.startAttempt (s.slotSource slot) slot none
  else if mode = 5 && s.linkUp 0 0 then
    ({ s with cfg := { s.cfg with probe := some [] } }).queueMsg 0 0 (.bootReq false 0 32)
  else s

/-- BOOT_START (R163). -/
def execBootStart (s : State) : Out := s.onChip (fun c => c.bootStart s.flash)

/-- EXCHANGE_DONE: an exchange completes (R430); the link that the device boots over starts the boot (R459). -/
def execExchangeDone (d : Die) (q : Fin 8) (l : Fin 4) (peerDev : BitVec 11) (peerLink : BitVec 4) (enc : Bool)
    (keyId : BitVec 16) (assign : BitVec 11) (peerUnnumbered : Bool) (s : State) : Out :=
  s.onDie d (fun c =>
    let c := c.exchangeDone d q l peerDev.toNat peerLink.toNat enc keyId.toNat assign.toNat peerUnnumbered
    c.when (c.cfg.mode == 5 && d == 0 && q == 1) (fun c => c.bootStart s.flash))

/-- The device pulls DONE_N low or lets it go (R184). -/
def Chip.driveDone (s : Chip) (released : Bool) : Chip :=
  s.upTo 4 (fun s d =>
    let s := s.setFlag d F.CFG_STATUS_DONE_OUT released
    if released then s else s.setFlag d F.CFG_STATUS_DONE_IN false)

/-- Release stages completed, on every die; at 0, a new release that no die is ahead of. -/
def Chip.showStage (s : Chip) (n : Nat) : Chip :=
  let s := s.when (decide (n = 0)) (fun s => { s with cfg := { s.cfg with ahead := 0 } })
  s.upTo 4 (fun s d => s.setFld d F.CFG_STATUS_STAGE n)

/-- Every region EMPTY with its claims dropped (R155, R177, R181). -/
def Chip.emptyAll (s : Chip) : Chip := s.upTo 64 (fun s i => s.regionToEmpty (i / 16) (i % 16))

/-- A full load's attempt fails: recorded and logged; a host stream returns to BLANK, any other source to BACKOFF (R155, R164). -/
def Chip.failFull (s : Chip) (l : Loader) (status cause frame : Nat) : Chip :=
  let s := (s.noteFail status cause l.slot frame).emptyAll
  let s := { s with cfg := { s.cfg with clockWait := false }, loads := s.loads.set 4 none }
  let s := s.logEv s.lead Ev.cfgAttemptFail (bits (s.reg s.lead Reg.CFG_FAIL) 0 13)
  let s := match l.src with
    | .host _ => s.setDev .blank
    | _ =>
      (s.upTo 4 (fun s d => s.satFld d F.CFG_ATTEMPT_BACKOFF_K 1)).setDev .backoff
  match l.port with
  | some p => s.finish p St.ok []
  | none => s

/-- A load fails (R148, R177, R679): a full one ends its attempt; a partial one that has not written changes nothing; one that has
loses every region it was writing. -/
def Chip.failLoad (s : Chip) (k status cause frame : Nat) (ws : List W36) : Chip :=
  match s.loads.get k with
  | some l =>
    if l.kind = .full then s.failFull l status cause frame
    else if l.writing then s.corruptPart k status cause frame
    else (s.noteFail status cause l.slot frame).endLoad k status ws
  | none => s

/-! ### The verify pass (R679) -/

/-- A check that fails: status, CFG_FAIL.CAUSE, frame address, result words. -/
abbrev LoadFault := Nat × Nat × Nat × List W36

/-- The first region of a load whose state R130 does not allow, or that lies on a die in reset (R146, R647). -/
def Chip.statesFault (s : Chip) (l : Loader) : Option LoadFault :=
  match l.kind with
  | .part isolate =>
    let ok (i : Nat) : Bool :=
      let st := s.regionState (i / 16) (i % 16)
      st == Rgn.empty || st == Rgn.isolated || st == Rgn.faulted || (isolate && st == Rgn.active)
    match (List.range 64).find? (fun i => l.regions.getLsbD i && !ok i) with
    | some i => some (St.state, 0, 0, [word (i % 16), word (s.regionState (i / 16) (i % 16))])
    | none =>
      if (List.range 64).any (fun i => l.regions.getLsbD i && s.dieInReset (i / 16)) then some (St.resource, 0, 0, []) else none
  | _ => none

/-- The checks at the last header word (R168, R673, R146, R597, R598). -/
def Chip.headerFault (s : Chip) (l : Loader) (ws : List W36) : Option LoadFault :=
  let partial' : Bool := match l.kind with
    | .part _ => true
    | _ => false
  let epoch := imgEpoch ws
  if !headerOk s.cfg.mode.toNat ws || !headerSuits partial' ws then some (St.param, 2, 0, [])
  else match s.statesFault l with
    | some f => some f
    | none =>
      if !imgEnc ws && s.sec.level != 0 then some (St.refused, 2, 0, [])
      else if 7 < imgKeySlot ws then some (St.param, 2, 0, [])
      else if epoch < s.fuses.epoch || 64 < epoch || (partial' && epoch < s.fld s.lead F.SEC_STATUS_IMAGE_EPOCH) then
        some (St.refused, 3, 0, [])
      else none

/-- A 384-bit value of the signature block (R170). -/
def sigValue (ws : List W36) (n : Nat) : BitVec 384 :=
  BitVec.ofNat 384 ((List.range 12).foldl (fun v i => v * 2 ^ 32 + bits (ws.getD (32 + 12 * n + i) 0) 0 32) 0)

/-- The words that the signature covers: header, directory, claim table (R170). -/
def signedWords (ws : List W36) : List W36 := ws.take 32 ++ (ws.drop 80).take (imgPool ws - 80)

/-- The octets of a 384-bit value, most significant first. -/
def octets384 (v : BitVec 384) : List (BitVec 8) := bigEndian 48 v.toNat

/-- A claim of the image on a wire that an ACTIVE region outside the load already claims (R146). -/
def Chip.claimClash (s : Chip) (ws : List W36) : Option Nat :=
  ((claimWords ws).map claimKey).find? (fun k =>
    let c := s.claims.get k
    let d := k / 8768 / 4 / 16
    let near := wireRegion k
    let other (r : Nat) : Bool := s.regionState d r == Rgn.active && !declares ws d r
    (c.here && other near) || (c.nbr && (match acrossSide near (wireSide k) with
      | some n => other n
      | none => false)))

/-- The checks at the last claim-table word (R597, R170, R171, R173, R146). -/
def Chip.tablesFault (s : Chip) (l : Loader) (ws : List W36) : Option LoadFault :=
  let x := sigValue ws 0
  let y := sigValue ws 1
  let keyed := s.sec.level != 0 || s.fuses.ownerHash != 0
  if keyed && Config.sha384 (octets384 x ++ octets384 y) != s.fuses.ownerHash then some (St.integrity, 4, 0, [])
  else if !Config.ecdsaVerify x y (Config.sha384 (octetsOf (signedWords ws))) (sigValue ws 2) (sigValue ws 3) then
    some (St.integrity, 4, 0, [])
  else match dirFault ws (dirEntries ws) 0 with
    | some fa => some (St.param, 5, fa, [word fa])
    | none =>
      if claimsBad (claimWords ws) none then some (St.param, 5, 0, [])
      else match l.kind, s.claimClash ws with
        | .part _, some k => some (St.refused, 5, 0, [word (wireRegion k), word (wireSide k), word (wireIndex k)])
        | _, _ => none

/-- The checks of the pool frames from n to m - 1, just put out: CRC, frame rules wherever each is used, and the direct-crossing
check (R679). -/
def Chip.framesFault (s : Chip) (ws : List W36) (x : Inflate) (n m : Nat) : Option LoadFault :=
  let es := dirEntries ws
  let one (i : Nat) : Option LoadFault :=
    let fw := x.frame i
    if !frameGood fw then some (St.integrity, 7, 0, [])
    else ((usesOf es i).find? (fun fa => frameBad (faDie fa) (faRegion fa) (faFrame fa) (fun w => fw.getD w 0))).map
      (fun fa => (St.param, 6, fa, [word fa]))
  match ((List.range (m - n)).filterMap (fun i => one (n + i))).head? with
  | some f => some f
  | none => if n < m then (s.crossFault ws x).map (fun fa => (St.param, 6, fa, [word fa])) else none

/-- The die-global frame words of a die that an image supplies, by frame address * 64 + word. -/
def globalWords (ws : List W36) (x : Inflate) (d : Nat) : List (Nat × W36) :=
  ((dirEntries ws).filter (fun e => faDie e.first = d && faRegion e.first = 16 && e.kind < 2)).flatMap (fun e =>
    e.uses.flatMap (fun u => ((List.range 64).map (fun w => (u.1 * 64 + w, (x.frame u.2).getD w 0))).filter (fun p => p.2 != 0)))

/-- The settings of a die's die-global frames that break a limit (R390, R416, R473, R555): the register's offset. -/
def Chip.settingFault (s : Chip) (d : Nat) (g : List (Nat × W36)) : Option Nat :=
  let v (off : Nat) : W36 := (Config.globalSetting g off).getD (resetWord off)
  let bad : List (Nat × Bool) :=
    (List.range 8).map (fun y => (Reg.CKM_SYN_CFG y, !synthValid (bits (v Reg.CKM_XIN) F.CKM_XIN_FREQ.lo F.CKM_XIN_FREQ.width) (v (Reg.CKM_SYN_CFG y)))) ++
    (List.range 48).map (fun k => (Reg.UIO_PAIR k, !pairValid (v (Reg.UIO_PAIR k)))) ++
    (List.range 32).map (fun i => (Reg.XCV_LANE_CFG (i / 4) (i % 4),
      !laneValid (s.refHz d (i / 4)) (bits (v (Reg.XCV_QUAD_CFG (i / 4))) 1 9) (bits (v (Reg.XCV_LANE_CFG (i / 4) (i % 4))) 1 3)
        (bits (v (Reg.XCV_LANE_CFG (i / 4) (i % 4))) 4 2) (bits (v (Reg.XCV_LANE_CFG (i / 4) (i % 4))) 6 2))) ++
    (List.range 2).map (fun c => (Reg.DDR_CFG c, !ddrValid (v (Reg.DDR_CFG c)) (v (Reg.DDR_GEOM c)) (v (Reg.DDR_RANK_MAP c))))
  (bad.find? (·.2)).map (·.1)

/-- The checks once the whole pool has been taken: its length, and the die-global settings (R174, R679). -/
def Chip.poolFault (s : Chip) (l : Loader) (ws : List W36) (x : Inflate) : Option LoadFault :=
  if !x.complete ws then some (St.integrity, 7, 0, [])
  else match l.kind with
    | .part _ => none
    | _ =>
      ((List.range 4).findSome? (fun d =>
        let g := globalWords ws x d
        (s.settingFault d g).map (fun off => (Config.globalFrame g off).toNat))).map (fun fa => (St.param, 6, fa, [word fa]))

/-- The tag and the trailer do not match (R175, R176). -/
def Chip.trailerBad (s : Chip) (ws all : List W36) : Bool :=
  let n := imgLength ws
  let t (i : Nat) : W36 := all.getD (n - 8 + i) 0
  let tag := BitVec.ofNat 128 ((List.range 4).foldl (fun v i => v * 2 ^ 32 + bits (t (1 + i)) 0 32) 0)
  let tagOk : Bool := if imgEnc ws then
      tag == (openPool s.fuses.deviceKey ws ((all.drop (imgPool ws)).take (imgPoolWords ws))).2
    else t 1 == 0 && t 2 == 0 && t 3 == 0 && t 4 == 0
  !(t 0 == 0x5E1D09440 && tagOk && (t 5).toNat == n && (t 6).toNat == (crc32 (octetsOf (all.take (n - 2)))).toNat)

/-! ### Die-global settings (R178, R179, R645) -/

/-- A register that the die-global frames set takes its configured value. What runs under another value is stopped first. -/
def Chip.takeSetting (s : Chip) (d off : Nat) (v : W36) : Chip :=
  let old := s.reg d off
  let idx (f : Nat → Nat) (n : Nat) : Option Nat := (List.range n).find? (fun i => f i = off)
  match idx Reg.CKM_SYN_CFG 8, idx Reg.CKM_GCLK 24, idx Reg.UIO_BANK_CFG 2, idx (fun i => Reg.XCV_QUAD_CFG i) 8 with
  | some y, _, _, _ =>
    let s := s.when (bits v 1 20 != bits old 1 20) (fun s => s.setReg d off (putBits old 0 1 0))
    let s := s.when (bits v 0 21 != bits old 0 21) (fun s =>
      (s.setFlag d (F.CKM_SYN_STATUS_LOCK y) false).setFlag d (F.CKM_SYN_STATUS_FAILED_OVER y)
        (bit v 0 && bit v 1 && s.flag d F.CKM_MON_FAILED))
    s.plainWrite d off v
  | _, some n, _, _ => s.gclkWrite d n v
  | _, _, some _, _ => s.setReg d off (putBits old 0 4 (bits v 0 4))
  | _, _, _, some q =>
    if s.flag d (F.XCV_QUAD_CFG_KARN q) || bits v 0 15 = bits old 0 15 then s
    else
      let s := (s.quadDown d q).plainWrite d off v
      s.setFlag d (F.XCV_QUAD_STATUS_PLL_LOCK q) false
  | _, _, _, _ =>
    match (List.range 32).find? (fun i => Reg.XCV_LANE_CFG (i / 4) (i % 4) = off) with
    | some i =>
      let q := i / 4
      let l := i % 4
      if s.flag d (F.XCV_QUAD_CFG_KARN q) || v = old then s
      else
        let s := s.when (s.laneState d q l != 0) (fun s => s.setGroup d q (s.groupOf d q l) 0)
        (s.plainWrite d off v).onLane d q l (fun x => { x with failLogged := false })
    | none =>
      match (List.range 8).find? (fun i => off = Reg.DDR_CFG (i / 4) + (if i % 4 = 3 then 4 else i % 4)) with
      | some i =>
        let c := i / 4
        let new := (s.plainWrite d off v).reg d off
        (s.when (new != old && s.fld d (F.DDR_STATUS_STATE c) != 0) (fun s => (s.ddrStop d c 0).dramLost d c)).setReg d off new
      | none =>
        if off = Reg.MIE_CH_CFG 0 || off = Reg.MIE_CH_CFG 1 then
          let s := s.when (bits v 0 2 != bits old 0 2) (fun s => s.dramLost d (if off = Reg.MIE_CH_CFG 0 then 0 else 1))
          s.setReg d off (putBits old 0 2 (bits v 0 2))
        else if off = Reg.CKM_SYS then s.ckmSysWrite d v
        else s.plainWrite d off v

/-- The registers that the die-global frames set, in the order they take their values; the rank map apart (R111, R178, R390, R444,
R501, R554, chapter 15). -/
def globalRegs : List Nat :=
  [Reg.CKM_XIN, Reg.CKM_SYS] ++ (List.range 8).map Reg.CKM_SYN_CFG ++ (List.range 24).map Reg.CKM_GCLK ++
  (List.range 2).map Reg.UIO_BANK_CFG ++ (List.range 48).map Reg.UIO_PAIR ++
  (List.range 8).flatMap (fun q => Reg.XCV_QUAD_CFG q :: (List.range 4).map (fun l => Reg.XCV_LANE_CFG q l)) ++
  (List.range 2).flatMap (fun c => [Reg.DDR_GEOM c, Reg.DDR_TIMING c, Reg.MIE_CH_CFG c, Reg.DDR_CFG c])

/-- The die-global settings of a die applied from its copy of the frames: those the frames set; with `map`, the rank map too (R178,
R179, R493, R645). -/
def Chip.applyGlobal (s : Chip) (d : Nat) (map : Bool) : Chip :=
  let g := s.globalKept.filter (fun e => frameAddr d 16 0 * 64 ≤ e.1 && e.1 < frameAddr d 17 0 * 64)
  let regs := (if map then (List.range 2).map Reg.DDR_RANK_MAP else []) ++ globalRegs
  let s := s.each regs (fun s off => match Config.globalSetting g off with
    | some v => s.takeSetting d off v
    | none => s)
  ((s.refreshClocks d).monitorUse d).settleXcv d

/-- Synthesisers that enabled global clocks of a die use (R179). -/
def Chip.usedSynths (s : Chip) (d : Nat) : List Nat :=
  (List.range 8).filter (fun y => (List.range 24).any (fun n => s.flag d (F.CKM_GCLK_EN n) && s.fld d (F.CKM_GCLK_SRC n) = y))

/-- A condition of every synthesiser in use on every die. -/
def Chip.synthsAll (s : Chip) (f : Nat → Nat → Bool) : Bool := (List.range 4).all (fun d => (s.usedSynths d).all (fun y => f d y))

/-! ### Done and release (R184 to R188, R460) -/

/-- A command packet with a header alone, sent to the gateway of another device (R460). -/
def Chip.sendCmd (s : Chip) (dev op : Nat) : Chip :=
  s.submit (gatewayOf 0) 3 { dev := dev, router := gatewayOf 0, port := 3, typ := Typ.cmd, body := [{ w2 := word (op * 2 ^ 26) }] }

/-- The done condition, as DONE_SRC selects it (R185). -/
def Chip.doneMet (s : Chip) : Bool :=
  match s.fld s.lead F.CFG_RELEASE_DONE_SRC with
  | 0 => s.flag s.lead F.CFG_STATUS_DONE_IN
  | 1 => s.cfg.systemDone
  | _ => true

/-- The release starts once the done condition is met (R185, R187). -/
def Chip.checkDone (s : Chip) : Chip :=
  if s.dev = .releasing && !s.cfg.releasing && s.doneMet then { s with cfg := { s.cfg with releasing := true } } else s

/-- KRN_LOADED of a device counted by device 0: with all EXPECT devices, itself included, system done goes to every other device;
in USER a later one is answered at once (R460). -/
def Chip.loadedBy (s : Chip) (dev : Nat) : Chip :=
  if s.dev = .user && dev != s.ownDevice then s.sendCmd dev 0x381
  else
    let seen := if s.cfg.loadedFrom.contains dev then s.cfg.loadedFrom else s.cfg.loadedFrom ++ [dev]
    let s := { s with cfg := { s.cfg with loadedFrom := seen } }
    if s.fld 0 F.KRN_SYS_EXPECT ≤ seen.length && !s.cfg.systemDone then
      let s := { s with cfg := { s.cfg with systemDone := true } }
      (s.each ((List.range (s.fld 0 F.KRN_SYS_EXPECT)).filter (fun n => n != s.ownDevice)) (fun s n => s.sendCmd n 0x381)).checkDone
    else s

/-- A full load is complete (R164, R179, R598): k returns to 0, the header's settings are taken, DONE_N is released, and the device
enters RELEASING. -/
def Chip.loadComplete (s : Chip) (l : Loader) : Chip :=
  let s := s.upTo 4 (fun s d =>
    let s := s.setFld d F.CFG_ATTEMPT_BACKOFF_K 0
    let s := s.setFld d F.CFG_RELEASE_DONE_SRC (imgDoneSrc l.head)
    let s := s.when (imgStageDelay l.head != 0) (fun s => s.setFld d F.CFG_RELEASE_STAGE_DELAY (imgStageDelay l.head))
    s.setFld d F.SEC_STATUS_IMAGE_EPOCH (imgEpoch l.head))
  let running := if l.slot < 2 then some l.slot else none
  let cfg := { s.cfg with clockWait := false, releasing := false, doneWaitLogged := false, systemDone := false, runningSlot := running }
  let s := { s with cfg := cfg, loads := s.loads.set 4 none }
  let s := (s.driveDone true).setDev .releasing
  let s := s.when (imgDoneSrc l.head == 1) (fun s =>
    if s.ownDevice = 0 then s.loadedBy 0 else s.sendCmd 0 0x380)
  let s := match l.port with
    | some p => s.finish p St.ok []
    | none => s
  s.checkDone

/-- LOAD_SYNTH_LOCKED: every synthesiser in use reports lock (R179). -/
def Chip.synthsLocked (s : Chip) : Chip :=
  match s.loads.get 4 with
  | some l =>
    if s.cfg.clockWait && s.synthsAll (fun d y => s.flag d (F.CKM_SYN_STATUS_LOCK y)) then s.loadComplete l else s
  | none => s

/-- LOAD_SYNTH_LOCKED (R179). -/
def execLoadSynthLocked (s : State) : Out := s.onChip (fun c => c.synthsLocked)

/-- LOAD_CLOCK_TIMEOUT: 1 ms has passed and a synthesiser in use has not locked (R179). -/
def execLoadClockTimeout (s : State) : Out :=
  s.onChip (fun c => c.when (c.cfg.clockWait && !c.synthsAll (fun d y => c.flag d (F.CKM_SYN_STATUS_LOCK y)))
    (fun c => c.failLoad 4 St.timeout 10 0 []))

/-- BACKOFF_EXPIRE: the other slot is tried (R164). -/
def Chip.backoffEnds (s : Chip) : Chip :=
  if s.dev ≠ .backoff then s
  else
    let slot := match s.cfg.lastSlot with
      | some 0 => 1
      | _ => 0
    s.startAttempt (s.slotSource slot) slot none

/-- BACKOFF_EXPIRE (R164). -/
def execBackoffExpire (s : State) : Out := s.onChip (fun c => c.backoffEnds)

/-- DONE_N_HIGH: the line is taken as high, which it can be only once the part has released it (R184, R185). -/
def execDoneNHigh (s : State) : Out :=
  s.onChip (fun c => c.when (c.flag 0 F.CFG_STATUS_DONE_OUT) (fun c =>
    (c.upTo 4 (fun c d => c.setFlag d F.CFG_STATUS_DONE_IN true)).checkDone))

/-- DONE_WAIT_LONG: the wait for the done condition has exceeded DONE_WARN; logged once a wait (R185). -/
def Chip.doneWaitLong (s : Chip) : Chip :=
  let warn := s.fld s.lead F.CFG_RELEASE_DONE_WARN
  if s.dev = .releasing && !s.cfg.releasing && !s.cfg.doneWaitLogged && warn != 0 then
    ({ s with cfg := { s.cfg with doneWaitLogged := true } }).logEv s.lead Ev.doneWaitLong warn
  else s

/-- DONE_WAIT_LONG (R185). -/
def execDoneWaitLong (s : State) : Out := s.onChip (fun c => c.doneWaitLong)

/-- DONE_LOW: DONE_N falls; in USER it is logged once a fall (R186). -/
def Chip.doneFalls (s : Chip) : Chip :=
  if s.flag s.lead F.CFG_STATUS_DONE_IN then
    let s := s.upTo 4 (fun s d => s.setFlag d F.CFG_STATUS_DONE_IN false)
    s.when (decide (s.dev = .user)) (fun s => s.logEv s.lead Ev.doneLow 0)
  else s

/-- DONE_LOW (R186). -/
def execDoneLow (s : State) : Out := s.onChip (fun c => c.doneFalls)

/-- Stage 3 on a die: Oboe cores and DDR5 controllers leave reset (R187, R245, R474). -/
def Chip.stageThree (s : Chip) (d : Nat) : Chip :=
  let s := s.upTo 64 (fun s n => s.tryStart d n)
  s.upTo 2 (fun s c => s.when (s.flag d (F.DDR_CFG_EN c) && s.fld d (F.DDR_STATUS_STATE c) == 0 && !s.asleep d (Dom.ddr c))
    (fun s => s.ddrStart d c))

/-- f for every region that the device's release moves. -/
def Chip.releasedRegions (s : Chip) (f : Chip → Nat → Nat → Chip) : Chip :=
  s.upTo 64 (fun s i => s.when ((s.region (i / 16) (i % 16)).deviceRelease && s.regionState (i / 16) (i % 16) != Rgn.empty)
    (fun s => f s (i / 16) (i % 16)))

/-- RELEASE_STAGE_TIMER: the next step of the release (R187, R188). -/
def Chip.releaseStep (s : Chip) : Chip :=
  if s.dev ≠ .releasing || !s.cfg.releasing then s
  else match s.fld s.lead F.CFG_STATUS_STAGE with
    | 0 =>
      let s := (s.showStage 1).releasedRegions (fun s d r => s.stageOne d r)
      s.upTo 4 (fun s d => s.settleXcv d)
    | 1 => (s.showStage 2).releasedRegions (fun s d r => s.setFld d (F.CFG_REGION_STATUS_STAGE r) 2)
    | 2 =>
      let s := (s.showStage 3).releasedRegions (fun s d r => s.setFld d (F.CFG_REGION_STATUS_STAGE r) 3)
      s.upTo 4 (fun s d => s.when (s.runs d) (fun s => s.stageThree d))
    | _ =>
      let s := s.releasedRegions (fun s d r => (s.stageFour d r).onRegion d r (fun x => { x with deviceRelease := false }))
      ({ s with cfg := { s.cfg with releasing := false } }).setDev .user

/-- RELEASE_STAGE_TIMER (R187). -/
def execReleaseStageTimer (s : State) : Out := s.onChip (fun c => c.releaseStep)

/-! ### The write pass (R76, R130, R142, R172, R177) -/

/-- The write pass begins: the declared regions enter LOADING together, their domains in RUN, with their frames blank, their gates
empty, the rings of their FAB ports at lap 0 and the image's claims recorded; regions loaded by UPDATE_APPLY take AUTO_ACT = 0
(R127, R130, R147, R152, R326, R585). -/
def Chip.beginWrite (s : Chip) (k : Nat) (l : Loader) : Chip :=
  let ws := l.head
  let mine := (List.range 64).filter (fun i => l.regions.getLsbD i)
  let s := (s.leaveTogether mine Rgn.loading).each mine (fun s i =>
    let d := i / 16
    let r := i % 16
    let s := (((s.holdRun d r).dropClaims d r).cancelAct d r).fabPortsReset d r
    let s := (s.setFld d (F.CFG_REGION_STATUS_STAGE r) 0).setFld d (F.CFG_REGION_STATUS_FAULT_CAUSE r) 0
    let s := s.onRegion d r (fun x => { x with accepted := false, stepping := false, wasActive := false, deviceRelease := false })
    let s := { s with dividers := SMap.dropRange s.dividers (dividerKey d r 0) (dividerKey d (r + 1) 0) }
    ((s.clearRegionRams d r).blankFrames d r).emptyGates d r)
  let s := s.each (s.claimRecords ws l.inflate) (fun s (key, a, b) =>
    { s with claims := s.claims.upd key (fun c => { c with here := c.here || a, nbr := c.nbr || b }) })
  let s := s.when (decide (l.kind = .full)) (fun s => s.upTo 4 (fun s d => s.blankFrames d 16))
  let s := s.when l.update (fun s => match s.updates.get k with
    | some u =>
      let saved := (mine.filter (fun i => !u.savedAuto.any (fun a => a.1 = i))).map
        (fun i => (i, s.flag (i / 16) (F.CFG_REGION_CTRL_AUTO_ACT (i % 16))))
      let s := { s with updates := s.updates.set k (some { u with savedAuto := u.savedAuto ++ saved }) }
      s.each mine (fun s i => s.setFlag (i / 16) (F.CFG_REGION_CTRL_AUTO_ACT (i % 16)) false)
    | none => s)
  let l := { l with writing := true, taken := [], count := 0, inflate := {}, entries := 0 }
  let s := ({ s with loads := s.loads.set k (some l) }).showPass 1
  s.askKarn l

/-- A frame written: the words of a reservoir RAM, or configuration words (R76, R81). -/
def Chip.writeFrame (s : Chip) (fa : Nat) (fw : List W36) : Chip :=
  let d := faDie fa
  let r := faRegion fa
  let f := faFrame fa
  if r < 16 && 13824 ≤ f && f < 15872 then
    s.upTo 64 (fun s w =>
      let v := fw.getD w 0
      s.storeRam d (128 * r + (f - 13824) / 16) (64 * ((f - 13824) % 16) + w) { data := v, chk := checkBits v, valid := true })
  else s.upTo 64 (fun s w => s.setFrameWord fa w (fw.getD w 0))

/-- Directory entries whose pool frames have all been put out are written, in directory order, from entry n on; `fuel` bounds
their number. -/
def Chip.writeEntries : Nat → Chip → List DirEntry → Inflate → Nat → Chip × Nat
  | 0, s, _, _, n => (s, n)
  | fuel + 1, s, es, x, n =>
    match es[n]? with
    | some e =>
      if e.kind = 2 then Chip.writeEntries fuel s es x (n + 1)
      else if e.uses.all (fun u => u.2 < x.frames) then
        Chip.writeEntries fuel (s.each e.uses (fun s u => s.writeFrame u.1 (x.frame u.2))) es x (n + 1)
      else (s, n)
    | none => (s, n)

/-- The write pass of a full image ends: the die-global settings are applied, and the part waits for its synthesisers (R179). -/
def Chip.fullWritten (s : Chip) (l : Loader) : Chip :=
  let s := s.upTo 64 (fun s i => s.when (l.regions.getLsbD i) (fun s => (s.configured (i / 16) (i % 16)).enterStaging (i / 16) (i % 16) true))
  let s := { s with globalKept := s.frames.filter (fun e => e.1 / 64 / 2 ^ 18 % 32 == 16) }
  let s := s.upTo 4 (fun s d => s.applyGlobal d true)
  let s := { s with cfg := { s.cfg with clockWait := true } }
  if !s.synthsAll (fun d y => s.flag d (F.CKM_SYN_CFG_EN y)) then s.failLoad 4 St.resource 10 0 []
  else s.synthsLocked

/-- A partial load is complete: every declared region enters STAGING together (R130, R147, R581), and UPDATE_APPLY activates them
(R585). -/
def Chip.partWritten (s : Chip) (k : Nat) (l : Loader) : Chip :=
  let mine := (List.range 64).filter (fun i => l.regions.getLsbD i)
  let s := s.each mine (fun s i => (s.configured (i / 16) (i % 16)).enterStaging (i / 16) (i % 16) false)
  let s := { s with loads := s.loads.set k none }
  match l.update, s.updates.get k with
  | true, some u =>
    let w (b : Nat) : Nat := (b + u.index * u.step) % 2 ^ 48
    let (s, st) := mine.foldl (fun (acc : Chip × Nat) i =>
      if acc.2 != St.ok then acc else acc.1.activate (i / 16) (i % 16) u.chan (w u.lo) (w u.hi)) (s, St.ok)
    if st != St.ok then s.stopUpdate k st
    else ({ s with updates := s.updates.set k (some { u with waiting := mine }) }).updateProgress k
  | _, _ => match l.port with
    | some p => s.finish p St.ok []
    | none => s

/-! ### One image word (R679) -/

/-- A word of the pool in clear: decrypted with the pool words before it where ENC = 1 (R175). -/
def Chip.plainWord (s : Chip) (l : Loader) (w : W36) : W36 :=
  if imgEnc l.head then
    (openPool s.fuses.deviceKey l.head ((l.taken.reverse.drop (imgPool l.head)))).1.getLastD 0
  else w

/-- The load of key k continues with a changed record. -/
def Chip.keepLoad (s : Chip) (k : Nat) (l : Loader) : Chip := { s with loads := s.loads.set k (some l) }

/-- The verify pass takes a word, already counted in l (R177, R679). -/
def Chip.verifyWord (s : Chip) (k : Nat) (l : Loader) (w : W36) : Chip :=
  let fault (s : Chip) (f : LoadFault) : Chip := s.failLoad k f.1 f.2.1 f.2.2.1 f.2.2.2
  if l.count < 32 then s.keepLoad k l
  else if l.count = 32 then
    let ws := l.taken.reverse
    let l := { l with regions := imgRegions ws }
    match (s.keepLoad k l).headerFault l ws with
    | some f => fault (s.keepLoad k { l with regions := 0 }) f
    | none => s.keepLoad k l
  else
    -- at the last claim-table word
    let atTables := l.head.isEmpty && l.count = imgPool l.taken.reverse
    let l := if atTables then
        let ws := l.taken.reverse
        { l with head := ws, claimHash := Config.sha384 (octetsOf (signedWords ws)) }
      else l
    let ws := l.head
    if ws.isEmpty then s.keepLoad k l
    else
      let s := s.keepLoad k l
      let inPool := imgPool ws < l.count && l.count ≤ imgPool ws + imgPoolWords ws
      let was := l.inflate.frames
      let l := if inPool then { l with inflate := l.inflate.feed (s.plainWord l w) } else l
      let x := l.inflate
      let s := s.keepLoad k l
      let lastPool := l.count = imgPool ws + imgPoolWords ws
      let f1 := if atTables then s.tablesFault l ws else none
      let f2 := if inPool then (if x.broken then some (St.integrity, 7, 0, []) else s.framesFault ws x was (min x.frames (imgPoolFrames ws))) else none
      let f3 := if lastPool then s.poolFault l ws x else none
      let f4 : Option LoadFault := if l.count = imgLength ws then
          (if s.trailerBad ws l.taken.reverse then some (St.integrity, 8, 0, []) else s.statesFault l)
        else none
      match [f1, f2, f3, f4].findSome? id with
      | some f => fault s f
      | none =>
        if l.count = imgLength ws then
          if l.kind = .verify then s.endLoad k St.ok [word (imgGeneration ws + imgEpoch ws * 2 ^ 20)]
          else s.beginWrite k { l with imageHash := Config.sha384 (octetsOf l.taken.reverse) }
        else s

/-- The write pass takes a word, already counted in l (R177). -/
def Chip.writeWord (s : Chip) (k : Nat) (l : Loader) (w : W36) : Chip :=
  let ws := l.head
  let bad (s : Chip) : Chip := s.failLoad k St.integrity 9 0 []
  let n := l.count
  let inPool := imgPool ws < n && n ≤ imgPool ws + imgPoolWords ws
  let was := l.inflate.frames
  let l := if inPool then { l with inflate := l.inflate.feed (s.plainWord l w) } else l
  let x := l.inflate
  let now := min x.frames (imgPoolFrames ws)
  let s := s.keepLoad k l
  let atTables := n = imgPool ws
  let hashBad := atTables && Config.sha384 (octetsOf (signedWords l.taken.reverse)) != l.claimHash
  let frameBad := inPool && (x.broken || (List.range (now - was)).any (fun i => !frameGood (x.frame (was + i))))
  let lastBad := n = imgLength ws &&
    (s.trailerBad ws l.taken.reverse || Config.sha384 (octetsOf l.taken.reverse) != l.imageHash || !x.complete ws)
  let claimBad := (atTables || (inPool && was < now)) && s.claimMismatch ws x
  if hashBad || frameBad || claimBad || lastBad then bad s
  else
    let (s, e) := if n < imgPool ws then (s, 0)
      else Chip.writeEntries (dirEntries ws).length s (dirEntries ws) x l.entries
    let l := { l with entries := e }
    let s := s.keepLoad k l
    if n = imgLength ws then (if l.kind = .full then s.fullWritten l else s.partWritten k l) else s

/-- The word that a load takes next, and the load after it has left its queue. -/
def nextWord (flash : SMap (BitVec 8)) (l : Loader) : Option (W36 × Loader) :=
  match l.src with
  | .flash cs byte => some (flashWord flash cs byte l.count, l)
  | _ => match l.queue with
    | w :: r => some (w, { l with queue := r })
    | [] => none

/-- A streamed packet whose words have all been taken replies; a Karn source is asked for more (R459, R581). -/
def Chip.afterWord (s : Chip) (k : Nat) : Chip :=
  match s.loads.get k with
  | some l =>
    if !l.queue.isEmpty then s
    else match l.stream, l.port with
      | some _, some p => (s.keepLoad k { l with port := none }).finish p St.ok []
      | _, _ => s.askKarn l
  | none => s

/-- IMAGE_WORD: the loader of key k takes one word, and every check that this word completes is decided; at the write pass's last
word what else was streamed is discarded (R177, R674, R679). -/
def Chip.imageWord (s : Chip) (flash : SMap (BitVec 8)) (k : Nat) : Chip :=
  match s.loads.get k with
  | some l =>
    if !s.alive || s.dev = .secureHalt || (l.writing && l.count = imgLength l.head) then s
    else match nextWord flash l with
      | some (w, l) =>
        let l := { l with taken := w :: l.taken, count := l.count + 1 }
        let l := if l.writing && l.count = imgLength l.head then { l with queue := [] } else l
        (if l.writing then s.writeWord k l w else s.verifyWord k l w).afterWord k
      | none => s
  | none => s

/-- IMAGE_WORD (R679): `ld` names the die whose engine loads a partial image or verifies one; none a full load. -/
def execImageWord (ld : Option Die) (s : State) : Out :=
  s.onChip (fun c => c.imageWord s.flash (match ld with
    | some d => d.val
    | none => 4))

/-! ### Messages of a Karn boot (R459, R460) -/

/-- Whether the device state allows a link message (R580). -/
def Chip.msgAllowed (s : Chip) (states : List DevState) : Bool := states.contains s.dev

/-- KRN_LOADED: a device reports that it has loaded (R460). -/
def execKrnLoaded (d : Die) (k : Fin 4) (src : BitVec 11) (s : State) : Out :=
  s.onDie d (fun c => c.when (c.linkUp d k && c.ownDevice == 0 && c.msgAllowed [.releasing, .user]) (fun c => c.loadedBy src.toNat))

/-- System done arrives (R185, R460). -/
def Chip.systemDone (s : Chip) : Chip := ({ s with cfg := { s.cfg with systemDone := true } }).checkDone

/-- KRN_SYSTEM_DONE (R460). -/
def execKrnSystemDone (d : Die) (k : Fin 4) (s : State) : Out :=
  s.onDie d (fun c => c.when (c.linkUp d k && c.msgAllowed [.releasing, .user]) (fun c => c.systemDone))

/-- KRN_BOOT_REQ: a serving device answers with words of its flash from the slot's byte address, at most 248; a device that does
not serve answers with none (R459). -/
def Chip.bootReq (s : Chip) (flash : SMap (BitVec 8)) (d k : Nat) (slotB : Bool) (first count : Nat) : Chip :=
  if !s.linkUp d k || !s.msgAllowed [.blank, .backoff, .releasing, .user] then s
  else
    let byte := if slotB then s.fld d (F.KRN_LINK_BOOT_B_ADDR k) else s.fld d (F.KRN_LINK_BOOT_A_ADDR k)
    let n := if s.flag d (F.KRN_LINK_CFG_BOOT_SERVE k) then min 248 count else 0
    s.queueMsg d k (.imageData first ((List.range n).map (fun i => flashWord flash 0 byte (first + i))))

/-- KRN_BOOT_REQ (R459). -/
def execKrnBootReq (d : Die) (k : Fin 4) (slotB : Bool) (first : BitVec 28) (count : BitVec 8) (s : State) : Out :=
  s.onDie d (fun c => c.bootReq s.flash d k slotB first.toNat count.toNat)

/-- KRN_IMAGE_DATA: the header of a slot asked for, or words of the image being loaded; with no words the source does not serve,
and the attempt fails (R459, R163). -/
def Chip.imageData (s : Chip) (d k first : Nat) (ws : List W36) : Chip :=
  if !s.linkUp d k then s
  else match s.cfg.probe with
    | some heads =>
      if s.dev ≠ .blank || d != 0 || k != 0 then s
      else match heads with
        | [] => ({ s with cfg := { s.cfg with probe := some [ws] } }).queueMsg 0 0 (.bootReq true 0 32)
        | a :: _ =>
          let slot := firstSlot 5 a ws
          s.startAttempt (s.slotSource slot) slot none
    | none =>
      s.upTo 5 (fun s key => match s.loads.get key with
        | some l =>
          let mine : Bool := match l.src with
            | .karn link _ => link = 4 * d + k
            | _ => false
          if !mine || !l.queue.isEmpty || first != l.count then s
          else if ws.isEmpty then
            ({ s with free := s.free + 1 }).failLoad key (Config.sourceFailStatus s.free).toNat 1 0 []
          else s.keepLoad key { l with queue := ws.take 248 }
        | none => s)

/-- KRN_IMAGE_DATA (R459). -/
def execKrnImageData (d : Die) (k : Fin 4) (first : BitVec 28) (words : List W36) (s : State) : Out :=
  s.onDie d (fun c => c.imageData d k first.toNat words)

/-! ### Commands (R580 to R585) -/

/-- A CONFIG_LOAD of a full image: latches dropped, every cue FIFO flushed and the pattern RAMs' words invalid (R382, R400); in
USER also pads to bank mode, DONE_N low and every region EMPTY (R181). -/
def Chip.reloadFrom (s : Chip) : Chip :=
  let s := if s.dev = .user then ((s.showStage 0).driveDone false).emptyAll else s
  s.upTo 4 (fun s d => (s.upTo 2 (fun s b => s.dropLatch d b)).cuesCleared d)

/-- The source that a load command's first parameter words name, with the slot code shown for it (R580). -/
def Chip.namedSource (s : Chip) (p : Nat) (ws : List W36) : ImageSource × Nat :=
  let w1 := ws.getD 1 0
  match bits (ws.headD 0) 0 2 with
  | 2 => (.host p, 2)
  | 3 => (.flash (bits w1 32 1) (bits w1 0 32), 3)
  | n => (s.slotSource n, n)

/-- CONFIG_LOAD (R155, R164, R181, R643). -/
def Chip.configLoad (s : Chip) (p : Nat) : Chip :=
  s.command p 0x080 (fun s h ws =>
    if s.dieInReset (cmdDie h) || s.inReset != 0 || s.resetDue != 0 || s.cfg.resetPending then s.finish p St.resource []
    else if s.loads.any (fun e => e.2.isSome) then s.finish p St.busy []
    else
      let (src, slot) := s.namedSource p ws
      (s.reloadFrom.startAttempt src slot (if slot = 2 then some p else none)).finish p St.ok [])

/-- CONFIG_LOAD (R181). -/
def execConfigLoad (p : Fin 5) (s : State) : Out := s.onChip (fun c => c.configLoad p)

/-- CONFIG_DATA: words for the load that this port streams; they wait for the loader to take them (R165, R581, R674). -/
def Chip.configData (s : Chip) (p : Nat) : Chip :=
  s.command p 0x081 (fun s _ ws =>
    match (List.range 5).find? (fun k => match s.loads.get k with
        | some l => l.stream == some p
        | none => false) with
    | some k => match s.loads.get k with
      | some l =>
        if l.writing && l.count = imgLength l.head then s.finish p St.ok []
        else (s.keepLoad k { l with queue := l.queue ++ ws, port := some p }).begin p
      | none => s
    | none => s.finish p St.state (s.stateWords 0x081 none))

/-- CONFIG_DATA (R581). -/
def execConfigData (p : Fin 5) (s : State) : Out := s.onChip (fun c => c.configData p)

/-- REGION_LOAD (R131, R146, R581). -/
def Chip.regionLoad (s : Chip) (p : Nat) : Chip :=
  s.command p 0x082 (fun s h ws => s.onNamedDie p h (fun s d =>
    if s.engineBusy d then s.finish p St.busy []
    else
      let (src, slot) := s.namedSource p ws
      let l : Loader := { kind := .part (bit (ws.headD 0) 2), src := src, slot := slot }
      if slot = 2 then (s.beginLoad d { l with stream := some p }).finish p St.ok []
      else
        let l := { l with port := some p }
        ((s.beginLoad d l).askKarn l).begin p))

/-- REGION_LOAD (R146). -/
def execRegionLoad (p : Fin 5) (s : State) : Out := s.onChip (fun c => c.regionLoad p)

/-- Why an UPDATE_WRITE of a slot is turned away (R583). -/
def Chip.updateRefusal (s : Chip) (d slot : Nat) : Option Nat :=
  if s.dieInReset d || 3 < s.cfg.mode.toNat then some St.resource
  else if s.cfg.runningSlot = some slot then some St.refused else none

/-- UPDATE_WRITE: words stored in a slot of the flash, which a write with OFFSET 0 first erases (R583). -/
def execUpdateWrite (p : Fin 5) (s : State) : Out :=
  match s.chip.admitted p 0x088 with
  | some (h, ws) =>
    let slot := bits (ws.headD 0) 0 1
    let offset := bits (ws.headD 0) 1 28
    match s.chip.updateRefusal (cmdDie h) slot with
    | some st => .next { s with chip := s.chip.finish p st [] }
    | none =>
      let (cs, lo, hi) := s.chip.slotRange slot
      let flash := if offset = 0 then SMap.dropRange s.flash (cs * 2 ^ 32 + lo) (cs * 2 ^ 32 + hi) else s.flash
      let flash := (ws.tail.zipIdx).foldl (fun m e => storeWord m cs lo (offset + e.2) e.1) flash
      .next { s with chip := s.chip.finish p St.ok [], flash := flash }
  | none => s.onChip (fun c => c.command p 0x088 (fun c _ _ => c))

/-- UPDATE_VERIFY: the verify pass alone (R584). -/
def Chip.updateVerify (s : Chip) (p : Nat) : Chip :=
  s.command p 0x089 (fun s h ws => s.onNamedDie p h (fun s d =>
    if s.engineBusy d then s.finish p St.busy []
    else
      let slot := bits (ws.headD 0) 0 1
      let l : Loader := { kind := .verify, src := s.slotSource slot, slot := slot, port := some p }
      ((s.beginLoad d l).askKarn l).begin p))

/-- UPDATE_VERIFY (R584). -/
def execUpdateVerify (p : Fin 5) (s : State) : Out := s.onChip (fun c => c.updateVerify p)

/-- UPDATE_APPLY: the service starts with its first image (R585). -/
def Chip.updateApply (s : Chip) (p : Nat) : Chip :=
  s.command p 0x08A (fun s h ws =>
    let w0 := ws.headD 0
    let n := bits w0 1 5
    if n = 0 || 16 < n then s.finish p St.param []
    else s.onNamedDie p h (fun s d =>
      if s.engineBusy d || (s.updates.get d).isSome then s.finish p St.busy []
      else
        let (lo, hi) := windowOf ws
        let u : UpdateRec := {
          port := some p, chan := bits w0 0 1, step := bits w0 6 16, lo := lo, hi := hi
          images := (ws.drop 4).map (fun w => (bits w 32 1, bits w 0 32)) }
        (({ s with updates := s.updates.set d (some u) }).begin p).updateLoad d))

/-- UPDATE_APPLY (R585). -/
def execUpdateApply (p : Fin 5) (s : State) : Out := s.onChip (fun c => c.updateApply p)

end Sys2Proof.Machine
end

