-- ==== Sys2Proof/Machine/Power.lean ====
section
/-! DEFINITION. Power domains: refusers, entries, wakes, levels, timers, supplies of single blocks, and the health monitor
(chapter 17, R586 and R587 of chapter 18). -/

namespace Sys2Proof.Machine

/-! ### Refusers (R541) -/

/-- The states a domain offers (R536). -/
def offers (dom target : Nat) : Bool :=
  if target = 1 then dom < 44 || dom = 46
  else if target = 2 then dom < 32 || (40 ≤ dom && dom < 44)
  else target = 3 && dom < 44

/-- The local NoC ports of a domain (R540). -/
def domPorts (d dom : Nat) : List (Nat × Nat) :=
  let routers (r : Nat) : List Nat :=
    (List.range 4).map (fun i => routerAt d (2 * (r % 4) + i % 2) (2 * (r / 4) + i / 2))
  if dom < 16 then (routers dom).flatMap (fun x => [(x, 0), (x, 1)])
  else if dom < 32 then (routers (dom - 16)).map (fun x => (x, 2))
  else if dom = 40 || dom = 41 then [(ddrHome d (dom - 40), 3)]
  else []

/-- Whether a local port of a domain still has an unconfirmed flit (R540). -/
def Chip.unconfirmed (s : Chip) (d dom : Nat) : Bool :=
  (domPorts d dom).any (fun (r, p) => (s.port r p).sent.any (fun x => decide (x.unsent < x.flits.length)))

/-- BELLOWS_READY: an enabled IDLE worker of any die's table lies in the domain and its class has a ready entry (R323). -/
def Chip.bellowsReady (s : Chip) (d dom : Nat) : Bool :=
  (List.range 4).any (fun b => (List.range 192).any (fun w =>
    let router := s.fld b (F.BLW_WORKER_ROUTER w)
    let port := s.fld b (F.BLW_WORKER_PORT w)
    s.flag b (F.BLW_WORKER_EN w) && s.workerState b w == Wrk.idle && dieOf router == d &&
      (if dom < 16 then 64 ≤ w && port < 2 && regionOf router == dom else w < 64 && regionOf router == dom - 16) &&
      (List.range 8).any (fun prio => !(s.blwReady.get ((b * 16 + s.fld b (F.BLW_WORKER_CLASS w)) * 8 + prio)).isEmpty)))

/-- The cores of a quad. -/
def quadCores (q : Nat) : List Nat := [4 * q, 4 * q + 1, 4 * q + 2, 4 * q + 3]

/-- A core with a bit of its status register set. -/
def Chip.quadBit (s : Chip) (d q b : Nat) : Bool := (quadCores q).any (fun n => (s.core d n).srBit b)

/-- NOC_INFLIGHT of a DDR5 channel: a queue holds an access or a response is unsent (R494). -/
def Chip.ddrInflight (s : Chip) (d c : Nat) : Bool :=
  let x := s.ddrChan d c
  !x.queue.isEmpty || !x.jobs.isEmpty || !x.taking.isEmpty || (s.port (ddrHome d c) 3).out.any (fun f => f.typ == Typ.readResp)

/-- Whether a bank is latched. -/
def Chip.bankLatched (s : Chip) (d b : Nat) : Bool := (s.bank d b).latched

/-- The refusers of R541 that hold for a request of a domain, by code, NOT_SUPPORTED and WAKE_PENDING apart. -/
def Chip.refusers (s : Chip) (d dom target : Nat) : List Nat :=
  let light := target = 1 || target = 2
  let on (code : Nat) (b : Bool) : List Nat := if b then [code] else []
  if dom < 16 then
    let st := s.regionState d dom
    let feeds := (List.range 2).any (fun b => bankRegion d b = dom && s.bankLatched d b)
    on 3 (s.bellowsReady d dom) ++ on 7 (light && feeds) ++
      on 9 (if light then st != Rgn.active && st != Rgn.isolated
        else st == Rgn.loading || st == Rgn.staging || st == Rgn.active)
  else if dom < 32 then
    let q := dom - 16
    on 1 ((quadCores q).any (fun n => (s.tap d).attached.getLsbD n)) ++ on 3 (s.bellowsReady d dom) ++
      on 5 ((quadCores q).any (fun n => (List.range 4).any (fun c => s.flag d (F.OBE_DMA_STATUS_BUSY n c)))) ++
      on 6 (s.quadBit d q Sr.lk) ++ on 10 (s.quadBit d q Sr.tv)
  else if dom < 40 then
    let q := dom - 32
    on 11 ((List.range 4).any (fun l => s.laneState d q l != 0) || (q % 2 = 1 && s.flag d (F.KRN_LINK_CFG_EN (q / 2))))
  else if dom < 42 then
    let c := dom - 40
    let st := s.fld d (F.DDR_STATUS_STATE c)
    on 2 (s.ddrInflight d c) ++ on 8 (s.flag d (F.DDR_STATUS_MIGRATING c)) ++
      on 12 (st == 1 || st == 2 || s.flag d (F.MIE_CH_STATUS_INIT_BUSY c) || s.flag d (F.MIE_CH_STATUS_REKEY_BUSY c))
  else if dom < 44 then
    let b := dom - 42
    on 4 ((List.range 24).any (fun i => let c := s.cue d (24 * b + i); !c.fifo.isEmpty || c.sending.isSome)) ++
      on 7 (light && s.bankLatched d b)
  else on 1 (dom = 46 && (s.tap d).attached != 0)

/-! ### Entries (R538 to R543, R676) -/

/-- A refused request (R540, R550). -/
def Chip.refuseDom (s : Chip) (d dom code : Nat) : Chip :=
  (s.satFld d (F.PWR_DOM_COUNT_REFUSALS dom) 1).setFld d (F.PWR_DOM_STATUS_LAST_REFUSER dom) code

/-- The banks whose pads a region feeds become latched as its domain enters OFF (R400). -/
def Chip.latchFed (s : Chip) (d r : Nat) : Chip := s.upTo 2 (fun s b => if bankRegion d b = r then s.latchBank d b 1 else s)

/-- Commitment: the collar closes, a bank's latch samples, the clocks are gated (R130, R400, R430, R494, R540). -/
def Chip.commitEntry (s : Chip) (d dom : Nat) : Chip :=
  let target := (s.dom d dom).target
  let s :=
    if dom < 16 then
      if target = 3 then (s.latchFed d dom).regionToEmpty d dom
      else if s.regionState d dom = Rgn.active || s.regionState d dom = Rgn.isolated then
        let was := s.collarOpen d dom
        (s.onRegion d dom (fun x => { x with wasActive := was })).leaveActive d dom Rgn.sleeping
      else s
    else if dom < 32 then s
    else if dom < 40 then s.quadDown d (dom - 32)
    else if dom < 42 then (if target = 3 then s else s.ddrAsleep d (dom - 40) target)
    else if dom < 44 then s.latchBank d (dom - 42) 2
    else s
  s.onDom d dom (fun r => { r with committed := true, wakeEnd := s.now + (if target = 1 then 100 else 10000) })

/-- An entry starts: from RUN in step 2, from a sleep state with its commitment at once (R540, R676). -/
def Chip.startEntry (s : Chip) (d dom target : Nat) : Chip :=
  let deeper := s.domState d dom != 0
  let s := (s.onDom d dom (fun r => { r with target := target, committed := false })).setFld d (F.PWR_DOM_STATUS_PHASE dom) 1
  s.when deeper (fun s => s.commitEntry d dom)

/-- A request for a state: the chip after it, and the code of its refuser (R538, R540, R541, R676). -/
def Chip.requestState (s : Chip) (d dom target : Nat) : Chip × Option Nat :=
  let refuse (code : Nat) : Chip × Option Nat := (s.refuseDom d dom code, some code)
  let st := s.domState d dom
  let phase := s.domPhase d dom
  let lowest (xs : List Nat) : Nat := xs.foldl min 15
  if target = 0 then (s.wake d dom 3, none)
  else if !offers dom target then refuse 13
  else if phase != 0 then refuse (lowest ((if phase = 2 then 14 else 13) :: s.refusers d dom target))
  else if (s.dom d dom).queued then refuse (lowest (14 :: s.refusers d dom target))
  else if target = st then (s, none)
  else if target < st then refuse 13
  else match s.refusers d dom target with
    | [] => (s.startEntry d dom target, none)
    | xs => refuse (lowest xs)

/-- Whether a domain is in step 2 of an entry. -/
def Chip.inStep2 (s : Chip) (d dom : Nat) : Bool := s.domPhase d dom == 1 && !(s.dom d dom).committed

/-- An entry in step 2 is aborted if a refuser has started to hold (R542). -/
def Chip.recheckEntry (s : Chip) (d dom : Nat) : Chip :=
  if s.inStep2 d dom then
    match s.refusers d dom (s.dom d dom).target with
    | [] => s
    | xs => s.abortEntry d dom (xs.foldl min 15)
  else s

/-- POWER_COMMIT: step 2 ends with every flit confirmed or failed (R540). -/
def Chip.powerCommit (s : Chip) (d dom : Nat) : Chip :=
  let s := s.recheckEntry d dom
  s.when (s.inStep2 d dom && !s.unconfirmed d dom) (fun s => s.commitEntry d dom)

/-- POWER_COMMIT (R540). -/
def execPowerCommit (d : Die) (dom : Fin 47) (s : State) : Out := s.onDie d (fun c => c.powerCommit d dom)

/-- QUIESCE_EXPIRE: step 2 has lasted QUIESCE with flits unconfirmed (R542). -/
def execQuiesceExpire (d : Die) (dom : Fin 47) (s : State) : Out :=
  s.onDie d (fun c =>
    let c := c.recheckEntry d dom
    c.when (c.inStep2 d dom && c.unconfirmed d dom) (fun c => c.abortEntry d dom 2))

/-- What a domain loses in OFF (R245 to R247, R430, R494, R537). -/
def Chip.domLost (s : Chip) (d dom : Nat) : Chip :=
  if dom < 16 then s.clearRegionRams d dom
  else if dom < 32 then
    s.each (quadCores (dom - 16)) (fun s n =>
      let s := if s.coreState d n = Obe.reset then s else s.resetCore d n true
      let s := s.resetRegs d (Reg.OBE_CTRL n) (Reg.OBE_CTRL n + 0x10000)
      { s with pmc := s.pmc.set (64 * d + n) default })
  else if dom < 40 then (s.quadDown d (dom - 32)).setFlag d (F.XCV_QUAD_STATUS_PLL_LOCK (dom - 32)) false
  else if dom < 42 then s.ddrAsleep d (dom - 40) 3
  else if dom < 44 then
    { s with patWords := SMap.dropRange s.patWords (patKey d (dom - 42) 0) (patKey d (dom - 42) 0 + 65536) }
  else s

/-- SLEEP_STATE_REACHED: the entry completes; a wake that waited for it starts (R540, R543). -/
def Chip.stateReached (s : Chip) (d dom : Nat) : Chip :=
  let r := s.dom d dom
  if s.domPhase d dom = 1 && r.committed then
    let s := s.when (r.target = 3) (fun s => s.domLost d dom)
    let s := (s.setFld d (F.PWR_DOM_STATUS_STATE dom) r.target).setFld d (F.PWR_DOM_STATUS_PHASE dom) 0
    let s := s.onDom d dom (fun r => { r with committed := false })
    s.when (s.flag d (F.PWR_DOM_STATUS_WAKE_PENDING dom)) (fun s => s.beginWake d dom r.wakeCause)
  else s

/-- SLEEP_STATE_REACHED (R540). -/
def execSleepStateReached (d : Die) (dom : Fin 47) (s : State) : Out := s.onDie d (fun c => c.stateReached d dom)

/-- AUTO_SLEEP_REQUEST: each core in SLEEP, RESET or FAULT_HALT with one newly in SLEEP (R539). -/
def Chip.autoSleep (s : Chip) (d q : Nat) : Chip :=
  let dom := Dom.quad q
  let mode := s.fld d (F.PWR_DOM_CFG_AUTO_SLEEP dom)
  let st := (quadCores q).map (fun n => s.coreState d n)
  if (mode = 1 || mode = 2) && s.domState d dom = 0 && st.contains Obe.sleep &&
      st.all (fun x => x == Obe.sleep || x == Obe.reset || x == Obe.faultHalt) then
    (s.requestState d dom mode).1
  else s

/-- AUTO_SLEEP_REQUEST (R539). -/
def execAutoSleepRequest (d : Die) (quad : Fin 16) (s : State) : Out := s.onDie d (fun c => c.autoSleep d quad)

/-! ### Waking (R544 to R548) -/

/-- WAKE_START: a wake source names a domain (R542, R544, R546). -/
def execWakeStart (d : Die) (dom : Fin 47) (cause : Fin 8) (s : State) : Out :=
  s.onDie d (fun c => c.when (decide (1 ≤ cause.val) && decide (cause.val ≤ 5)) (fun c => c.wake d dom cause))

/-- WAKE_COMPLETE: the domain reaches RUN (R130, R247, R430, R494, R547, R548). -/
def Chip.wakeComplete (s : Chip) (d dom : Nat) : Chip :=
  if s.domPhase d dom != 2 then s
  else
    let was := s.domState d dom
    let s := (s.setFld d (F.PWR_DOM_STATUS_STATE dom) 0).setFld d (F.PWR_DOM_STATUS_PHASE dom) 0
    let s := s.onClock d (fun c => { c with raising := c.raising.filter (fun x => x != dom) })
    let s := s.nextRaise d
    if dom < 16 then
      let s := s.setFlag d (F.PWR_DOM_STATUS_ON_OSC dom) false
      if s.regionState d dom = Rgn.sleeping then
        if (s.region d dom).wasActive && s.flag d (F.CFG_REGION_CTRL_RESUME_ON_WAKE dom) then s.enterActive d dom
        else s.setRegion d dom Rgn.isolated
      else s
    else
      let s := s.when (s.flag d (F.PWR_DOM_CFG_AUTO_RESTORE dom)) (fun s => s.onRamp d (32 + dom) (fun _ => { step := 1 }))
      if dom < 32 then
        s.each (quadCores (dom - 16)) (fun s n =>
          let s := if was = 3 then s.upTo 3 (fun s m => s.clearCoreMem d n m) else s
          if s.coreState d n = Obe.sleep || (s.coreState d n = Obe.halted && (s.core d n).haltedFrom = Obe.sleep) then
            s.onCore d n (fun c => { c with wakeNoted := true })
          else s)
      else if dom < 40 then s.settleQuad d (dom - 32)
      else if dom < 42 then s.ddrAwake d (dom - 40)
      else s

/-- WAKE_COMPLETE (R545). -/
def execWakeComplete (d : Die) (dom : Fin 47) (s : State) : Out := s.onDie d (fun c => c.wakeComplete d dom)

/-- RESTORE: a domain in RUN on the internal oscillator ramps back to its configured clocks (R547). -/
def Chip.restoreClocks (s : Chip) (d dom : Nat) : Chip :=
  let idle : Bool := (s.ramps.get (d * 128 + 32 + dom)).step == 0
  s.when (s.domState d dom == 0 && s.domPhase d dom == 0 && s.flag d (F.PWR_DOM_STATUS_ON_OSC dom) && idle)
    (fun s => s.onRamp d (32 + dom) (fun _ => { step := 1 }))

/-- PWR_TIMER_EXPIRE (R544). -/
def execPwrTimerExpire (d : Die) (t : Fin 8) (s : State) : Out :=
  s.onDie d (fun c => c.when (c.flag d (F.PWR_TIMER_EN t)) (fun c =>
    let dom := c.fld d (F.PWR_TIMER_DOM t)
    (c.setFlag d (F.PWR_TIMER_EN t) false).when (decide (dom < 47)) (fun c => c.wake d dom 4)))

/-- PWR_PINWAKE: the edge asked for on the pin (R544). -/
def execPwrPinwake (d : Die) (n : Fin 8) (s : State) : Out :=
  s.onDie d (fun c => c.when (c.fld d (F.PWR_PINWAKE_EDGE n) != 0) (fun c =>
    let dom := c.fld d (F.PWR_PINWAKE_DOM n)
    (c.setFlag d (F.PWR_PINWAKE_SEEN n) true).when (decide (dom < 47)) (fun c => c.wake d dom 5)))

/-! ### Levels (R549 to R551) -/

/-- A level change starts: voltage first towards a faster level, clock first towards a slower one (R550). -/
def Chip.startLevel (s : Chip) (d dom level : Nat) : Chip :=
  let now := s.fld d (F.PWR_DOM_STATUS_LEVEL dom)
  if level = now then s
  else
    let s := s.onDom d dom (fun r => { r with levelTo := level, levelBusy := true, levelSteps := max level now - min level now })
    let s := s.setFld d (F.PWR_DOM_STATUS_PHASE dom) 3
    if level < now then s.onRamp d (32 + dom) (fun _ => {}) else s.onRamp d (32 + dom) (fun _ => { step := 1 })

/-- A level request: the chip after it, and the code of its refuser (R549 to R551). -/
def Chip.requestLevel (s : Chip) (d dom level : Nat) : Chip × Option Nat :=
  if !((16 ≤ dom && dom < 32) || (dom = Dom.spine && d = 0)) || s.domState d dom != 0 || s.domPhase d dom != 0 then
    (s.refuseDom d dom 13, some 13)
  else if dom = Dom.spine then
    (s.upTo 4 (fun s b => if s.dieInReset b then s else s.startLevel b dom level), none)
  else (s.startLevel d dom level, none)

/-- A level change ends: STATUS shows the new level (R550). -/
def Chip.endLevel (s : Chip) (d dom : Nat) : Chip :=
  let s := s.setFld d (F.PWR_DOM_STATUS_LEVEL dom) (s.dom d dom).levelTo
  (s.setFld d (F.PWR_DOM_STATUS_PHASE dom) 0).onDom d dom (fun r => { r with levelBusy := false })

/-- LEVEL_CHANGE_STEP: the voltage has moved by one level (R550). -/
def Chip.levelStep (s : Chip) (d dom : Nat) : Chip :=
  let r := s.dom d dom
  if s.domPhase d dom != 3 || !r.levelBusy || r.levelSteps = 0 || (s.ramps.get (d * 128 + 32 + dom)).step != 0 then s
  else
    let faster := r.levelTo < s.fld d (F.PWR_DOM_STATUS_LEVEL dom)
    let s := s.onDom d dom (fun r => { r with levelSteps := r.levelSteps - 1 })
    if r.levelSteps != 1 then s
    else if faster then s.onRamp d (32 + dom) (fun _ => { step := 1 })
    else s.endLevel d dom

/-- LEVEL_CHANGE_STEP (R550). -/
def execLevelChangeStep (d : Die) (dom : Fin 47) (s : State) : Out := s.onDie d (fun c => c.levelStep d dom)

/-- The end of an island's ramp: its islands are on their configured clock; a change to a faster level ends with it (R547,
R550, R556). -/
def Chip.islandRampEnd (s : Chip) (d dom : Nat) : Chip :=
  let s := s.setFlag d (F.PWR_DOM_STATUS_ON_OSC dom) false
  s.when (s.domPhase d dom == 3 && (s.dom d dom).levelSteps == 0) (fun s => s.endLevel d dom)

/-- CLOCK_RAMP_STEP: a divider ramp moves to its next step; it ends at step 7 (R556). -/
def Chip.rampStep (s : Chip) (d clk : Nat) : Chip :=
  let step := (s.ramps.get (d * 128 + clk)).step
  if step = 0 then s
  else if step < 6 then s.onRamp d clk (fun r => { r with step := step + 1 })
  else
    let s := s.onRamp d clk (fun _ => {})
    if clk < 32 then s else s.islandRampEnd d (clk - 32)

/-- CLOCK_RAMP_STEP (R556). -/
def execClockRampStep (d : Die) (clk : Fin 128) (s : State) : Out := s.onDie d (fun c => c.rampStep d clk)

/-! ### PWR_ registers (R538) -/

/-- A write of PWR_DOM_d_REQ: ignored with REG_REQ = 0; more than one request at once is refused (R538). -/
def Chip.domReqWrite (s : Chip) (d dom : Nat) (v : W36) : Chip :=
  let asked := ofBool (bit v 2) + ofBool (bit v 5) + ofBool (bit v 6)
  if !s.flag d (F.PWR_DOM_CFG_REG_REQ dom) || asked = 0 then s
  else if 1 < asked then s.refuseDom d dom 13
  else if bit v 2 then (s.requestState d dom (bits v 0 2)).1
  else if bit v 5 then (s.requestLevel d dom (bits v 3 2)).1
  else s.restoreClocks d dom

/-- PWR_GO: a write of PWR_DOM_d_REQ with GO = 1 (R538). -/
def execPwrGo (d : Die) (dom : Fin 47) (v : W36) (s : State) : Out := s.onDie d (fun c => c.domReqWrite d dom (v ||| 4))

/-- PWR_PERF_GO: a write of PWR_DOM_d_REQ with PERF_GO = 1 (R550, R551). -/
def execPwrPerfGo (d : Die) (dom : Fin 47) (v : W36) (s : State) : Out := s.onDie d (fun c => c.domReqWrite d dom (v ||| 0x20))

/-- PWR_RESTORE: a write of PWR_DOM_d_REQ with RESTORE = 1 (R547). -/
def execPwrRestore (d : Die) (dom : Fin 47) (v : W36) (s : State) : Out := s.onDie d (fun c => c.domReqWrite d dom (v ||| 0x40))

/-- A write of a PWR_ register. -/
def Chip.pwrWrite (s : Chip) (d off : Nat) (v : W36) : Chip :=
  if Reg.PWR_DOM_CFG 0 ≤ off && off < Reg.PWR_DOM_CFG 47 && (off - Reg.PWR_DOM_CFG 0) % 4 = 1 then
    s.domReqWrite d ((off - Reg.PWR_DOM_CFG 0) / 4) v
  else s.plainWrite d off v

/-! ### Supplies of single blocks (R430, R475, R535) -/

/-- VTT_XCV_FALL: every quad of the die counts as OFF (R535). -/
def execVttXcvFall (d : Die) (s : State) : Out :=
  s.onChip (fun c => (c.setFlag d F.PWR_RAIL_VTT_XCV_OK false).when c.alive (fun c => c.upTo 8 (fun c q =>
    (c.quadDown d q).setFlag d (F.XCV_QUAD_STATUS_PLL_LOCK q) false)))

/-- A supply rises on a die: SEQ_ERR where a supply of the group before it has not passed its threshold (R533). -/
def Chip.railRises (s : Chip) (d : Nat) (before : List Fld) : Chip :=
  s.when (before.any (fun f => !s.flag d f)) (fun s => s.setFlag d F.PWR_RAIL_SEQ_ERR true)

/-- VTT_XCV_RISE: the quads' groups may leave DISABLED again (R535). -/
def execVttXcvRise (d : Die) (s : State) : Out :=
  s.onChip (fun c => ((c.railRises d [F.PWR_RAIL_VCCAUX_OK]).setFlag d F.PWR_RAIL_VTT_XCV_OK true).when (c.runs d) (fun c => c.settleXcv d))

/-- A bank's bit of VCCIO_OK set. -/
def Chip.setVccio (s : Chip) (d b : Nat) (ok : Bool) : Chip := s.setFlag d ⟨Reg.PWR_RAIL, 4 + b, 1⟩ ok

/-- VCCIO_B_FALL: the bank's pins are high impedance and its latch is dropped (R400, R535). -/
def execVccioBFall (d : Die) (b : Fin 2) (s : State) : Out :=
  s.onChip (fun c => (c.setVccio d b false).dropLatch d b)

/-- VCCIO_B_RISE (R535). -/
def execVccioBRise (d : Die) (b : Fin 2) (s : State) : Out :=
  s.onChip (fun c => (c.railRises d [F.PWR_RAIL_VTT_XCV_OK, F.PWR_RAIL_VCCA_PLL_OK]).setVccio d b true)

/-- VDDQ_DDR_FALL: both channels of the die enter FAILED (R475, R535). -/
def execVddqDdrFall (d : Die) (s : State) : Out :=
  s.onChip (fun c => (c.setFlag d F.PWR_RAIL_VDDQ_OK false).when c.alive (fun c => c.upTo 2 (fun c ch => c.ddrStop d ch 5)))

/-- VDDQ_DDR_RISE (R535). -/
def execVddqDdrRise (d : Die) (s : State) : Out :=
  s.onChip (fun c =>
    (c.railRises d [F.PWR_RAIL_VTT_XCV_OK, F.PWR_RAIL_VCCA_PLL_OK]).setFlag d F.PWR_RAIL_VDDQ_OK true)

/-- DOMAIN_POWER_FAULT: a region's domain enters OFF by a fault; the region enters EMPTY with the fault as its cause (R130,
R400). -/
def Chip.domainFault (s : Chip) (d r : Nat) : Chip :=
  if s.domState d r = 3 && s.domPhase d r != 2 then s
  else
    let s := ((s.latchFed d r).regionToEmpty d r).domLost d r
    let s := s.setFld d (F.CFG_REGION_STATUS_FAULT_CAUSE r) 2
    let s := (s.setFld d (F.PWR_DOM_STATUS_STATE r) 3).setFld d (F.PWR_DOM_STATUS_PHASE r) 0
    let s := s.setFlag d (F.PWR_DOM_STATUS_WAKE_PENDING r) false
    let s := s.onDom d r (fun x => { x with committed := false, queued := false })
    let s := s.onClock d (fun c => { c with
      raising := c.raising.filter (fun x => x != r), waiting := c.waiting.filter (fun x => x != r) })
    s.nextRaise d

/-- DOMAIN_POWER_FAULT (R130). -/
def execDomainPowerFault (d : Die) (r : Fin 16) (s : State) : Out := s.onDie d (fun c => c.domainFault d r)

/-! ### Health monitor (R586, R587) -/

/-- A bit of a status field set. -/
def Chip.setStatusBit (s : Chip) (d lo i : Nat) (b : Bool) : Chip := s.setFlag d ⟨Reg.HMN_STATUS, lo + i, 1⟩ b

/-- HMN_STATUS.ALERT and SEEN after an alarm's change: ALERT_N is held low by a TCRIT or rail alarm (R587). -/
def Chip.alertRefresh (s : Chip) (d : Nat) (raised : Bool) : Chip :=
  let s := s.when raised (fun s => s.setFlag d F.HMN_STATUS_SEEN true)
  s.setFlag d F.HMN_STATUS_ALERT (s.fld d F.HMN_STATUS_CRIT != 0 || s.fld d F.HMN_STATUS_RAIL != 0)

/-- One temperature alarm of a sensor: raised at its threshold, cleared 3 °C below it; whether it was raised now. -/
def Chip.tempAlarm (s : Chip) (d i lo : Nat) (threshold t : Int) (ev : Ev) (nonet : Nat) : Chip × Bool :=
  let was := s.flag d ⟨Reg.HMN_STATUS, lo + i, 1⟩
  if !was && threshold ≤ t then (((s.setStatusBit d lo i true).logEv d ev (i + nonet * 4)).alertRefresh d true, true)
  else if was && t ≤ threshold - 3 then ((s.setStatusBit d lo i false).alertRefresh d false, false)
  else (s, false)

/-- TEMP_SAMPLE: the four sensors, and what a critical one does (R586, R587). -/
def Chip.tempSample (s : Chip) (d : Nat) (temps : List (BitVec 9)) : Chip :=
  (List.range 4).zip temps |>.foldl (fun s (i, t) =>
    let s := s.setFld d ⟨Reg.HMN_TEMP, 9 * i, 9⟩ t.toNat
    let (s, _) := s.tempAlarm d i 0 (signed 9 (s.fld d F.HMN_CFG_TWARN)) (signed 9 t.toNat) Ev.hmnTempWarn t.toNat
    let (s, crit) := s.tempAlarm d i 4 (signed 9 (s.fld d F.HMN_CFG_TCRIT)) (signed 9 t.toNat) Ev.hmnTempCrit t.toNat
    s.when (crit && s.flag d F.HMN_CFG_THROTTLE) (fun s =>
      s.upTo 16 (fun s q => if s.domState d (Dom.quad q) = 0 then (s.requestLevel d (Dom.quad q) 3).1 else s))) s

/-- TEMP_SAMPLE (R586). -/
def execTempSample (d : Die) (temps : List (BitVec 9)) (s : State) : Out := s.onDie d (fun c => c.tempSample d temps)

/-- The nominal of a rail in mV (R532, R586). -/
def Chip.railNominal (s : Chip) (d r : Nat) : Nat :=
  let level (b : Nat) : Nat := match s.fld d (F.UIO_BANK_CFG_LEVEL b) with
    | 0 => 1800
    | 1 => 1500
    | _ => 1200
  match r with
  | 0 => 900
  | 1 => 1800
  | 2 => 1200
  | 3 => 1800
  | 4 => level 0
  | 5 => level 1
  | _ => 1100

/-- One rail's sample (R586). -/
def Chip.railTake (s : Chip) (d r mv : Nat) : Chip :=
  let s := s.setFld d (F.HMN_RAIL_MV r) mv
  let s := s.setFld d (F.HMN_RAIL_MIN r) (min mv (s.fld d (F.HMN_RAIL_MIN r)))
  let s := s.setFld d (F.HMN_RAIL_MAX r) (max mv (s.fld d (F.HMN_RAIL_MAX r)))
  let nominal := s.railNominal d r
  let out := max 1 (s.fld d F.HMN_CFG_RAIL_TOL) * nominal < (max mv nominal - min mv nominal) * 100
  let run := if out then s.railOut.get (8 * d + r) + 1 else 0
  let s := { s with railOut := s.railOut.set (8 * d + r) run }
  let was := s.flag d ⟨Reg.HMN_STATUS, 8 + r, 1⟩
  if !was && 3 ≤ run then ((s.setStatusBit d 8 r true).logEv d Ev.hmnRail (r + mv * 8)).alertRefresh d true
  else if was && !out then (s.setStatusBit d 8 r false).alertRefresh d false
  else s

/-- RAIL_SAMPLE (R586). -/
def execRailSample (d : Die) (mv : List (BitVec 12)) (s : State) : Out :=
  s.onDie d (fun c => ((List.range 7).zip mv).foldl (fun c x => c.railTake d x.1 x.2.toNat) c)

end Sys2Proof.Machine
end

