-- ==== Sys2Proof/Machine/Drone.lean ====
section
/-! DEFINITION. The command ports' transports and the commands that report, keep time and act on single blocks (chapter 18). -/

namespace Sys2Proof.Machine

/-! ### Unread events (R567, R582, R671) -/

/-- How far a SEQ lies back from a die's newest entry (R671). -/
def Chip.logBack (s : Chip) (d seq : Nat) : Nat := (s.fld d F.DRN_LOG_STATUS_NEWEST + 2 ^ 20 - seq % 2 ^ 20) % 2 ^ 20

/-- Entries of a die's log that a port has not acknowledged. -/
def Chip.unreadBy (s : Chip) (p d : Nat) : Nat :=
  min (s.fld d F.DRN_LOG_STATUS_LEVEL) (s.logBack d ((s.cmd p).ackSeq.get d))

/-- The entry of a SEQ. -/
def Chip.logEntry (s : Chip) (d seq : Nat) : LogEntry := s.log.get (logKey d (seq % 2 ^ 20))

/-- Whether a port holds an unacknowledged entry of severity at or above IRQ_SEV (R566, R567). -/
def Chip.unreadSevere (s : Chip) (p : Nat) : Bool :=
  (List.range 4).any (fun d => (List.range (s.unreadBy p d)).any (fun i =>
    let e := s.logEntry d (s.fld d F.DRN_LOG_STATUS_NEWEST + 2 ^ 20 - i)
    s.fld d F.DRN_EVENT_CFG_IRQ_SEV ≤ bits e.w0 32 2))

/-- Whether SVC_IRQ_N is low (R567). -/
def Chip.svcIrq (s : Chip) : Bool :=
  s.portAnswers Port.svc && (((s.cmd Port.svc).reply.isSome && (s.cmd Port.svc).unread) || s.unreadSevere Port.svc)

/-- Whether ALERT_N is low (R587). -/
def Chip.alertLow (s : Chip) : Bool := (List.range 4).any (fun d => s.flag d F.HMN_STATUS_ALERT)

/-! ### Transports (R566 to R570) -/

/-- Words sent to a port by its transport. -/
def Chip.portWords (s : Chip) (p : Nat) (ws : List W36) : Chip :=
  s.when (s.portTakes p) (fun s => s.each ws (fun s w => s.portWord p w))

/-- CMD_WRITE: command words over SVC; a word whose octets the transaction cuts short is discarded (R566). -/
def execCmdWrite (x : SvcOctets) (s : State) : Out := s.onChip (fun c => c.portWords Port.svc x.words)

/-- What a read of several words of a port's reply returns, from the reply header onward (R566, R576). -/
def Chip.replyRead (s : Chip) (p n : Nat) : Chip :=
  if s.portTakes p then
    let (s, ws) := (s.onCmd p (fun x => { x with readPos := 0 })).replyWords p n
    { s with returned := ws }
  else { s with returned := [] }

/-- REPLY_READ: reply words over SVC (R566). -/
def execReplyRead (words : Nat) (s : State) : Out := s.onChip (fun c => c.replyRead Port.svc words)

/-- The octet of FLAGS_READ; nothing where SVC is silent or CLOSED (R564, R566). -/
def Chip.flagsOctet (s : Chip) : List W36 :=
  if s.portTakes Port.svc then
    let x := s.cmd Port.svc
    [word (ofBool x.reply.isSome + 2 * ofBool (s.unreadSevere Port.svc) + 4 * ofBool x.buffered.isNone +
      8 * ofBool (s.dev == .safeTalk || s.dev == .secureHalt))]
  else []

/-- FLAGS_READ (R566). -/
def execFlagsRead (s : State) : Out := s.onChip (fun c => { c with returned := c.flagsOctet })

/-- The value of a hexadecimal character. -/
def hexDigit (c : BitVec 8) : Option Nat :=
  let n := c.toNat
  if 48 ≤ n && n ≤ 57 then some (n - 48)
  else if 65 ≤ n && n ≤ 70 then some (n - 55)
  else if 97 ≤ n && n ≤ 102 then some (n - 87)
  else none

/-- The words of a line, nine characters each with single spaces between; none for a line of any other form (R568). -/
def lineWords (chars : List (BitVec 8)) : Option (List W36) :=
  let n := (chars.length + 1) / 10
  if chars.length + 1 != 10 * n then none
  else
    (List.range n).foldr (fun i rest =>
      let group := (chars.drop (10 * i)).take 10
      let value := (group.take 9).foldl (fun v c => match v, hexDigit c with
        | some a, some x => some (16 * a + x)
        | _, _ => none) (some 0)
      match value, rest with
      | some v, some r => if (group.drop 9).all (fun c => c = 0x20) then some (word v :: r) else none
      | _, _ => none) (some [])

/-- CON_LINE: a line that ended in CR LF: a packet ends with it (R568). -/
def execConLine (chars : List (BitVec 8)) (s : State) : Out :=
  s.onChip (fun c => match lineWords chars with
    | some ws => (c.portWords Port.con ws).onCmd Port.con (fun x => { x with partWords := [] })
    | none => c)

/-- A write of DRN_CMD on a die: it acts on the lead die only (R570). -/
def Chip.drnCmdWrite (s : Chip) (d : Nat) (v : W36) : Chip := s.when (d = s.lead) (fun s => s.portWord Port.fab v)

/-- A read of DRN_REPLY on a die (R570, R576). -/
def Chip.drnReplyRead (s : Chip) (d : Nat) : Chip × W36 :=
  if d = s.lead then
    let (x, w) := (s.cmd Port.fab).readWord
    (s.onCmd Port.fab (fun _ => x), w)
  else (s, s.reg d Reg.DRN_REPLY)

/-- What a quiet read of DRN_REPLY shows. -/
def Chip.drnReplyView (s : Chip) (d : Nat) : W36 :=
  if d = s.lead then ((s.cmd Port.fab).readWord).2 else s.reg d Reg.DRN_REPLY

/-- DRN_MBOX_STATUS of a die; the mailbox is the lead die's. -/
def Chip.drnMboxView (s : Chip) (d : Nat) : W36 :=
  let r := s.reg d Reg.DRN_MBOX_STATUS
  if d = s.lead then
    let x := s.cmd Port.fab
    let tag := match x.reply with
      | some (h :: _) => cmdTag h
      | _ => 0
    r ||| word (ofBool x.reply.isSome + 2 * ofBool x.running.isSome + tag * 8 + x.partWords.length * 2 ^ 9)
  else r

/-- DRN_CMD (R570). -/
def execDrnCmd (d : Die) (v : W36) (s : State) : Out := s.onChip (fun c => c.when (c.alive && !c.dieInReset d) (fun c => c.drnCmdWrite d v))

/-- DRN_REPLY (R570). -/
def execDrnReply (d : Die) (s : State) : Out :=
  s.onChip (fun c => c.when (c.alive && !c.dieInReset d) (fun c => returning (c.drnReplyRead d)))

/-- DRN_RESTART: the firmware of a die's Drone restarts: the commands it carries out reply TIMEOUT; the hardware runs on
(R579). -/
def Chip.drnRestart (s : Chip) (d : Nat) : Chip :=
  let s := s.logEv d Ev.drnRestart 0
  let s := s.endUpdate d St.timeout []
  s.upTo 5 (fun s p => match (s.cmd p).running with
    | some (h :: _) =>
      if cmdDie h = d then
        let free (l : Loader) : Loader := if l.port = some p then { l with port := none } else l
        let s := { s with loads := s.loads.map (fun (e : Nat × Option Loader) => (e.1, e.2.map free)) }
        s.finish p St.timeout []
      else s
    | _ => s)

/-- DRN_RESTART (R579). -/
def execDrnRestart (d : Die) (s : State) : Out :=
  s.onChip (fun c => c.when (c.alive && !c.dieInReset d) (fun c => c.drnRestart d))

/-! ### Reports (R161, R582, R588, R671) -/

/-- The debug state over all quads of a die: 0 absent, 1 attached, 2 core halted. -/
def Chip.dieDebug (s : Chip) (d : Nat) : Nat :=
  if (List.range 64).any (fun n => s.fld d (F.OBE_STATUS_STATE n) == Obe.halted) then 2
  else if (s.tap d).attached != 0 then 1
  else 0

/-- The words of STATUS for a port (R582). -/
def Chip.statusWords (s : Chip) (p : Nat) : List W36 :=
  let l := s.lead
  let alarm := s.fld l F.HMN_STATUS_WARN != 0 || s.fld l F.HMN_STATUS_CRIT != 0 || s.fld l F.HMN_STATUS_RAIL != 0
  let halt := s.haltDie.getD 0
  [ word (s.dev.code + s.sec.level * 2 ^ 4 + s.dieDebug l * 2 ^ 6 + l * 2 ^ 8 + s.inReset.toNat * 2 ^ 10 + halt * 2 ^ 14 +
      ofBool s.haltDie.isSome * 2 ^ 16 + ofBool alarm * 2 ^ 17 + s.fld l F.CFG_ATTEMPT_BACKOFF_K * 2 ^ 18),
    word Config.firmware.toNat,
    word (s.time l), word (s.time l / 2 ^ 36),
    s.reg l Reg.CFG_FAIL,
    (match s.haltDie with
      | some h => s.reg h Reg.MIE_HALT_INFO
      | none => 0),
    word (s.fld l F.DRN_LOG_STATUS_NEWEST + s.unreadBy p l * 2 ^ 20) ]

/-- STATUS (R582). -/
def execStatus (p : Fin 5) (s : State) : Out :=
  s.onChip (fun c => c.command p 0x001 (fun c h _ => c.onNamedDie p h (fun c _ => c.finish p St.ok (c.statusWords p))))

/-- Whether the lead Drone reaches a die over inner edges with a live bundle. -/
def Chip.reaches (s : Chip) (d : Nat) : Bool :=
  let grow (xs : List Nat) : List Nat := xs ++ xs.flatMap (fun a =>
    ([0, 1].filter (fun e => !s.edgeFenced s.lead (edgeOf a e))).map (fun e => peerDie a e))
  (grow (grow [s.lead])).contains d

/-- The words of SELFTEST_REPORT (R161). -/
def Chip.selftestWords (s : Chip) : List W36 :=
  (List.range 4).map (fun d =>
    if d != s.lead && s.flag d F.CFG_SELFTEST_CRL_FAIL && !s.reaches d then word (2 ^ 35) else s.reg d Reg.CFG_SELFTEST)

/-- SELFTEST_REPORT (R161). -/
def execSelftestReport (p : Fin 5) (s : State) : Out :=
  s.onChip (fun c => c.command p 0x002 (fun c h _ => c.onNamedDie p h (fun c _ => c.finish p St.ok c.selftestWords)))

/-- The result of EVENT_READ from a SEQ for at most n entries (R671). -/
def Chip.eventWords (s : Chip) (d seq n : Nat) : List W36 :=
  let newest := s.fld d F.DRN_LOG_STATUS_NEWEST
  let level := s.fld d F.DRN_LOG_STATUS_LEVEL
  let oldest := (newest + 2 ^ 20 - level + 1) % 2 ^ 20
  let a := s.logBack d seq
  let (from', have') := if a < level then (seq, a + 1) else if a < 2 ^ 19 then (oldest, level) else (seq, 0)
  let count := min n have'
  word (oldest + count * 2 ^ 20) :: (List.range count).flatMap (fun i =>
    let e := s.logEntry d (from' + i)
    [e.w0, e.w1, e.w2])

/-- EVENT_READ (R580, R671). -/
def execEventRead (p : Fin 5) (s : State) : Out :=
  s.onChip (fun c => c.command p 0x003 (fun c h ws =>
    let w := ws.headD 0
    let n := bits w 20 7
    if n = 0 || 84 < n then c.finish p St.param []
    else c.onNamedDie p h (fun c d => c.finish p St.ok (c.eventWords d (bits w 0 20) n))))

/-- An acknowledgement of the entries of a die up to a SEQ; whether the SEQ is acceptable (R671). -/
def Chip.eventAck (s : Chip) (p d seq : Nat) : Chip :=
  let a := s.logBack d seq
  s.when (decide (a < s.unreadBy p d)) (fun s => s.onCmd p (fun x => { x with ackSeq := x.ackSeq.set d seq }))

/-- EVENT_ACK (R580, R671). -/
def execEventAck (p : Fin 5) (s : State) : Out :=
  s.onChip (fun c => c.command p 0x004 (fun c h ws =>
    let seq := bits (ws.headD 0) 0 20
    if c.fld (cmdDie h) F.DRN_LOG_STATUS_LEVEL ≤ c.logBack (cmdDie h) seq && 2 ^ 19 ≤ c.logBack (cmdDie h) seq then
      c.finish p St.param []
    else c.onNamedDie p h (fun c d => (c.eventAck p d seq).finish p St.ok [])))

/-- HEALTH_READ (R580). -/
def execHealthRead (p : Fin 5) (s : State) : Out :=
  s.onChip (fun c => c.command p 0x008 (fun c h _ => c.onNamedDie p h (fun c d =>
    c.finish p St.ok (c.reg d Reg.HMN_TEMP :: (List.range 7).map (fun r => c.reg d (Reg.HMN_RAIL r)) ++ [c.reg d Reg.HMN_STATUS]))))

/-- POSITION_READ: q and the status of both channels (R580). -/
def execPositionRead (p : Fin 5) (s : State) : Out :=
  s.onChip (fun c => c.command p 0x281 (fun c h _ => c.onNamedDie p h (fun c d =>
    c.finish p St.ok ((List.range 2).flatMap (fun ch =>
      [word (c.chnPos d ch), word (c.chnPos d ch / 2 ^ 36), c.chnView d (Reg.CHN_CH_STATUS ch)])))))

/-! ### RESET (R580, R643) -/

/-- RESET of a die (R643). -/
def Chip.resetDie (s : Chip) (p : Nat) (h : W36) : Chip :=
  let d := cmdDie h
  if s.dev != .releasing && s.dev != .user then
    s.finish p St.state [word (s.dev.code + stateMask [6, 7]), 0]
  else s.onNamedDie p h (fun s _ =>
    if (List.range 4).all (fun e => e = d || s.dieInReset e || s.resetDue.getLsbD e) then s.finish p St.refused []
    else ({ s with resetDue := s.resetDue ||| BitVec.ofNat 4 (2 ^ d) }).finish p St.ok [])

/-- RESET: the reset itself begins 100 µs after the reply (R580). -/
def execReset (p : Fin 5) (s : State) : Out :=
  s.onChip (fun c => c.command p 0x005 (fun c h ws =>
    if bit (ws.headD 0) 0 then c.resetDie p h
    else c.onNamedDie p h (fun c _ =>
      let cfg := { c.cfg with resetPending := true }
      ({ c with cfg := cfg }).finish p St.ok [])))

/-! ### The time service (R591) -/

/-- TIME_SERVICE with its parameter word. -/
def Chip.timeSet (s : Chip) (w : W36) : Chip :=
  let mode := bits w 0 2
  { s with timeSvc := { s.timeSvc with
      mode := mode, kp := bits w 2 5, ki := bits w 7 5, stepThr := bits w 12 20
      first := if mode = 1 then true else s.timeSvc.first } }

/-- TIME_SERVICE (R591). -/
def execTimeService (p : Fin 5) (s : State) : Out :=
  s.onChip (fun c => c.command p 0x009 (fun c h ws =>
    let w := ws.headD 0
    if bits w 0 2 = 3 then c.finish p St.param []
    else c.onNamedDie p h (fun c _ => (c.timeSet w).finish p St.ok [])))

/-- A value saturated to a signed field of 24 bits. -/
def sat24 (v : Int) : Int := max (-8388608) (min 8388607 v)

/-- The value of CHN_TIME_RATE for a sum scaled by 2^31 over an interval; the rounding of a quotient that is no whole number, and
the quotient for an interval of zero, are free (R591). -/
def Chip.timeRate (s : Chip) (sum : Int) (interval : Nat) : Nat :=
  if interval = 0 then (Config.timeRateIdle s.free).toNat
  else
    let q := 2 * sum / (interval : Int)
    let whole := decide (q * interval = 2 * sum)
    unsigned 24 (sat24 (if !whole && Config.timeRateUp s.free then q + 1 else q))

/-- One sample of the offset of device time, in nanoseconds (R591). -/
def Chip.timeSample (s : Chip) (off : Int) : Chip :=
  let t := s.timeSvc
  let m := s.chnAll.master
  if (max 1 t.stepThr * 1000 : Nat) < off.natAbs then
    let s := { (s.timeStepWrite m (word (unsigned 36 off))) with timeSvc := { t with acc := 0, first := true } }
    s.logEv m Ev.timeStep (unsigned 36 off)
  else if t.first then { s with timeSvc := { t with acc := 0, first := false, lastTime := s.time m } }
  else
    let acc := t.acc + off * 2 ^ (31 - t.ki)
    let interval := (s.time m + 2 ^ 64 - t.lastTime) % 2 ^ 64
    let rate := s.timeRate (off * 2 ^ (31 - t.kp) + acc) interval
    let s := { s with timeSvc := { t with acc := acc, lastTime := s.time m }, free := s.free + 1 }
    s.timeRateWrite m (word rate)

/-- TIME_SAMPLE (R591). -/
def execTimeSample (p : Fin 5) (s : State) : Out :=
  s.onChip (fun c => c.command p 0x00A (fun c h ws =>
    if c.timeSvc.mode != 1 then c.finishState p 0x00A c.timeSvc.mode [1]
    else c.onNamedDie p h (fun c _ => (c.timeSample (signed 36 (ws.headD 0).toNat)).finish p St.ok [])))

/-! ### Commands on single blocks -/

/-- A command's refusal with the code of R541 in its word. -/
def Chip.powerReply (r : Chip × Option Nat) (p : Nat) : Chip :=
  match r.2 with
  | some code => r.1.finish p St.refused [word code]
  | none => r.1.finish p St.ok []

/-- POWER_SET (R538, R541, R549). -/
def execPowerSet (p : Fin 5) (s : State) : Out :=
  s.onChip (fun c => c.command p 0x100 (fun c h ws =>
    let w := ws.headD 0
    let dom := bits w 0 6
    if 46 < dom then c.finish p St.param []
    else c.onNamedDie p h (fun c d =>
      if bit w 8 && bit w 11 then Chip.powerReply (c.refuseDom d dom 13, some 13) p
      else if bit w 8 then Chip.powerReply (c.requestState d dom (bits w 6 2)) p
      else if bit w 11 then Chip.powerReply (c.requestLevel d dom (bits w 9 2)) p
      else c.finish p St.ok [])))

/-- TOKEN_POST: a token for the Bellows of the named die (R311, R580). -/
def execTokenPost (p : Fin 5) (s : State) : Out :=
  s.onChip (fun c => c.command p 0x200 (fun c h ws => c.onNamedDie p h (fun c d =>
    let f : Flit := { w0 := word (bits (ws.getD 1 0) 0 10), w2 := ws.getD 0 0, w3 := ws.getD 2 0, w4 := ws.getD 3 0, w5 := ws.getD 4 0 }
    (c.tokenArrives d (TokenIn.ofFlit f)).finish p St.ok [])))

/-- RESULT_POP (R343, R580). -/
def execResultPop (p : Fin 5) (s : State) : Out :=
  s.onChip (fun c => c.command p 0x201 (fun c h _ => c.onNamedDie p h (fun c d =>
    let (c, w) := c.resultPop d
    c.finish p St.ok (w :: (List.range 3).map (fun i => c.reg d (Reg.BLW_RESULT_DATA i))))))

/-- PAD_RELEASE (R402). -/
def execPadRelease (p : Fin 5) (s : State) : Out :=
  s.onChip (fun c => c.command p 0x280 (fun c h ws => c.onNamedDie p h (fun c d =>
    let (c, refused) := c.padRelease d (bits (ws.headD 0) 0 1)
    c.finish p (if refused then St.refused else St.ok) [])))

/-- RANK_RETIRE (R490). -/
def execRankRetire (p : Fin 5) (s : State) : Out :=
  s.onChip (fun c => c.command p 0x300 (fun c h ws =>
    let w := ws.headD 0
    let ch := bits w 0 1
    if c.lranks (cmdDie h) ch ≤ bits w 1 2 then c.finish p St.param []
    else c.onNamedDie p h (fun c d =>
      let (c, started) := c.retireRank d ch (bits w 1 2)
      c.finish p (if started then St.ok else St.refused) [])))

/-- REKEY (R529). -/
def execRekey (p : Fin 5) (s : State) : Out :=
  s.onChip (fun c => c.command p 0x301 (fun c h ws =>
    let d := cmdDie h
    let ch := bits (ws.headD 0) 0 1
    let mode := c.fld d (F.MIE_CH_CFG_MODE ch)
    if mode = 0 then c.finishState p 0x301 mode [1, 2]
    else c.onNamedDie p h (fun c d =>
      if c.flag d (F.MIE_CH_STATUS_INIT_BUSY ch) || c.flag d (F.MIE_CH_STATUS_REKEY_BUSY ch) then c.finish p St.busy []
      else (c.startRekey d ch).finish p St.ok [])))

/-- LINK_KEY (R463, R580). -/
def execLinkKey (p : Fin 5) (s : State) : Out :=
  s.onChip (fun c => c.command p 0x386 (fun c h ws => c.onNamedDie p h (fun c d =>
    let w := ws.headD 0
    let key := (List.range 8).foldl (fun k i => k * 2 ^ 32 + bits (ws.getD (i + 1) 0) 0 32) 0
    (c.loadKey d (bits w 0 2) (bits w 2 16) (BitVec.ofNat 256 key) (BitVec.ofNat 32 (bits (ws.getD 9 0) 0 32))).finish p
      St.ok [])))

end Sys2Proof.Machine
end

