-- ==== Sys2Proof/Machine/RegAccess.lean ====
section
/-! DEFINITION. The register space of a die: what a write of any offset does and what a read of any offset returns (R10 to R15,
R31, R32). -/

namespace Sys2Proof.Machine

/-! ### Writes -/

/-- A W1C bit whose clearing also zeroes a count. -/
def Chip.clearCount (s : Chip) (d off lo : Nat) (count : Fld) (v : W36) : Chip :=
  (s.plainWrite d off v).when (bit v lo) (fun s => s.setFld d count 0)

/-- A write of CFG_RELEASE: a DONE_SRC of 3 is ignored; a release waiting for its done condition looks again (R185). -/
def Chip.releaseWrite (s : Chip) (d : Nat) (v : W36) : Chip :=
  let src := s.fld d F.CFG_RELEASE_DONE_SRC
  let s := s.plainWrite d Reg.CFG_RELEASE v
  (s.when (bits v 16 2 == 3) (fun s => s.setFld d F.CFG_RELEASE_DONE_SRC src)).checkDone

/-- A write of a CFG_ register. -/
def Chip.cfgWrite (s : Chip) (d off : Nat) (v : W36) : Chip :=
  if off = Reg.CFG_RAM_CLEAR then s.ramClearWrite d v
  else if off = Reg.CFG_RELEASE then s.releaseWrite d v
  else if off = Reg.CFG_RAM_STATUS then s.clearCount d off 2 F.CFG_RAM_STATUS_CHECK_COUNT v
  else if off = Reg.CFG_LUTRAM_STATUS then s.clearCount d off 0 F.CFG_LUTRAM_STATUS_COUNT v
  else if off = Reg.CFG_CONTENTION then s.clearCount d off 0 F.CFG_CONTENTION_COUNT v
  else s.plainWrite d off v

/-- A write of a CHN_ register, the cue registers included. -/
def Chip.chanterWrite (s : Chip) (d off : Nat) (v : W36) : Chip :=
  if Reg.CHN_CUE_CFG 0 ≤ off && off < Reg.CHN_CUE_CFG 48 && off % 2 = 0 then s.cueCfgWrite d ((off - Reg.CHN_CUE_CFG 0) / 2) v
  else s.chnWrite d off v

/-- A write of a BLW_ register. -/
def Chip.blwRegWrite (s : Chip) (d off : Nat) (v : W36) : Chip :=
  if off = Reg.BLW_CTRL then s.blwCtrlWrite d v
  else if Reg.BLW_TPL_A 0 ≤ off && off < Reg.BLW_TPL_A 256 then
    s.blwTplWrite d ((off - Reg.BLW_TPL_A 0) / 2) (off % 2 == 1) v
  else if Reg.BLW_WORKER 0 ≤ off && off < Reg.BLW_WORKER 192 then s.blwWorkerWrite d (off - Reg.BLW_WORKER 0) v
  else if Reg.BLW_FLOW 0 ≤ off && off < Reg.BLW_FLOW 1024 && off % 2 = 0 then s.blwFlowWrite d ((off - Reg.BLW_FLOW 0) / 2) v
  else if Reg.BLW_FABPORT 0 ≤ off && off < Reg.BLW_FABPORT 128 then s.blwFabportWrite d (off - Reg.BLW_FABPORT 0) v
  else s.plainWrite d off v

/-- A write of a NOC_ register. -/
def Chip.nocWrite (s : Chip) (d off : Nat) (v : W36) : Chip :=
  if Reg.NOC_PORT 0 0 ≤ off && off < Reg.NOC_PORT 64 0 then
    s.nocPortWrite d ((off - Reg.NOC_PORT 0 0) / 4) ((off - Reg.NOC_PORT 0 0) % 4) v
  else s.plainWrite d off v

/-- A write of a CRL_ register. -/
def Chip.crlWrite (s : Chip) (d off : Nat) (v : W36) : Chip :=
  if Reg.CRL_BUNDLE_CTRL 0 0 ≤ off && off < Reg.CRL_BUNDLE_CTRL 2 0 then
    s.crlCtrlWrite d ((off - Reg.CRL_BUNDLE_CTRL 0 0) / 8) ((off - Reg.CRL_BUNDLE_CTRL 0 0) % 8) v
  else s.plainWrite d off v

/-- A write of a register of die d at a word offset; `trusted` for one that R642 lets reach OBE_PMC_USER (R10 to R13, R31,
R32). -/
def Chip.regWrite (s : Chip) (d off : Nat) (v : W36) (trusted : Bool) : Chip :=
  if (findRow off).isNone then s
  else if off < 0x010000 then (if off = Reg.DRN_CMD then s.drnCmdWrite d v else s.plainWrite d off v)
  else if off < 0x020000 then s.cfgWrite d off v
  else if off < 0x030000 then s.plainWrite d off v
  else if off < 0x040000 then s.pwrWrite d off v
  else if off < 0x050000 then
    (if off = Reg.CKM_GATE_STATUS then s.clearCount d off 0 F.CKM_GATE_STATUS_COUNT v else s.ckmWrite d off v)
  else if off < 0x060000 then s.chanterWrite d off v
  else if off < 0x070000 then s.blwRegWrite d off v
  else if off < 0x090000 then s.nocWrite d off v
  else if off < 0x0A0000 then s.crlWrite d off v
  else if off < 0x0C0000 then s.ddrWrite d off v
  else if off < 0x0D0000 then s.mieWrite d off v
  else if off < 0x0E0000 then s.xcvWrite d off v
  else if off < 0x0F0000 then s.ethWrite d off v
  else if off < 0x100000 then s.krnWrite d off v
  else if off < 0x110000 then s.uioWrite d off v
  else if off < 0x120000 then s.plainWrite d off v
  else if off < 0x200000 then s.pmcRegWrite d none (off - Reg.PMC_CFG) v trusted
  else s.obeWrite d ((off - 0x200000) / 0x10000) (off % 0x10000) v trusted

/-- REGISTER_WRITE: a write of any register of a die (R10 to R13). -/
def execRegisterWrite (d : Die) (off : BitVec 23) (v : W36) (s : State) : Out :=
  s.onDie d (fun c => c.regWrite d off.toNat v false)

/-! ### Reads -/

/-- SEC_STATUS of a die. -/
def Chip.secStatus (s : Chip) (d : Nat) : W36 :=
  let f := s.fuses
  word (s.sec.level + max f.level f.nextLevel * 2 ^ 2 + ofBool (f.ownerHash != 0) * 2 ^ 4 + ofBool (f.deviceKey != 0) * 2 ^ 5 +
    ofBool s.sec.unlocked * 2 ^ 6 + f.epoch * 2 ^ 7 + s.fld d F.SEC_STATUS_IMAGE_EPOCH * 2 ^ 14 + s.dieDebug d * 2 ^ 21)

/-- Whether LOCKOUT is in force (R603). -/
def SecurityRec.lockout (x : SecurityRec) : Bool := 8 ≤ x.fails

/-- What a SEC_ register shows. -/
def Chip.secView (s : Chip) (d off : Nat) : W36 :=
  if off = Reg.SEC_STATUS then s.secStatus d
  else if off = Reg.SEC_AUTH_FUSE then word (s.fuses.authLocked.toNat + s.fuses.authSealed.toNat * 2 ^ 10)
  else if off = Reg.SEC_UID_LO then word (bits s.fuses.uid 0 36)
  else if off = Reg.SEC_UID_HI then word (bits s.fuses.uid 36 36)
  else if off = Reg.SEC_UNLOCK then
    word (min s.sec.fails 255 + ofBool s.sec.lockout * 2 ^ 8 + ofBool s.sec.nonce.isSome * 2 ^ 9)
  else s.reg d off

/-- What a DRN_ register shows. -/
def Chip.drnView (s : Chip) (d off : Nat) : W36 :=
  if off = Reg.DRN_REPLY then s.drnReplyView d
  else if off = Reg.DRN_MBOX_STATUS then s.drnMboxView d
  else if off = Reg.DRN_PORT_AUTH then word s.sec.auth
  else if off = Reg.DRN_FW then word Config.firmware.toNat
  else s.reg d off

/-- What a CFG_ register shows. -/
def Chip.cfgView (s : Chip) (d off : Nat) : W36 :=
  if off = Reg.CFG_STATUS then putBits (putBits (s.reg d off) 0 4 s.dev.code) 11 3 s.cfg.mode.toNat
  else if off = Reg.CFG_CLAIM_DATA then s.claimData d
  else if off = Reg.CFG_REMAP_DATA then s.remapData d
  else s.reg d off

/-- CRL_SIDEBAND of a die: RST and HALT as the dies across its edges drive them, MGT_UP while an advert of the edge arrived within the
last 200 µs, CFG_UP while both dies of the edge are out of reset (R228 to R231, log 207). -/
def Chip.sidebandView (s : Chip) (d : Nat) : W36 :=
  let up (e : Nat) : Nat := ofBool ((List.range 8).any (fun k => match (s.crlSide d e k).lastGood with
    | some t => s.now ≤ t + 200000
    | none => false))
  let both (f : Nat → Bool) : Nat := ofBool (f 0) + 2 * ofBool (f 1)
  let r := putBits (s.reg d Reg.CRL_SIDEBAND) 0 2 (both (fun e => s.peerRst d e))
  let r := putBits r 2 2 (both (fun e => s.haltOut.getLsbD (peerDie d e)))
  let r := putBits r 4 2 (up 0 + 2 * up 1)
  putBits r 6 2 (both (fun e => s.linked d && s.linked (peerDie d e)))

/-- A read of a register of die d at a word offset: the chip after it and the word returned; an inactive read has no side
effect (R11, R13, R15, R32). -/
def Chip.regRead (s : Chip) (d off : Nat) (active : Bool) : Chip × W36 :=
  let view (w : W36) : Chip × W36 := (s, w)
  if (findRow off).isNone then view 0
  else if off < 0x010000 then (if off = Reg.DRN_REPLY && active then s.drnReplyRead d else view (s.drnView d off))
  else if off < 0x020000 then view (s.cfgView d off)
  else if off < 0x030000 then view (s.secView d off)
  else if off < 0x050000 then view (s.reg d off)
  else if off < 0x060000 then
    (if Reg.CHN_CUE_CFG 0 ≤ off && off < Reg.CHN_CUE_CFG 48 then
      view (if off % 2 = 0 then s.reg d off else s.cueStat d ((off - Reg.CHN_CUE_CFG 0) / 2))
    else if active then s.chnRead d off else view (s.chnView d off))
  else if off < 0x070000 then
    (if off = Reg.BLW_RESULT_POP && active then s.resultPop d else view (s.blwView d off))
  else if off = Reg.CRL_SIDEBAND then view (s.sidebandView d)
  else if off < 0x0A0000 then view (s.reg d off)
  else if off < 0x0C0000 then s.ddrRead d off active
  else if off = Reg.KRN_DEVNUM && d = 0 then view (putBits (s.reg d off) 12 12 s.cfg.loadedFrom.length)
  else if off < 0x100000 then view (s.reg d off)
  else if off < 0x110000 then view (s.uioView d off)
  else if off < 0x120000 then view (s.reg d off)
  else if off < 0x200000 then s.pmcRegRead d none (off - Reg.PMC_CFG) active
  else s.obeRead d ((off - 0x200000) / 0x10000) (off % 0x10000) active

end Sys2Proof.Machine
end

