-- ==== Sys2Proof/Machine/Debug.lean ====
section
/-! DEFINITION. Test access ports, boundary scan, the JTAG mailbox, and debug sessions of the cores (chapter 20). -/

namespace Sys2Proof.Machine

/-! ### Instructions of a TAP (R610 to R616) -/

def Ir.extest : Nat := 0x00
def Ir.sample : Nat := 0x01
def Ir.idcode : Nat := 0x02
def Ir.mailbox : Nat := 0x08
def Ir.dbg : Nat := 0x10
def Ir.bypass : Nat := 0x3F

/-- Whether debug instructions are available: OPEN, or LOCKED while unlocked, never in SECURE_HALT (R593, R607, R612). -/
def Chip.debugAllowed (s : Chip) : Bool :=
  s.alive && s.dev ≠ .secureHalt && (s.sec.level = 0 || (s.sec.level = 1 && s.sec.unlocked))

/-- The Capture-IR value of a die's TAP (R610). -/
def Chip.captureIr (s : Chip) (d : Nat) : W36 :=
  word (1 + ofBool (s.tap d).refused * 4 + ofBool s.debugAllowed * 8 + ofBool (s.dieInReset d) * 16 +
    ofBool (s.dev == .secureHalt) * 32)

/-- Whether an instruction is allowed on a die's TAP (R593, R607, R612). -/
def Chip.irAllowed (s : Chip) (d code : Nat) : Bool :=
  if code = Ir.extest || code = Ir.sample then s.scanAllowed
  else if code = Ir.mailbox then d = 0 && s.alive && s.portAuth Port.jtag != 0
  else if code = Ir.dbg then s.debugAllowed
  else code = Ir.idcode || code = Ir.bypass

/-- An instruction loaded where it is allowed; otherwise the TAP behaves as under BYPASS (R612). -/
def Chip.loadIr (s : Chip) (d code : Nat) : Chip :=
  let ok := s.irAllowed d code
  s.onTap d (fun t => { t with ir := if ok then code else Ir.bypass, refused := !ok })

/-- IDCODE of a die (R613). -/
def idcodeWord (d : Nat) : W36 := word (1 + 0x1A9 * 2 + d * 2 ^ 12 + 0x1944 * 2 ^ 14 + 1 * 2 ^ 28)

/-- What the boundary register of a die captures: each pin's input, output and output enable, and on D0 the six encoder pairs
(R614). -/
def Chip.boundaryCapture (s : Chip) (d : Nat) : BitVec 294 :=
  let pins := (List.range 96).foldl (fun (v : Nat) i =>
    let (drives, level) := s.pinOut d (i / 48) (i % 48)
    v + (ofBool (s.pinLevel d (i / 48) (i % 48)) + 2 * ofBool level + 4 * ofBool drives) * 2 ^ (3 * i)) 0
  let pairs := if d = 0 then (List.range 2).foldl (fun (v : Nat) c =>
      let x := s.chan 0 c
      v + (ofBool x.a + 2 * ofBool x.b + 4 * ofBool x.z) * 2 ^ (288 + 3 * c)) 0 else 0
  BitVec.ofNat 294 (pins + pairs)

/-- A register of many bits as words of 36. -/
def toWords (n v : Nat) : List W36 := (List.range n).map (fun i => word (v / 2 ^ (36 * i)))

/-- Test-Logic-Reset on every TAP (R611, R615). -/
def Chip.tapsReset (s : Chip) : Chip := s.upTo 4 (fun s d => s.onTap d (fun t => { t with ir := Ir.idcode, refused := false }))

/-- TRST_N_LOW (R611). -/
def execTrstNLow (s : State) : Out := s.onChip (fun c => c.tapsReset)

/-- TEST_LOGIC_RESET (R611). -/
def execTestLogicReset (s : State) : Out := s.onChip (fun c => c.tapsReset)

/-- A scan of the mailbox register: the reply word asked for, then the word of this update (R616). -/
def Chip.mailboxScan (s : Chip) (dr : BitVec 38) : Chip × List W36 :=
  if !s.portAnswers Port.jtag then (s, [0, 0])
  else
    let x := s.cmd Port.jtag
    let flags := word (ofBool x.reply.isSome + 2 * ofBool x.buffered.isNone)
    let (y, w) := if (s.tap 0).ask then x.readWord else (x, 0)
    let s := (s.onCmd Port.jtag (fun _ => y)).onTap 0 (fun t => { t with ask := bit dr 37 })
    (s.when (bit dr 36) (fun s => s.portWord Port.jtag (word (bits dr 0 36))), [w, flags])

/-! ### The debug register (R617 to R622) -/

def Op.nop : Nat := 0
def Op.read : Nat := 1
def Op.activeRead : Nat := 2
def Op.write : Nat := 3
def Op.memRead : Nat := 4
def Op.memWrite : Nat := 5
def Op.attach : Nat := 6
def Op.detach : Nat := 7
def Op.halt : Nat := 8
def Op.forceHalt : Nat := 9
def Op.resume : Nat := 10
def Op.step : Nat := 11

/-- What the debug register captures: DATA; ADDR and status; OP. While an operation runs its own OP and ADDR show, with status
BUSY (R619). -/
def DieTap.capture (t : DieTap) : List W36 :=
  match t.busy with
  | some (op, addr, _) => [t.lastData, word (addr + St.busy * 2 ^ 32), word op]
  | none => [t.lastData, word (t.lastAddr + t.lastStatus * 2 ^ 32), word t.lastOp]

/-- Outside a session, and with no operation, the debug domain is in IDLE (R617). -/
def Chip.debugIdle (s : Chip) (d : Nat) : Chip :=
  let t := s.tap d
  if t.attached = 0 && t.busy.isNone && t.force.isNone then
    (s.setFld d (F.PWR_DOM_STATUS_STATE Dom.debug) 1).setFld d (F.PWR_DOM_STATUS_PHASE Dom.debug) 0
  else s

/-- The result of an operation, shown by the next capture. -/
def Chip.dbgResult (s : Chip) (d op status addr : Nat) (v : W36) : Chip :=
  s.onTap d (fun t => { t with lastOp := op, lastStatus := status, lastAddr := addr, lastData := v })

/-- The BUSY operation completes (R619). -/
def Chip.dbgDone (s : Chip) (d status : Nat) (v : W36) : Chip :=
  match (s.tap d).busy with
  | some (op, addr, _) =>
    ((s.dbgResult d op status addr v).onTap d (fun t => { t with busy := none, begun := false })).debugIdle d
  | none => s

/-- Whether the debug domain of a die runs. -/
def Chip.debugRuns (s : Chip) (d : Nat) : Bool := s.domState d Dom.debug = 0 && s.domPhase d Dom.debug = 0

/-- An update of the debug register (R617, R619, R621, R622). -/
def Chip.dbgUpdate (s : Chip) (d : Nat) (dr : BitVec 76) : Chip :=
  let op := bits dr 68 4
  let addr := bits dr 36 32
  let v := word (bits dr 0 36)
  let t := s.tap d
  let s := s.when (s.domState d Dom.debug != 0) (fun s => s.wake d Dom.debug 0)
  if bits dr 72 4 != 0 || 12 ≤ op then s.when t.busy.isNone (fun s => (s.dbgResult d op St.param addr 0).debugIdle d)
  else if op = Op.nop then s
  else if op = Op.forceHalt then
    match t.busy with
    | none => s.onTap d (fun t => { t with busy := some (op, addr, v), begun := false })
    | some (o, a, _) =>
      if (o = Op.halt || o = Op.step) && a % 64 = addr % 64 then
        s.onTap d (fun t => { t with busy := some (op, addr, v), begun := false })
      else s.onTap d (fun t => { t with force := some addr })
  else s.when t.busy.isNone (fun s => s.onTap d (fun t => { t with busy := some (op, addr, v), begun := false }))

/-! ### Scans of the chain (R18, R610 to R616) -/

/-- A scan of the data register that a die's TAP has selected: the words it captures, and what its update does with dr. Under EXTEST and
SAMPLE/PRELOAD the update loads the cells of the pins; a pair's cells only observe (R612 to R616, R619). -/
def Chip.scanDr (s : Chip) (d : Nat) (dr : BitVec 294) : Chip × List W36 :=
  let ir := (s.tap d).ir
  if ir = Ir.extest || ir = Ir.sample then
    (s.onTap d (fun t => { t with boundary := dr.setWidth 288 }), toWords 9 (s.boundaryCapture d).toNat)
  else if ir = Ir.idcode then (s, [idcodeWord d])
  else if ir = Ir.mailbox then s.mailboxScan (dr.setWidth 38)
  else if ir = Ir.dbg then (s.dbgUpdate d (dr.setWidth 76), (s.tap d).capture)
  else (s, [0])

/-- The dies in the order in which their bits leave TDO (R18, R613). -/
def chainOrder : List Nat := [2, 3, 1, 0]

/-- What a scan of the chain gives a die's TAP; one that the scan does not name gets BYPASS. -/
def tapOf (scans : List TapScan) (d : Nat) : Nat × BitVec 294 :=
  match scans.find? (fun x => x.die.val = d) with
  | some x => (x.ir.toNat, x.dr)
  | none => (Ir.bypass, 0)

/-- A scan of the whole chain: every TAP loads its instruction, and then its data register is scanned. Returned are the Capture-IR values
and then the captured data, in the order in which they leave TDO (R18, R610, R613). -/
def Chip.scanChain (s : Chip) (scans : List TapScan) : Chip :=
  if s.dev = .off then s
  else
    let irs := chainOrder.map (fun d => s.captureIr d)
    let s := s.each chainOrder (fun s d => s.loadIr d (tapOf scans d).1)
    let (s, ws) := chainOrder.foldl (fun (x : Chip × List W36) d =>
      let (s, w) := x.1.scanDr d (tapOf scans d).2
      (s, x.2 ++ w)) (s, [])
    { s with returned := irs ++ ws }

/-- A scan that selects an instruction on a die's TAP, with what it gives the other TAPs. -/
def Chip.scanTap (s : Chip) (x : ChainScan) (code : Nat) (dr : BitVec 294) : Chip :=
  s.scanChain ({ die := x.die, ir := BitVec.ofNat 6 code, dr := dr } :: x.rest)

/-- IDCODE (R613). -/
def execIdcode (x : ChainScan) (s : State) : Out := s.onChip (fun c => c.scanTap x Ir.idcode 0)

/-- BYPASS (R612). -/
def execBypass (x : ChainScan) (s : State) : Out := s.onChip (fun c => c.scanTap x Ir.bypass 0)

/-- EXTEST: the pins of the die are driven from the boundary register, which the scan captures and loads (R615). -/
def execExtest (x : ExtestScan) (s : State) : Out := s.onChip (fun c => c.scanTap x.scan Ir.extest x.v)

/-- SAMPLE/PRELOAD: the pins captured, and the boundary register's update cells loaded (R612, R614). -/
def execSamplePreload (x : ChainScan) (v : BitVec 294) (s : State) : Out := s.onChip (fun c => c.scanTap x Ir.sample v)

/-- MAILBOX: the transport of the JTAG command port (R564, R612, R616). -/
def execMailbox (x : ChainScan) (dr : BitVec 38) (s : State) : Out :=
  s.onChip (fun c => c.scanTap x Ir.mailbox (dr.setWidth 294))

/-- DBG: a scan of the debug register; the update starts an operation (R619 to R622). -/
def execDbg (x : ChainScan) (dr : BitVec 76) (s : State) : Out := s.onChip (fun c => c.scanTap x Ir.dbg (dr.setWidth 294))

/-- The BUSY operation of code op carried out, once the debug domain runs. -/
def Chip.dbgRun (s : Chip) (d op : Nat) (run : Chip → Nat → W36 → Chip) : Chip :=
  match (s.tap d).busy with
  | some (o, addr, v) => if o = op && s.debugAllowed && s.debugRuns d && !(s.tap d).begun then run s addr v else s
  | none => s

/-- DBG_NOP: the capture returns the latest result (R621). -/
def execDbgNop (d : Die) (s : State) : Out :=
  s.onChip (fun c => c.when c.debugAllowed (fun c => { c with returned := (c.tap d).capture }))

/-! ### Register and memory operations (R15, R620 to R624) -/

/-- A register operation: PARAM above the register space, RESOURCE on a die in reset (R622). -/
def Chip.dbgReg (s : Chip) (d op : Nat) (run : Chip → Nat → W36 → Chip) : Chip :=
  s.dbgRun d op (fun s addr v =>
    if 0x600000 ≤ addr then s.dbgDone d St.param 0
    else if s.dieInReset d then s.dbgDone d St.resource 0
    else run s addr v)

/-- READ: a quiet read (R15, R621). -/
def execRead (d : Die) (s : State) : Out :=
  s.onChip (fun c => c.dbgReg d Op.read (fun c a _ => c.dbgDone d St.ok (c.regRead d a false).2))

/-- ACTIVE_READ: a read with its side effect (R15, R621). -/
def execActiveRead (d : Die) (s : State) : Out :=
  s.onChip (fun c => c.dbgReg d Op.activeRead (fun c a _ =>
    let (c, v) := c.regRead d a true
    c.dbgDone d St.ok v))

/-- WRITE (R621, R642). -/
def execWrite (d : Die) (s : State) : Out :=
  s.onChip (fun c => c.dbgReg d Op.write (fun c a v => (c.regWrite d a v true).dbgDone d St.ok 0))

/-- The fields of a core operation's ADDR (R620). -/
def dbgCore (a : Nat) : Nat := a % 64
def dbgSpace (a : Nat) : Nat := a / 64 % 4
def dbgAddr (a : Nat) : Nat := a / 256 % 8192

/-- Register codes that a debug operation knows, beside the three of its own (R280, R624). -/
def dbgCode (code : Nat) : Bool := code ≤ 0x15 || (0x18 ≤ code && code < 0x38)

/-- A memory operation: the unnamed bits of ADDR zero; the core HALTED or FAULT_HALT (R620, R623). -/
def Chip.dbgMem (s : Chip) (d op : Nat) (run : Chip → Nat → Nat → W36 → Chip) : Chip :=
  s.dbgRun d op (fun s a v =>
    let n := dbgCore a
    let st := s.coreState d n
    if 2 ^ 21 ≤ a || (dbgSpace a = 3 && (64 ≤ dbgAddr a || !dbgCode (dbgAddr a))) then s.dbgDone d St.param 0
    else if (st != Obe.halted && st != Obe.faultHalt) || s.domState d (Dom.quad (n / 4)) != 0 then s.dbgDone d St.state 0
    else run s n a v)

/-- HALT_INFO of a core (R624). -/
def Core.haltInfo (c : Core) : Nat :=
  ofBool c.haltForced + 2 * ofBool (c.rep != 0) + 4 * ofBool (c.slots != 0) + 8 * ofBool c.lockBroken + 16 * (c.haltedFrom - 1)

/-- A register of a halted core as the debug path reads it (R281, R624). -/
def Core.dbgValue (c : Core) (code : Nat) : Nat :=
  if code = 0x13 then c.sys.length + c.loops.length * 2 ^ 5
  else if code = 0x14 then c.rep
  else if code = 0x15 then c.haltInfo
  else (c.readReg code (c.cycle + 1) c.pc).1

/-- MEM_READ (R623, R624). -/
def execMemRead (d : Die) (s : State) : Out :=
  s.onChip (fun c => c.dbgMem d Op.memRead (fun c n a _ =>
    if dbgSpace a = 3 then c.dbgDone d St.ok (word ((c.core d n).dbgValue (dbgAddr a)))
    else
      let (v, syn) := c.coreWord d n (dbgSpace a) (dbgAddr a)
      c.dbgDone d (if syn = 0 then St.ok else St.integrity) (word v)))

/-- A register of a halted core written by the debug path; STATE for PC inside delay slots or a REP, PARAM for the codes that
are read only (R624). -/
def Chip.dbgSet (s : Chip) (d n code v : Nat) : Chip :=
  let c := s.core d n
  if code = pcCode then
    if c.slots != 0 || c.rep != 0 then s.dbgDone d St.state 0
    else (s.onCore d n (fun c => { c with pc := v % 8192 })).dbgDone d St.ok 0
  else if 0x13 ≤ code && code ≤ 0x15 then s.dbgDone d St.param 0
  else (s.onCore d n (fun c => (c.writeReg code (v % 2 ^ 24) c.cycle).commit (c.cycle + 1))).dbgDone d St.ok 0

/-- MEM_WRITE (R623, R624). -/
def execMemWrite (d : Die) (s : State) : Out :=
  s.onChip (fun c => c.dbgMem d Op.memWrite (fun c n a v =>
    if dbgSpace a = 3 then c.dbgSet d n (dbgAddr a) v.toNat
    else (c.writeCoreWord d n (dbgSpace a) (dbgAddr a) v.toNat false).dbgDone d St.ok 0))

/-! ### Sessions (R608, R618, R625) -/

/-- Whether a core is attached. -/
def Chip.attached (s : Chip) (d n : Nat) : Bool := (s.tap d).attached.getLsbD n

/-- ATTACH of a core: STATE on a quad that is OFF; a sleeping quad is woken, and the operation waits for RUN (R608, R625). -/
def Chip.attachCore (s : Chip) (d n : Nat) : Chip :=
  let dom := Dom.quad (n / 4)
  if s.domState d dom = 3 then s.dbgDone d St.state 0
  else if s.domPhase d dom = 2 then s
  else if s.asleep d dom then s.wake d dom 3
  else ((s.onTap d (fun t => { t with attached := t.attached ||| BitVec.ofNat 64 (2 ^ n) })).recheckEntry d dom).dbgDone d St.ok 0

/-- ATTACH (R625). -/
def execAttach (d : Die) (s : State) : Out :=
  s.onChip (fun c => c.dbgRun d Op.attach (fun c a _ =>
    if 64 ≤ a then c.dbgDone d St.param 0 else c.attachCore d a))

/-- A core operation that needs an attached core (R625). -/
def Chip.dbgAttached (s : Chip) (d op : Nat) (run : Chip → Nat → Chip) : Chip :=
  s.dbgRun d op (fun s a _ =>
    if 64 ≤ a then s.dbgDone d St.param 0
    else if !s.attached d a then s.dbgDone d St.state 0
    else run s a)

/-! ### Halting and releasing (R626 to R633) -/

/-- A core halts: earlier instructions complete; a forced halt ends a LOCK sequence (R626, R628, R629). -/
def Chip.haltCore (s : Chip) (d n : Nat) (forced : Bool) : Chip :=
  let st := s.coreState d n
  let s := s.drainCore d n
  let s := s.onCore d n (fun c =>
    let broken := forced && c.srBit Sr.lk
    let c := if broken then { ((c.setSr Sr.lk false).setSr Sr.lkb true) with lock := 0 } else c
    { c with haltAsked := false, stepping := false, haltedFrom := st, haltForced := forced, lockBroken := broken })
  (s.setCoreState d n Obe.halted).holdWorker d n

/-- A halted core goes back to the state it left; a task area written, or a wake recorded, since then takes it to RUN (R630). -/
def Chip.goOn (s : Chip) (d n : Nat) : Chip :=
  let c := s.core d n
  if c.haltedFrom = Obe.waittask then
    let s := s.setCoreState d n Obe.waittask
    if c.areaReady then s.completeWait d n else s
  else if c.haltedFrom = Obe.sleep then
    if c.wakeNoted then
      ((s.onCore d n (fun c => { c with wakeNoted := false, cycle := c.cycle + 2 })).setCoreState d n Obe.run).stepEnd d n
    else s.setCoreState d n Obe.sleep
  else s.setCoreState d n Obe.run

/-- A halted core released (R630). -/
def Chip.releaseCore (s : Chip) (d n : Nat) : Chip :=
  s.when (s.coreState d n == Obe.halted) (fun s =>
    (((s.onCore d n (fun c => { c with stepping := false })).goOn d n).reloadWdog d n).unholdWorker d n)

/-- A core leaves its session: a halt or a step that waits is given up, and a halted core is released (R621, R633). -/
def Chip.detachCore (s : Chip) (d n : Nat) : Chip :=
  let s := s.onCore d n (fun c => { c with haltAsked := false, stepping := false })
  let s := s.releaseCore d n
  s.onTap d (fun t => { t with attached := t.attached &&& ~~~(BitVec.ofNat 64 (2 ^ n)) })

/-- DETACH (R621). -/
def execDetach (d : Die) (s : State) : Out :=
  s.onChip (fun c => c.dbgAttached d Op.detach (fun c n => (c.detachCore d n).dbgDone d St.ok 0))

/-- A die's session closes by DEBUG_LOCK: every core is released (R602, R633). -/
def Chip.closeSession (s : Chip) (d : Nat) : Chip :=
  let s := s.upTo 64 (fun s n => s.when (s.attached d n) (fun s => s.detachCore d n))
  (s.sessionsClosed d).debugIdle d

/-- HALT of a core: at once but for a core in RUN, whose halt waits for its next instruction (R626, R627). -/
def Chip.haltOp (s : Chip) (d n : Nat) : Chip :=
  let st := s.coreState d n
  if st = Obe.waittask || st = Obe.sleep then (s.haltCore d n false).dbgDone d St.ok 0
  else if st = Obe.run then
    (s.onCore d n (fun c => { c with haltAsked := true })).onTap d (fun t => { t with begun := true })
  else s.dbgDone d St.ok 0

/-- HALT (R626, R627). -/
def execHalt (d : Die) (s : State) : Out := s.onChip (fun c => c.dbgAttached d Op.halt (fun c n => c.haltOp d n))

/-- A forced halt of a core: in any state but RESET, FAULT_HALT and HALTED it halts at once (R627, R628). -/
def Chip.forceCore (s : Chip) (d n : Nat) : Chip :=
  let st := s.coreState d n
  s.when (st == Obe.run || st == Obe.waittask || st == Obe.sleep) (fun s => s.haltCore d n true)

/-- A FORCE_HALT that stands beside another operation (R622). -/
def Chip.forceBeside (s : Chip) (d : Nat) : Chip :=
  match (s.tap d).force with
  | some a =>
    if !s.debugAllowed || !s.debugRuns d then s
    else
      let s := s.onTap d (fun t => { t with force := none })
      if 64 ≤ a then s.dbgResult d Op.forceHalt St.param a 0
      else if !s.attached d a then s.dbgResult d Op.forceHalt St.state a 0
      else (s.forceCore d a).dbgResult d Op.forceHalt St.ok a 0
  | none => s

/-- FORCE_HALT (R622, R628). -/
def execForceHalt (d : Die) (s : State) : Out :=
  s.onChip (fun c => (c.dbgAttached d Op.forceHalt (fun c n => (c.forceCore d n).dbgDone d St.ok 0)).forceBeside d)

/-- A requested halt or step completes, if the core now stands where it may (R626, R629, R631). -/
def Chip.haltComplete (s : Chip) (d n : Nat) : Chip :=
  match (s.tap d).busy with
  | some (op, a, _) =>
    let st := s.coreState d n
    let c := s.core d n
    if a % 64 != n || !(s.tap d).begun || (op != Op.halt && op != Op.step) then s
    else if st = Obe.halted then (s.holdWorker d n).dbgDone d St.ok 0
    else if st = Obe.reset || st = Obe.faultHalt then
      (s.onCore d n (fun c => { c with haltAsked := false, stepping := false })).dbgDone d St.ok 0
    else if op = Op.halt && !(st = Obe.run && c.heldOff) then (s.haltCore d n false).dbgDone d St.ok 0
    else s
  | none => s

/-- HALT_COMPLETE (R626, R631). -/
def execHaltComplete (d : Die) (n : Fin 64) (s : State) : Out :=
  s.onChip (fun c => c.when c.debugAllowed (fun c => c.haltComplete d n))

/-- RESUME (R630). -/
def execResume (d : Die) (s : State) : Out :=
  s.onChip (fun c => c.dbgAttached d Op.resume (fun c n =>
    if c.coreState d n != Obe.halted then c.dbgDone d St.state 0 else (c.releaseCore d n).dbgDone d St.ok 0))

/-- STEP: the core runs one instruction and halts (R631). -/
def execStep (d : Die) (s : State) : Out :=
  s.onChip (fun c => c.dbgAttached d Op.step (fun c n =>
    if c.coreState d n != Obe.halted then c.dbgDone d St.state 0
    else
      let c := (c.onTap d (fun t => { t with begun := true })).onCore d n (fun x => { x with stepping := true })
      c.goOn d n))

end Sys2Proof.Machine
end

