-- ==== Sys2Proof/Machine/DieReset.lean ====
section
/-! DEFINITION. The reset of one die and its return (R643 to R647). -/

namespace Sys2Proof.Machine

/-! ### What a die reset ends (R579, R644, R647) -/

/-- A load no longer answers, nor takes words from, a port. -/
def Chip.detachLoads (s : Chip) (gone : Nat → Bool) : Chip :=
  let free (p : Option Nat) : Option Nat := p.filter (fun n => !gone n)
  let loads := s.loads.map (fun (e : Nat × Option Loader) =>
    (e.1, e.2.map (fun l => { l with port := free l.port, stream := free l.stream })))
  let updates := s.updates.map (fun (e : Nat × Option UpdateRec) => (e.1, e.2.map (fun u => { u with port := free u.port })))
  { s with loads := loads, updates := updates }

/-- The lead die's ports lose what they hold; what they have acknowledged stays (R649). -/
def Chip.portsLost (s : Chip) : Chip :=
  (s.detachLoads (fun _ => true)).upTo 5 (fun s p => s.onCmd p (fun x =>
    { ackSeq := x.ackSeq, lastRefused := x.lastRefused }))

/-- Commands that a die carries out reply RESOURCE (R579, R647). -/
def Chip.commandsCut (s : Chip) (d : Nat) : Chip :=
  (s.endUpdate d St.resource []).upTo 5 (fun s p => match (s.cmd p).running with
    | some (h :: _) => s.when (cmdDie h = d && (s.cmd p).begun) (fun s => (s.detachLoads (fun n => n = p)).finish p St.resource [])
    | _ => s)

/-- Loads that meet the reset: one in its verify pass is refused with RESOURCE; one in its write pass is corrupted (R647). -/
def Chip.loadsCut (s : Chip) (d : Nat) : Chip :=
  s.upTo 4 (fun s k => match s.loads.get k with
    | some l =>
      if k = d || (l.kind ≠ LoadKind.verify && bits l.regions (16 * d) 16 != 0) then
        if l.writing then s.corruptPart k St.integrity 9 0 else s.failLoad k St.resource 0 0 []
      else s
    | none => s)

/-- Every region of a die EMPTY, and what its fabric held gone; remap tables stay (R129, R645). -/
def Chip.fabricLost (s : Chip) (d : Nat) : Chip :=
  let s := s.upTo 16 (fun s r => s.regionToEmpty d r)
  { s with
    frames := s.frames.dropRange (frameAddr d 0 0 * 64) (frameAddr d 16 0 * 64)
    ff := s.ff.dropRange (cellKey d 0 0 0) (cellKey (d + 1) 0 0 0)
    lutRam := s.lutRam.dropRange (cellKey d 0 0 0) (cellKey (d + 1) 0 0 0)
    ramWords := s.ramWords.dropRange (ramWordKey d 0 0) (ramWordKey (d + 1) 0 0)
    ramMacros := (s.ramMacros.map (fun (e : Nat × RamMacro) =>
      if ramKey d 0 ≤ e.1 && e.1 < ramKey (d + 1) 0 then (e.1, { remap := e.2.remap, lastFail := e.2.lastFail }) else e)).filter
        (fun e => e.2 ≠ default)
    gates := s.gates.dropRange (gateKey d 0 0 0) (gateKey (d + 1) 0 0 0)
    regions := s.regions.dropRange (regionKey d 0) (regionKey (d + 1) 0)
    claims := s.claims.dropRange (wireKey d 0 0 0) (wireKey (d + 1) 0 0 0)
    latches := s.latches.dropRange (wireKey d 0 0 0) (wireKey (d + 1) 0 0 0)
    frozen := s.frozen.dropRange (laneKey d 0 0 0) (laneKey (d + 1) 0 0 0)
    frozenEdge := s.frozenEdge.dropRange (wireKey d 0 0 0) (wireKey (d + 1) 0 0 0)
    collars := s.collars.dropRange (frameAddr d 0 0 * 64) (frameAddr d 16 0 * 64)
    dividers := s.dividers.dropRange (dividerKey d 0 0) (dividerKey (d + 1) 0 0) }

/-- The cores, counters and Bellows of a die lost (R247, R350). -/
def Chip.tasksLost (s : Chip) (d : Nat) : Chip :=
  { s with
    cores := s.cores.dropRange (64 * d) (64 * d + 64)
    coreMem := s.coreMem.dropRange (coreMemKey d 0 0 * 8192) (coreMemKey (d + 1) 0 0 * 8192)
    pmc := (s.pmc.dropRange (64 * d) (64 * d + 64)).erase (256 + d)
    blwStore := s.blwStore.dropRange (blwKey d 0 0 0) (blwKey (d + 1) 0 0 0)
    blwReady := s.blwReady.dropRange (d * 128) (d * 128 + 128)
    blwHeld := s.blwHeld.erase d
    blwWindow := s.blwWindow.dropRange (winKey d 0 0) (winKey (d + 1) 0 0)
    blwQueue := s.blwQueue.erase d
    blwWorkers := s.blwWorkers.dropRange (d * 192) (d * 192 + 192)
    fabMail := s.fabMail.dropRange (d * 128) (d * 128 + 128) }

/-- The network interfaces, links and lanes of a die lost (R218, R428, R464). -/
def Chip.linksLost (s : Chip) (d : Nat) : Chip :=
  let s := (s.upTo 8 (fun s q => s.quadDown d q)).ethCleared d
  { s with
    flights := s.flights.filter (fun f => dieOf f.router != d)
    ports := s.ports.filter (fun e => dieOf (e.1 / 4) != d)
    ncUse := s.ncUse.filter (fun e => dieOf e.1 != d)
    notices := s.notices.dropRange (2 * d) (2 * d + 2)
    crl := s.crl.dropRange (crlKey d 0 0) (crlKey (d + 1) 0 0)
    karn := s.karn.dropRange (4 * d) (4 * d + 4)
    lanes := s.lanes.dropRange (32 * d) (32 * d + 32)
    quadRef := s.quadRef.dropRange (8 * d) (8 * d + 8) }

/-- Positions, cues, pads, power and clocking of a die lost; its debug domain stays (R363, R382, R400, R609). -/
def Chip.blocksLost (s : Chip) (d : Nat) : Chip :=
  let s := (s.cuesCleared d).upTo 2 (fun s b => s.dropLatch d b)
  let chnAll := if d = 0 then { s.chnAll with queue := [], current := none } else s.chnAll
  { s with
    chn := s.chn.dropRange (2 * d) (2 * d + 2)
    chnDies := s.chnDies.erase d
    chnAll := chnAll
    cues := s.cues.dropRange (48 * d) (48 * d + 48)
    banks := s.banks.dropRange (2 * d) (2 * d + 2)
    health := s.health.dropRange (96 * d) (96 * d + 96)
    devTime := s.devTime.erase d
    doms := s.doms.filter (fun e => e.1 / 64 != d || e.1 % 64 = Dom.debug)
    clocks := s.clocks.erase d
    ramps := s.ramps.dropRange (d * 128) (d * 128 + 128)
    railOut := s.railOut.dropRange (d * 8) (d * 8 + 8) }

/-! ### DRAM (R644 step 2, R495) -/

/-- Accepted writes of a channel issued until none is left. -/
def Chip.drainWrites : Nat → Chip → Nat → Nat → Chip
  | 0, s, _, _ => s
  | n + 1, s, d, c =>
    if (s.ddrChan d c).queue.isEmpty then s
    else Chip.drainWrites n ((s.issueAccess d c 0 0 0 0).issueAccess d c 1 0 0 0) d c

/-- A channel of a die that enters reset: every accepted write reaches DRAM, unserved reads are discarded, and the ranks go to
self-refresh. -/
def Chip.ddrCut (s : Chip) (d c : Nat) : Chip :=
  let s := s.onDdr d c (fun x => { x with queue := x.queue.filter (fun a => a.write), jobs := [], held := 0 })
  (s.drainWrites (s.ddrChan d c).queue.length d c).ddrResetStart d c

/-! ### Registers (R645) -/

/-- Registers that a die keeps through its reset: what R645 lists; what shows a matter of the whole device (log 90); and, until
the return, the settings of DRAM. -/
def keptRegs (d : Nat) : List Nat :=
  (List.range 2).flatMap (fun c => [Reg.DDR_RANK_MAP c, Reg.DDR_CFG c, Reg.DDR_GEOM c, Reg.DDR_TIMING c, Reg.MIE_CH_CFG c,
    Reg.DDR_STATUS c]) ++
  [Reg.DRN_LOG_STATUS, Reg.CFG_STATUS, Reg.SEC_STATUS, Reg.MIE_HALT_INFO, Reg.PWR_RAIL] ++
  (List.range 4).map (fun i => Reg.PWR_DOM_CFG Dom.debug + i) ++
  (if d = 0 then [Reg.KRN_DEVNUM] else [])

/-- Every other register of a die at its reset value. -/
def Chip.regsReset (s : Chip) (d : Nat) : Chip :=
  let kept := (keptRegs d).map (fun off => (off, s.reg d off))
  (s.resetRegs d 0 (2 ^ 23)).each kept (fun s e => s.setReg d e.1 e.2)

/-- After a reset of the registers, DDR_STATUS shows no more than the state the channel is left in. -/
def Chip.ddrShown (s : Chip) (d c : Nat) : Chip :=
  let st := s.fld d (F.DDR_STATUS_STATE c)
  (s.setReg d (Reg.DDR_STATUS c) (resetWord (Reg.DDR_STATUS c))).setFld d (F.DDR_STATUS_STATE c) st

/-- The bundles of a die at the start of its reset: both edges fenced, RST driven high (R231, R644 step 1). -/
def Chip.edgesDown (s : Chip) (d : Nat) : Chip :=
  s.upTo 16 (fun s i => s.crlGo d (i / 8) (i % 8) Crl.resetWait)

/-! ### The reset and the return -/

/-- DIE_RESET_START: 100 µs after the reply of its RESET the die enters reset (R643, R644 steps 1 to 4). -/
def Chip.dieResetStart (s : Chip) (d : Nat) : Chip :=
  if !s.resetDue.getLsbD d || !s.runs d then s
  else
    let leads := decide (s.lead = d)
    let s := { s with resetDue := s.resetDue &&& ~~~(BitVec.ofNat 4 (2 ^ d)) }
    let s := ((s.commandsCut d).loadsCut d).dieWorkersLost d
    let s := s.when leads (fun s => s.portsLost)
    let s := (s.fabricLost d).tasksLost d
    let s := s.upTo 2 (fun s c => s.ddrCut d c)
    let s := ((s.linksLost d).blocksLost d).regsReset d
    let s := (s.upTo 2 (fun s c => s.ddrShown d c)).edgesDown d
    ({ s with inReset := s.inReset ||| BitVec.ofNat 4 (2 ^ d) }).electMaster true

/-- DIE_RESET_START (R644). -/
def execDieResetStart (d : Die) (s : State) : Out := s.onChip (fun c => c.dieResetStart d)

/-- A die that returns learns which bundles of the edges it does not touch are ACTIVE (R224). -/
def Chip.learnEdges (s : Chip) (d : Nat) : Chip :=
  s.upTo 4 (fun s a => s.upTo 8 (fun s k => s.upTo 2 (fun s e =>
    if a = d || peerDie a e = d then s else s.knowBundle d (edgeOf a e) k (s.bundleLive a e k))))

/-- A register of DRAM takes its configured value, or its reset value; contents written under another setting are lost (R501,
R645). -/
def Chip.ddrSetting (s : Chip) (d c off mask : Nat) : Chip :=
  let g := s.globalKept.filter (fun e => frameAddr d 16 0 * 64 ≤ e.1 && e.1 < frameAddr d 17 0 * 64)
  let v := (Config.globalSetting g off).getD (resetWord off)
  let old := s.reg d off
  let s := s.when (old &&& word mask != v &&& word mask) (fun s => s.dramLost d c)
  (s.setReg d off (resetWord off)).plainWrite d off v

/-- The DRAM settings of a die back to their configured values, and its channels brought up again (R495, R531, R645). -/
def Chip.ddrReturns (s : Chip) (d : Nat) : Chip :=
  s.upTo 2 (fun s c =>
    let s := ((s.ddrSetting d c (Reg.DDR_GEOM c) (2 ^ 36 - 1)).ddrSetting d c (Reg.DDR_TIMING c) 0)
    let s := (s.ddrSetting d c (Reg.MIE_CH_CFG c) 3).ddrSetting d c (Reg.DDR_CFG c) 0x7FFFE
    s.when (3 ≤ s.dieStage d) (fun s => s.ddrResetReturn d c))

/-- The channels of a returning die count from 0 in LOADING where another die has the channel VALID (R372). -/
def Chip.channelsLoad (s : Chip) (d : Nat) : Chip :=
  s.upTo 2 (fun s c =>
    s.when ((List.range 4).any (fun e => e != d && !s.dieInReset e && s.chnValid e c)) (fun s =>
      s.setFlag d (F.CHN_CH_STATUS_LOADING c) true))

/-- Senders of the part treat their streams to a die's ports, and the die's own senders theirs, as last confirmed now: each opens
again SEND_QUIET later (R218). -/
def Chip.streamsReopen (s : Chip) (d : Nat) : Chip :=
  let here (key : Nat) : Bool := key / 2 ^ 21 = s.ownDevice && dieOf (key / 2 ^ 13 % 256) = d
  let s := { s with returnedAt := s.returnedAt.set d (some s.now) }
  { s with ports := s.ports.map (fun (e : Nat × NocPort) => (e.1, { e.2 with
      tx := e.2.tx.map (fun (t : Nat × TxStream) =>
        if here t.1 then (t.1, { t.2 with lastConf := s.now, everConf := true, broken := true }) else t) })) }

/-- A returning die's spine takes the level of the other dies (R551; log 221). -/
def Chip.spineLevel (s : Chip) (d : Nat) : Chip :=
  match (List.range 4).find? (fun b => b != d && !s.dieInReset b) with
  | some b =>
    let r := s.dom b Dom.spine
    s.setFld d (F.PWR_DOM_STATUS_LEVEL Dom.spine) (if r.levelBusy then r.levelTo else s.fld b (F.PWR_DOM_STATUS_LEVEL Dom.spine))
  | none => s

/-- DIE_RESET_RETURN: the domains are back, the settings of the die-global frames are reapplied, and RST falls; a device that
halted meanwhile takes the die into SECURE_HALT (R644 steps 5 and 6, R645, R647). -/
def Chip.dieResetReturn (s : Chip) (d : Nat) : Chip :=
  if !s.dieInReset d || !s.alive then s
  else
    let s := { s with inReset := s.inReset &&& ~~~(BitVec.ofNat 4 (2 ^ d)), cfg := { s.cfg with ahead := s.cfg.ahead ||| BitVec.ofNat 4 (2 ^ d) } }
    let s := s.upTo 4 (fun s k => s.onKarn d k (fun x => { x with needKey := true, needRoute := true }))
    let s := (s.onChnDie d (fun x => { x with afterReset := true })).spineLevel d
    let s := (((s.channelsLoad d).learnEdges d).applyGlobal d false).streamsReopen d
    if s.dev = .secureHalt then ({ s with haltOut := s.haltOut ||| BitVec.ofNat 4 (2 ^ d) }).haltedDie d
    else s.ddrReturns d

/-- DIE_RESET_RETURN (R644). -/
def execDieResetReturn (d : Die) (s : State) : Out := s.onChip (fun c => c.dieResetReturn d)

end Sys2Proof.Machine
end

