-- ==== Sys2Proof/Machine/NocEnd.lean ====
section
/-! DEFINITION. The ends of the network: flits delivered to their endpoints in stream order, confirmations, and what a confirmed
or failed packet means to the engine that sent it (chapter 6). -/

namespace Sys2Proof.Machine

/-! ### Confirmed and failed packets (R215 to R221, R277, R320, R321, R348, R460) -/

/-- Words that a write packet carries (R194). -/
def SentPacket.words (p : SentPacket) : Nat := ((p.flits.head?).map (fun f => bits f.w3 0 6 + 1)).getD 0

/-- The type of a sent packet. -/
def SentPacket.typ (p : SentPacket) : Nat := ((p.flits.head?).map Flit.typ).getD 0

/-- EMIT packet k of a core has failed: if it is the last, READY is due, at once where the core waits (R321, log 62). -/
def Chip.emitFailed (s : Chip) (d n k : Nat) : Chip :=
  if (s.core d n).emits = k then
    let s := s.onCore d n (fun c => { c with lastFailed := true })
    s.when (s.coreState d n = Obe.waittask && s.readyDue d n) (fun s => s.announceReady d n)
  else s

/-- A failed packet reported to the engine that sent it; `ready` is false where a NOT_READY failed it. -/
def Chip.packetFailed (s : Chip) (router port : Nat) (ready : Bool) (p : SentPacket) : Chip :=
  let d := dieOf router
  match p.origin, p.flits with
  | .dma k, _ => s.dmaFail d (coreOf router) k
  | .fabSlot q _, f :: _ => s.fabFailed d q f
  | .drone c, _ => s.finish c St.timeout []
  | .forward home tpl, _ => (s.blwStat d 8).logEv d Ev.blwXdieLost (home + tpl * 4)
  | .dispatch w, _ => s.when ready (fun s => s.loseWorker d w)
  | .emit k, _ => s.emitFailed d (coreOf router) k
  | .plain, f :: _ =>
    if port = 3 && f.typ = Typ.cmd && loadMessage f.w2 then
      s.submit router port { dev := f.dstDev, router := f.dstRouter, port := f.dstPort, typ := Typ.cmd, body := [{ w2 := f.w2 }] }
    else s
  | _, _ => s

/-- The failed packets that an event of the sending interface gives back, each reported. -/
def Chip.reportFailed (r : Chip × List SentPacket) (router port : Nat) (ready : Bool) : Chip :=
  r.1.each r.2 (fun s p => s.packetFailed router port ready p)

/-- A confirmed packet reported to the engine that sent it, with the status of its confirmation. -/
def Chip.packetConfirmed (s : Chip) (router : Nat) (status : Nat) (p : SentPacket) : Chip :=
  match p.origin with
  | .dma k => if p.typ = Typ.writeReq then s.dmaDone (dieOf router) (coreOf router) k p.words else s
  | .drone c => s.finish c (if status = 7 then St.integrity else St.ok) []
  | _ => s

/-- The sent packet that a WRITE_ACK confirms (R194). -/
def NocPort.ackedIdx (q : NocPort) (a : Flit) : Option Nat :=
  q.sent.findIdx? (fun p => match p.flits with
    | f :: _ => f.typ != Typ.readReq && f.typ != Typ.regRead && f.dstDev = a.srcDev && f.dstRouter = a.srcRouter &&
        f.dstPort = a.srcPort && f.flow = a.flow && f.seq = bits a.w2 0 12
    | [] => false)

/-- A WRITE_ACK at the sending interface (R215). -/
def Chip.acked (s : Chip) (router port : Nat) (a : Flit) : Chip :=
  match (s.port router port).ackedIdx a with
  | some i => match (s.port router port).sent[i]? with
    | some p => (s.confirmAt router port i).packetConfirmed router (bits a.w3 0 8) p
    | none => s
  | none => s

/-- The first answer of a type at a port consumed; one with POISON says nothing (R214, log 69). -/
def Chip.onAnswer (s : Chip) (router port t : Nat) (f : Chip → Flit → Chip) : Chip :=
  match s.takeAnswer router port t with
  | (s', some a) => if a.poison then s' else f s' a
  | (_, none) => s

/-- WRITE_ACK (R215). -/
def execWriteAck (router : Fin 256) (port : Fin 4) (s : State) : Out :=
  s.onDie (dieOf router) (fun c => c.onAnswer router port Typ.writeAck (fun c a => c.acked router port a))

/-- NOC_RETRY_TIMEOUT (R216). -/
def execNocRetryTimeout (router : Fin 256) (port : Fin 4) (packet : Nat) (s : State) : Out :=
  s.onDie (dieOf router) (fun c => Chip.reportFailed (c.retryTimeout router port packet) router port true)

/-- WAKE_NACK (R219). -/
def execWakeNack (router : Fin 256) (port : Fin 4) (s : State) : Out :=
  s.onDie (dieOf router) (fun c => c.onAnswer router port Typ.wakeNack (fun c a =>
    Chip.reportFailed (c.wakeNacked router port a) router port true))

/-- NOT_READY (R220). -/
def execNotReady (router : Fin 256) (port : Fin 4) (s : State) : Out :=
  s.onDie (dieOf router) (fun c => c.onAnswer router port Typ.notReady (fun c a =>
    Chip.reportFailed (c.refusedForGood router port a) router port false))

/-- UNREACHABLE (R221). -/
def execUnreachable (router : Fin 256) (port : Fin 4) (s : State) : Out :=
  s.onDie (dieOf router) (fun c => c.onAnswer router port Typ.unreachable (fun c a =>
    Chip.reportFailed (c.refusedForGood router port a) router port true))

/-- DMA_RESPONSE: the READ_RESP flit at a core's port is stored; with none there, a WRITE_ACK for a channel is counted (R277). -/
def execDmaResponse (d : Die) (n : Fin 64) (s : State) : Out :=
  s.onDie d (fun c =>
    let q := c.port (coreRouter d n) 2
    let head : Bool := match q.delivered with
      | f :: _ => f.typ = Typ.readResp
      | [] => false
    if head then c.atOboe d n Typ.readResp (fun c f => c.dmaReadResp d n f)
    else c.onAnswer (coreRouter d n) 2 Typ.writeAck (fun c a => c.acked (coreRouter d n) 2 a))

/-- FLIT_INJECT: before a core's port sends, its DMA channels may submit (R201, R276). -/
def execFlitInject (router : Fin 256) (port : Fin 4) (s : State) : Out :=
  s.onDie (dieOf router) (fun c =>
    (c.when (port = 2) (fun c => c.dmaRefill (dieOf router) (coreOf router))).inject router port)

/-! ### Delivery (R191, R205, R207, R210, R214, R215) -/

/-- The first held flit that is next in its stream: of a response stream, the next of the oldest request (R207, R208). -/
def NocPort.nextHeld (q : NocPort) : Option Held :=
  q.held.find? (fun h =>
    if h.flit.typ = Typ.readResp then (match q.expecting h.flit with
      | (a, n) :: _ => a = h.seq && 0 < n
      | [] => false)
    else q.table.any (fun e => e.key = h.key && e.expect = h.seq))

/-- The sent packet whose response a flit is. -/
def NocPort.responded (q : NocPort) (f : Flit) : Option Nat :=
  q.sent.findIdx? (fun p => match p.flits with
    | g :: _ => (g.typ = Typ.readReq || g.typ = Typ.regRead) && g.dstDev = f.srcDev && g.dstRouter = f.srcRouter &&
        g.dstPort = f.srcPort && g.flow = f.flow && (p.rseq + p.got) % 4096 = f.seq && p.got < p.resp
    | [] => false)

/-- A response has left the reorder buffer: its request is confirmed with the last one (R208, R215). -/
def Chip.countResponse (s : Chip) (router port i : Nat) : Chip :=
  let s := s.onPort router port (fun q => { q with sent := q.sent.modify i (fun p => { p with got := p.got + 1 }) })
  match (s.port router port).sent[i]? with
  | some p => if p.resp ≤ p.got then s.confirmAt router port i else s
  | none => s

/-- A REG_READ of a gateway carried out, and its response kept for duplicates of it (R30, R217). -/
def Chip.gatewayRead (s : Chip) (router : Nat) (f : Flit) : Chip :=
  let (s, v) := s.regRead (dieOf router) f.w2.toNat true
  let s := s.onPort router 3 (fun q => { q with replay := (q.replay ++ [(f, v)]).drop (q.replay.length + 1 - 32) })
  s.respond router 3 f (bits f.w3 0 12) [(v, false)]

/-- Whether a REG_WRITE comes from a REG_WRITE command of a port with OWNER authority (R642). -/
def Chip.ownerWrite (s : Chip) (f : Flit) : Bool :=
  f.srcDev = s.ownDevice && (s.port f.srcRouter f.srcPort).sent.any (fun p => p.flits.contains f && (match p.origin with
    | .drone c => s.portAuth c = 3
    | _ => false))

/-- A REG_WRITE of a gateway: carried out unless it carries POISON; the status of its confirmation (R30, R214). -/
def Chip.gatewayWrite (s : Chip) (router : Nat) (f : Flit) : Chip × Nat :=
  if f.poison then (s, 7) else (s.regWrite (dieOf router) f.w2.toNat f.w3 (s.ownerWrite f), 0)

/-- KRN_SYSTEM_DONE has arrived (R460). -/
def Chip.systemIsDone (s : Chip) : Chip := ({ s with cfg := { s.cfg with systemDone := true } }).checkDone

/-- A CMD packet of another device that a device in a state without KRN_LOADED and KRN_SYSTEM_DONE does not take (R460, R580). -/
def Chip.notYet (s : Chip) (f : Flit) : Bool :=
  f.typ = Typ.cmd && f.srcDev != s.ownDevice && f.last && loadMessage f.w2 && s.dev != .releasing && s.dev != .user

/-- A flit of a CMD packet at a gateway; the last one completes the packet (R460, R569). -/
def Chip.gatewayCmd (s : Chip) (router : Nat) (f : Flit) : Chip :=
  let key := streamKey f
  let ws := (s.port router 3).parts.get key ++ [f.w2, f.w3, f.w4, f.w5]
  if !f.last then s.onPort router 3 (fun q => { q with parts := q.parts.set key ws })
  else
    let s := s.onPort router 3 (fun q => { q with parts := q.parts.set key [] })
    let h := ws.headD 0
    if f.srcDev != s.ownDevice && loadMessage h then
      (if cmdOp h = 0x380 then s.when (s.ownDevice = 0) (fun s => s.loadedBy f.srcDev) else s.systemIsDone)
    else
      let p := if f.srcDev = s.ownDevice then Port.fab else Port.krn
      let back : ReplyPath := { gateway := router, dev := f.srcDev, router := f.srcRouter, port := f.srcPort, flow := f.flow }
      s.when (s.portTakes p) (fun s => s.portPacket p ws back)

/-- Whether the endpoint of a port takes a flit: what a gateway carries out at once, else a FIFO of 8 flits (R192). -/
def Chip.endpointTakes (s : Chip) (router port : Nat) (f : Flit) : Bool :=
  let t := f.typ
  if port = 3 && router = gatewayOf (dieOf router) &&
      (t = Typ.regRead || t = Typ.regWrite || t = Typ.cmd || t = Typ.event || t = Typ.readResp) then !s.notYet f
  else decide ((s.port router port).delivered.length < 8)

/-- A flit handed to its endpoint; the status of the confirmation of its packet (R191). -/
def Chip.toEndpoint (s : Chip) (router port : Nat) (f : Flit) : Chip × Nat :=
  let t := f.typ
  if port = 3 && router = gatewayOf (dieOf router) then
    if t = Typ.regRead then (s.gatewayRead router f, 0)
    else if t = Typ.regWrite then s.gatewayWrite router f
    else if t = Typ.cmd then (s.gatewayCmd router f, 0)
    else if t = Typ.event || t = Typ.readResp then (s, 0)
    else (s.onPort router port (fun q => { q with delivered := q.delivered ++ [f] }), 0)
  else (s.onPort router port (fun q => { q with delivered := q.delivered ++ [f] }), 0)

/-- The Drone's REG_READ is answered (R580). -/
def Chip.droneRead (s : Chip) (f : Flit) (o : Option SentPacket) : Chip :=
  match o with
  | some p => match p.origin with
    | .drone c => if f.poison then s.finish c St.integrity [] else s.finish c St.ok [f.w2]
    | _ => s
  | none => s

/-- A packet delivered whole: recorded, and confirmed by a WRITE_ACK unless its response or the DDR5 controller confirms it (R210,
R215, R217). -/
def Chip.packetDelivered (s : Chip) (router port : Nat) (f : Flit) (first status : Nat) : Chip :=
  let t := f.typ
  let dram : Bool := port = 3 && router != gatewayOf (dieOf router) && t = Typ.writeReq
  let note (e : RxEntry) : RxEntry :=
    let d : Delivered := { first := first, last := f.seq, status := status, confirmed := !dram }
    if e.key = streamKey f then
      { e with start := nextSeq f.seq, recent := (e.recent ++ [d]).drop (e.recent.length + 1 - 32) }
    else e
  let s := s.onPort router port (fun q => { q with table := q.table.map note })
  if dram || t = Typ.readReq || t = Typ.regRead then s else s.ackTo router port f first status

/-- A held flit leaves the reorder buffer (R205, R207, R215). -/
def Chip.deliverHeld (s : Chip) (router port : Nat) (h : Held) : Chip :=
  let f := h.flit
  let s := s.onPort router port (fun q => { q with held := q.held.filter (fun x => !(x.key = h.key && x.seq = h.seq)) })
  if f.typ = Typ.readResp then
    match (s.port router port).responded f with
    | some i =>
      let p := (s.port router port).sent[i]?
      (((s.toEndpoint router port f).1.countResponse router port i)).droneRead f (if port = 3 then p else none)
    | none => s
  else
    let first := (((s.port router port).table.find? (fun e => e.key = h.key)).map (·.start)).getD 0
    let s := s.onPort router port (fun q => { q with table := q.table.map (fun e =>
      if e.key = h.key then { e with expect := nextSeq h.seq, advanced := s.now } else e) })
    let (s, status) := s.toEndpoint router port f
    if f.last then s.packetDelivered router port f first status else s

/-- A duplicate of a delivered read is answered again: a memory read goes to its endpoint once more, a REG_READ is answered from the
latest such response in the replay store, else by a quiet read (R217). -/
def Chip.answerAgain (s : Chip) (router port : Nat) (f : Flit) : Chip :=
  if f.typ = Typ.regRead then
    let v := match (s.port router port).replay.reverse.find? (fun (e : Flit × W36) => e.1.w0 = f.w0 && (e.1.w1 >>> 1) = (f.w1 >>> 1)) with
      | some e => e.2
      | none => (s.regRead (dieOf router) f.w2.toNat false).2
    s.respond router port f (bits f.w3 0 12) [(v, false)]
  else s.onPort router port (fun q => { q with delivered := q.delivered ++ [f] })

/-- REORDER_DELIVER: one flit leaves a port's reorder buffer to its endpoint; nothing reaches a region whose collar is closed
(R132, R205). -/
def Chip.reorderDeliver (s : Chip) (router port : Nat) : Chip :=
  let q := s.port router port
  if port < 2 && !s.collarOpen (dieOf router) (regionOf router) then s
  else match q.again with
  | f :: rest =>
    if s.endpointTakes router port f then
      (s.onPort router port (fun q => { q with again := rest })).answerAgain router port f
    else s
  | [] => match q.nextHeld with
    | some h => if s.endpointTakes router port h.flit then s.deliverHeld router port h else s
    | none => s

/-- REORDER_DELIVER (R205). -/
def execReorderDeliver (router : Fin 256) (port : Fin 4) (s : State) : Out :=
  s.onDie (dieOf router) (fun c => c.reorderDeliver router port)

/-! ### REG_READ and REG_WRITE (R580) -/

/-- A packet to the address that w0 and w1 of a command name, sent by the Drone of a die; one that its window can never hold fails
at once (R24, R202, R580). -/
def Chip.dronePacket (s : Chip) (p d typ resp : Nat) (ws : List W36) (data : W36) : Chip :=
  let a := bits (ws.getD 1 0) 0 22
  let pk : Packet := {
    dev := a / 2 ^ 11, router := 16 * (a / 2 ^ 7 % 16) + a / 2 ^ 3 % 16, port := a % 8, typ := typ
    body := [{ w2 := ws.getD 0 0, w3 := data }], resp := resp, origin := .drone p }
  if s.fits (gatewayOf d) 3 pk then (s.submit (gatewayOf d) 3 pk).begin p else s.finish p St.timeout []

/-- REG_READ (R580). -/
def execRegRead (p : Fin 5) (s : State) : Out :=
  s.onChip (fun c => c.command p 0x006 (fun c h ws => c.onNamedDie p h (fun c d => c.dronePacket p d Typ.regRead 1 ws 0)))

/-- REG_WRITE (R580). -/
def execRegWrite (p : Fin 5) (s : State) : Out :=
  s.onChip (fun c => c.command p 0x007 (fun c h ws =>
    c.onNamedDie p h (fun c d => c.dronePacket p d Typ.regWrite 0 ws (ws.getD 2 0))))

end Sys2Proof.Machine
end

