-- ==== Sys2Proof/Machine/Por.lean ====
section
/-! DEFINITION. Power, PORST_N, the POR sequence and self-test (R155 to R161, R532 to R535, R606). -/

namespace Sys2Proof.Machine

/-! ### What survives (R80, R464, R493, R527, R588, R592, R594) -/

/-- The part with nothing in it but its fuses, the supplies as PWR_RAIL shows them, MODE as it was latched, and the model's own
clock and count of free values. -/
def Chip.blank (s : Chip) (dev : DevState) : Chip :=
  let kept (w : W36) : W36 := w &&& word 0xF4
  let fresh : Chip := { now := s.now, free := s.free, fuses := s.fuses }
  let shown := fresh.upTo 4 (fun x d => x.setReg d Reg.PWR_RAIL ((x.reg d Reg.PWR_RAIL &&& ~~~(word 0xF4)) ||| kept (s.reg d Reg.PWR_RAIL)))
  { shown with cfg := { dev := dev, mode := s.cfg.mode } }

/-! ### Entering OFF and POR (R155, R606) -/

/-- The supply's flag in PWR_RAIL. -/
def supplyOk : Supply → Fld
  | .vccint => F.PWR_RAIL_VCCINT_OK
  | .vccaux => F.PWR_RAIL_VCCAUX_OK
  | .vccaPll => F.PWR_RAIL_VCCA_PLL_OK

/-- SUPPLY_FALL: a monitored supply is below its threshold; the device is OFF (R155, R535). -/
def Chip.supplyFall (s : Chip) (d : Nat) (rail : Supply) : Chip := (s.blank .off).setFlag d (supplyOk rail) false

/-- SUPPLY_FALL (R155). -/
def execSupplyFall (d : Die) (rail : Supply) (s : State) : Out := s.onChip (fun c => c.supplyFall d rail)

/-- SUPPLIES_VALID: from OFF to POR, with PORST_N low as R157 requires; SEQ_ERR records an order that broke R533 (R155, R655). -/
def Chip.suppliesValid (s : Chip) (seqBroken : Bool) : Chip :=
  if s.dev = .off then
    let s := s.blank .por
    let s := s.upTo 4 (fun s d => s.setFlag d F.PWR_RAIL_SEQ_ERR seqBroken)
    { s with cfg := { s.cfg with porstLow := true } }
  else s

/-- SUPPLIES_VALID (R155, R655). -/
def execSuppliesValid (seqBroken : Bool) (s : State) : Out := s.onChip (fun c => c.suppliesValid seqBroken)

/-- PORST_N_LOW: in any state but OFF the device enters POR (R155). -/
def Chip.porstFalls (s : Chip) : Chip :=
  if s.dev = .off then s
  else
    let s := s.blank .por
    { s with cfg := { s.cfg with porstLow := true } }

/-- PORST_N_LOW (R155). -/
def execPorstNLow (s : State) : Out := s.onChip (fun c => c.porstFalls)

/-- PORST_N_HIGH: MODE is sampled, and the sequence of R157 starts (R156). -/
def Chip.porstRises (s : Chip) (mode : BitVec 3) : Chip :=
  if s.dev = .por && s.cfg.porstLow then
    { s with cfg := { s.cfg with porstLow := false, sequencing := true, porAt := s.now, mode := mode } }
  else s

/-- PORST_N_HIGH (R156). -/
def execPorstNHigh (mode : BitVec 3) (s : State) : Out := s.onChip (fun c => c.porstRises mode)

/-- DEVICE_RESET_START: 100 µs after its reply, a RESET of KIND 0 takes effect; PORST_N is high, so the sequence starts at once
with MODE as it was latched (R155, R580, R606). -/
def Chip.deviceResetStart (s : Chip) : Chip :=
  if s.alive && s.cfg.resetPending then
    let s := s.blank .por
    { s with cfg := { s.cfg with sequencing := true, porAt := s.now } }
  else s

/-- DEVICE_RESET_START (R580). -/
def execDeviceResetStart (s : State) : Out := s.onChip (fun c => c.deviceResetStart)

/-! ### The sequence and self-test (R157, R158, R562, R592, R605) -/

/-- The level that the fuses hold once NEXT_LEVEL has been blown into LEVEL (R605). -/
def Fuses.atPor (f : Fuses) : Fuses := { f with level := max f.level f.nextLevel }

/-- POR_SEQUENCE_COMPLETE: level and port authorities are latched from the fuses, the Drones start, and SELFTEST begins (R157). -/
def Chip.porComplete (s : Chip) : Chip :=
  if s.dev = .por && s.cfg.sequencing && !s.cfg.porstLow then
    let f := s.fuses.atPor
    let s : Chip := { s with fuses := f, sec := { level := f.level }, cfg := { s.cfg with sequencing := false } }
    let s : Chip := { s with sec := { s.sec with auth := s.fusedAuth } }
    s.setDev .selftest
  else s

/-- POR_SEQUENCE_COMPLETE (R157). -/
def execPorSequenceComplete (s : State) : Out := s.onChip (fun c => c.porComplete)

/-- A remap table with one more entry of ORIGIN = 0; it holds eight (R77, R78). -/
def withRemap (t : List RemapEntry) (addr : Nat) : List RemapEntry :=
  if 8 ≤ t.length || t.any (fun e => e.addr = addr) then t else t ++ [{ addr := addr, field := false }]

/-- A failing word that self-test found is remapped (R78, R497). -/
def Chip.remapFound (s : Chip) (w : FailWord) : Chip :=
  match w.mem with
  | .ram d n => s.onRam d n (fun m => { m with remap := withRemap m.remap (w.addr.toNat % 1024) })
  | .oboe d n m =>
    { s with coreMems := s.coreMems.upd (coreMemKey d n m) (fun x => { x with remap := withRemap x.remap (w.addr.toNat % 8192) }) }
  | .pattern d b => { s with patMems := s.patMems.upd (2 * d + b) (fun x => { x with remap := withRemap x.remap w.addr.toNat }) }
  | .bellows d n =>
    { s with blwMems := s.blwMems.upd (d * 2 ^ 16 + n.toNat) (fun x => { x with remap := withRemap x.remap w.addr.toNat }) }
  | .cache d c n =>
    { s with cacheMems := s.cacheMems.upd ((2 * d + c) * 2 ^ 16 + n.toNat) (fun x => { x with
        remap := withRemap x.remap w.addr.toNat }) }

/-- The die of a memory. -/
def memDie : MemName → Die
  | .ram d _ => d
  | .oboe d _ _ => d
  | .pattern d _ => d
  | .bellows d _ => d
  | .cache d _ _ => d

/-- The words of a die that self-test found failing, each once. -/
def failsOf (bad : List FailWord) (d : Nat) : List FailWord := (bad.eraseDups).filter (fun w => (memDie w.mem).val = d)

/-- Whether a macro of a die has more than 8 failing words (R78, R158). -/
def macroFails (bad : List FailWord) (d : Nat) : Bool :=
  let ws := failsOf bad d
  ws.any (fun w => 8 < (ws.filter (fun x => x.mem = w.mem)).length)

/-- How many of the sixteen bundle sides of a die meet a condition. -/
def bundleCount (f : Nat → Nat → Bool) : Nat := ((List.range 16).filter (fun i => f (i / 8) (i % 8))).length

/-- CFG_SELFTEST of a die: SRAM fails on a macro with more than 8 failing words, CRL on a bundle that ends FENCED; SPARED, HALF and
REMAPS are counted; the tests of which no other command tells the outcome come from the word given (R78, R158, R244). -/
def Chip.selftestWord (s : Chip) (given : W36) (bad : List FailWord) (d : Nat) : W36 :=
  let sram := bit given 0 || macroFails bad d
  let crl := bit given 2 || bundleCount (fun e k => s.crlState d e k == Crl.fenced) != 0
  let spared := bundleCount (fun e k => s.bundleLive d e k && s.fld d (F.CRL_BUNDLE_STATUS_SPARES_USED e k) != 0)
  let half := bundleCount (fun e k => s.bundleLive d e k && s.crlWidth d e k == 1)
  let ws := failsOf bad d
  let remaps := ((ws.map (·.mem)).eraseDups).foldl (fun n m => n + min 8 ((ws.filter (fun w => w.mem = m)).length)) 0
  word (ofBool sram + bits given 1 1 * 2 + ofBool crl * 4 + bits given 3 2 * 8 + spared * 2 ^ 5 + half * 2 ^ 10 + min 65535 remaps * 2 ^ 15)

/-- Whether a die's word in the layout of CFG_SELFTEST shows a failed test. -/
def testFailed (r : W36) : Bool := bits r 0 5 != 0

/-- A device whose MODE selects the Karn link brings up link 0 of D0, unnumbered (R459). -/
def Chip.karnBoot (s : Chip) : Chip :=
  if s.cfg.mode = 5 then
    ((s.setFlag 0 F.KRN_DEVNUM_UNNUMBERED true).setFlag 0 (F.KRN_LINK_CFG_EN 0) true).takeQuad 0 0
  else s

/-- SELFTEST_COMPLETE: the words found failing, the bundles as their training ends, and the other results of D0 to D3 as given; the
device enters BLANK if every test passed, else SAFE_TALK with an event for each die that failed (R155, R158). -/
def Chip.selftestDone (s : Chip) (rs : List W36) (bad : List FailWord) : Chip :=
  if s.dev = .selftest then
    let s := s.upTo 4 (fun s d => s.setReg d Reg.CFG_SELFTEST (s.selftestWord (rs.getD d 0) bad d))
    let s := s.each bad (fun s w => s.remapFound w)
    if (List.range 4).any (fun d => testFailed (s.reg d Reg.CFG_SELFTEST)) then
      (s.upTo 4 (fun s d => s.when (testFailed (s.reg d Reg.CFG_SELFTEST)) (fun s =>
        s.logEv d Ev.selftestFail (s.reg d Reg.CFG_SELFTEST).toNat))).setDev .safeTalk
    else (s.setDev .blank).karnBoot
  else s

/-- SELFTEST_COMPLETE (R158). -/
def execSelftestComplete (r0 r1 r2 r3 : W36) (bad : List FailWord) (s : State) : Out :=
  s.onChip (fun c => c.selftestDone [r0, r1, r2, r3] bad)

end Sys2Proof.Machine
end

