-- ==== Sys2Proof/Machine/Security.lean ====
section
/-! DEFINITION. The commands of the security engine: debug unlock, and the fuses that a command writes (chapter 19). -/

namespace Sys2Proof.Machine

/-- A refusal of a security command: SEC_STATUS [15:0] in its word (R604). -/
def Chip.secRefused (s : Chip) (p d : Nat) : Chip := s.finish p St.refused [word (bits (s.secStatus d) 0 16)]

/-- Whether challenges and unlocks are refused: at OPEN, SEALED or LOCKOUT (R603, R604). -/
def Chip.unlockBarred (s : Chip) : Bool := s.sec.level != 1 || s.sec.lockout

/-- A nonce as eight words of 32 bits, most significant first (R600, R604). -/
def nonceWords (x : BitVec 256) : List W36 := (List.range 8).map (fun i => word (bits x (32 * (7 - i)) 32))

/-- DEBUG_CHALLENGE: a fresh nonce from the random source replaces any other (R600). -/
def Chip.challenge (s : Chip) (p d : Nat) : Chip :=
  if s.unlockBarred then s.secRefused p d
  else
    let x := Config.random256 s.free
    let s := { s with free := s.free + 1, sec := { s.sec with nonce := some x } }
    s.finish p St.ok (nonceWords x)

/-- DEBUG_CHALLENGE (R600). -/
def execDebugChallenge (p : Fin 5) (s : State) : Out :=
  s.onChip (fun c => c.command p 0x180 (fun c h _ => c.onNamedDie p h (fun c d => c.challenge p d)))

/-- NONCE_EXPIRE: 60 s pass, and the nonce is no longer valid (R600). -/
def execNonceExpire (s : State) : Out := s.onChip (fun c => { c with sec := { c.sec with nonce := none } })

/-- Whether the key and signature of a DEBUG_UNLOCK pass for a nonce (R169, R170, R601). -/
def Chip.unlockGood (s : Chip) (x : BitVec 256) (ws : List W36) : Bool :=
  let signed := octetsOf (nonceWords x ++ [word (bits s.fuses.uid 0 36), word (bits s.fuses.uid 36 36)])
  let value (n : Nat) : BitVec 384 :=
    BitVec.ofNat 384 (((ws.drop (12 * n)).take 12).foldl (fun v w => v * 2 ^ 32 + bits w 0 32) 0)
  Config.sha384 (octets384 (value 0) ++ octets384 (value 1)) == s.fuses.ownerHash &&
    Config.ecdsaVerify (value 0) (value 1) (Config.sha384 signed) (value 2) (value 3)

/-- DEBUG_UNLOCK: the nonce is used up; JTAG becomes OWNER, or a failure counts (R600, R601, R603). -/
def Chip.unlock (s : Chip) (p d : Nat) (ws : List W36) : Chip :=
  if s.unlockBarred then s.secRefused p d
  else match s.sec.nonce with
    | none => s.secRefused p d
    | some x =>
      let good := s.unlockGood x ws
      let sec := { s.sec with nonce := none }
      if good then ({ s with sec := { sec with unlocked := true, auth := sec.auth / 4 * 4 + 3 } }).finish p St.ok []
      else ({ s with sec := { sec with fails := sec.fails + 1 } }).finish p St.integrity []

/-- DEBUG_UNLOCK (R601, R603). -/
def execDebugUnlock (p : Fin 5) (s : State) : Out :=
  s.onChip (fun c => c.command p 0x181 (fun c h ws => c.onNamedDie p h (fun c d => c.unlock p d ws)))

/-- DEBUG_LOCK: the sessions of every die close, and the unlock ends (R602, R609). -/
def execDebugLock (p : Fin 5) (s : State) : Out :=
  s.onChip (fun c => c.command p 0x182 (fun c h _ => c.onNamedDie p h (fun c _ =>
    ((c.upTo 4 (fun c d => c.closeSession d)).unlockEnds).finish p St.ok [])))

/-- Whether the parameter of LIFECYCLE_ADVANCE is one the table allows: its level coded, some port but JTAG an OWNER, and JTAG
CLOSED at SEALED (R604). -/
def lifecycleParam (w : W36) : Bool :=
  let target := bits w 0 2
  let auth := bits w 2 10
  target != 3 && ([1, 2, 3, 4].any (fun p => auth / 4 ^ p % 4 == 3)) && !(target = 2 && auth % 4 != 0)

/-- LIFECYCLE_ADVANCE: the target's AUTH group is blown and NEXT_LEVEL set; the level itself waits for the next POR (R605). -/
def Chip.lifecycleAdvance (s : Chip) (p d : Nat) (w : W36) : Chip :=
  let f := s.fuses
  let target := bits w 0 2
  let auth := BitVec.ofNat 10 (bits w 2 10)
  if target ≤ s.sec.level || target ≤ f.nextLevel || f.ownerHash = 0 then s.secRefused p d
  else
    let f := { f with nextLevel := target }
    let f := if target = 1 then { f with authLocked := f.authLocked ||| auth } else { f with authSealed := f.authSealed ||| auth }
    ({ s with fuses := f }).finish p St.ok []

/-- LIFECYCLE_ADVANCE (R604, R605). -/
def execLifecycleAdvance (p : Fin 5) (s : State) : Out :=
  s.onChip (fun c => c.command p 0x183 (fun c h ws =>
    if !lifecycleParam (ws.headD 0) then c.finish p St.param []
    else c.onNamedDie p h (fun c d => c.lifecycleAdvance p d (ws.headD 0))))

/-- n words of 32 bits as one value, most significant first. -/
def wideWords (ws : List W36) : Nat := ws.foldl (fun v w => v * 2 ^ 32 + bits w 0 32) 0

/-- OWNER_KEY_SET (R595, R604). -/
def execOwnerKeySet (p : Fin 5) (s : State) : Out :=
  s.onChip (fun c => c.command p 0x184 (fun c h ws =>
    let hash := BitVec.ofNat 384 (wideWords (ws.take 12))
    let key := BitVec.ofNat 256 (wideWords ((ws.drop 12).take 8))
    if key = 0 then c.finish p St.param []
    else c.onNamedDie p h (fun c d =>
      if c.sec.level != 0 || c.fuses.ownerHash != 0 then c.secRefused p d
      else
        let f := { c.fuses with ownerHash := hash, deviceKey := c.fuses.deviceKey ||| key }
        ({ c with fuses := f }).finish p St.ok [])))

/-- EPOCH_ADVANCE (R599, R604). -/
def execEpochAdvance (p : Fin 5) (s : State) : Out :=
  s.onChip (fun c => c.command p 0x185 (fun c h ws =>
    let target := bits (ws.headD 0) 0 7
    if 64 < target then c.finish p St.param []
    else c.onNamedDie p h (fun c d =>
      if target ≤ c.fuses.epoch || (c.dev = .user && c.fld d F.SEC_STATUS_IMAGE_EPOCH < target) then c.secRefused p d
      else ({ c with fuses := { c.fuses with epoch := target } }).finish p St.ok [])))

end Sys2Proof.Machine
end

