-- ==== Sys2Proof/Machine/Dispatch.lean ====
section
/-! DEFINITION. The effect of every command: one arm per constructor of Instr, each one call of its meaning. -/

namespace Sys2Proof.Machine

/-- The effect of a command on everything but the queue, by the rule its constructor cites. -/
def exec (i : Instr) (s : State) : Host.Outcome State Fault Refusal :=
  match i with
  | .supplyFall d rail => Sys2Proof.Machine.execSupplyFall d rail s
  | .suppliesValid seqBroken => Sys2Proof.Machine.execSuppliesValid seqBroken s
  | .porstNLow => Sys2Proof.Machine.execPorstNLow s
  | .porstNHigh mode => Sys2Proof.Machine.execPorstNHigh mode s
  | .porSequenceComplete => Sys2Proof.Machine.execPorSequenceComplete s
  | .selftestComplete r0 r1 r2 r3 bad => Sys2Proof.Machine.execSelftestComplete r0 r1 r2 r3 bad s
  | .vttXcvFall d => Sys2Proof.Machine.execVttXcvFall d s
  | .vccioBFall d b => Sys2Proof.Machine.execVccioBFall d b s
  | .vddqDdrFall d => Sys2Proof.Machine.execVddqDdrFall d s
  | .bootStart => Sys2Proof.Machine.execBootStart s
  | .imageWord ld => Sys2Proof.Machine.execImageWord ld s
  | .loadSynthLocked => Sys2Proof.Machine.execLoadSynthLocked s
  | .loadClockTimeout => Sys2Proof.Machine.execLoadClockTimeout s
  | .backoffExpire => Sys2Proof.Machine.execBackoffExpire s
  | .doneNHigh => Sys2Proof.Machine.execDoneNHigh s
  | .doneWaitLong => Sys2Proof.Machine.execDoneWaitLong s
  | .doneLow => Sys2Proof.Machine.execDoneLow s
  | .releaseStageTimer => Sys2Proof.Machine.execReleaseStageTimer s
  | .regionStageTimer d r => Sys2Proof.Machine.execRegionStageTimer d r s
  | .regionFault d r frame => Sys2Proof.Machine.execRegionFault d r frame s
  | .regionRepaired d r => Sys2Proof.Machine.execRegionRepaired d r s
  | .lutramCheck d cx cy cell => Sys2Proof.Machine.execLutramCheck d cx cy cell s
  | .ramPortAccess d ram a b => Sys2Proof.Machine.execRamPortAccess d ram a b s
  | .clrRam d ram b => Sys2Proof.Machine.execClrRam d ram b s
  | .ramClearSweepDone d ram => Sys2Proof.Machine.execRamClearSweepDone d ram s
  | .cfgRamClear d v => Sys2Proof.Machine.execCfgRamClear d v s
  | .ramClearDone d => Sys2Proof.Machine.execRamClearDone d s
  | .gateWrite d r side g wdata => Sys2Proof.Machine.execGateWrite d r side g wdata s
  | .gateRead d r side g => Sys2Proof.Machine.execGateRead d r side g s
  | .gateEntryVisible d r side g => Sys2Proof.Machine.execGateEntryVisible d r side g s
  | .gateSlotFreed d r side g => Sys2Proof.Machine.execGateSlotFreed d r side g s
  | .gclkSourceChange d n v => Sys2Proof.Machine.execGclkSourceChange d n v s
  | .clockRampStep d clk => Sys2Proof.Machine.execClockRampStep d clk s
  | .flitInject router port => Sys2Proof.Machine.execFlitInject router port s
  | .flitArrive router => Sys2Proof.Machine.execFlitArrive router s
  | .flitAgeTick flight => Sys2Proof.Machine.execFlitAgeTick flight s
  | .reorderDeliver router port => Sys2Proof.Machine.execReorderDeliver router port s
  | .nocHoleExpired router port entry => Sys2Proof.Machine.execNocHoleExpired router port entry s
  | .writeAck router port => Sys2Proof.Machine.execWriteAck router port s
  | .nocRetryTimeout router port packet => Sys2Proof.Machine.execNocRetryTimeout router port packet s
  | .wakeNack router port => Sys2Proof.Machine.execWakeNack router port s
  | .wakeResend router port packet => Sys2Proof.Machine.execWakeResend router port packet s
  | .notReady router port => Sys2Proof.Machine.execNotReady router port s
  | .unreachable router port => Sys2Proof.Machine.execUnreachable router port s
  | .nocPortWrite d n p v => Sys2Proof.Machine.execNocPortWrite d n p v s
  | .remoteRstRise d e => Sys2Proof.Machine.execRemoteRstRise d e s
  | .rstBothLow d e k => Sys2Proof.Machine.execRstBothLow d e k s
  | .advertTimer d e k => Sys2Proof.Machine.execAdvertTimer d e k s
  | .advert d e w0 w1 crc => Sys2Proof.Machine.execAdvert d e w0 w1 crc s
  | .patternDone d e k mask clkOk => Sys2Proof.Machine.execPatternDone d e k mask clkOk s
  | .negTimeout d e k => Sys2Proof.Machine.execNegTimeout d e k s
  | .alignTestDone d e k errors => Sys2Proof.Machine.execAlignTestDone d e k errors s
  | .rxOkTimeout d e k => Sys2Proof.Machine.execRxOkTimeout d e k s
  | .crelinkFrame d e k frame => Sys2Proof.Machine.execCrelinkFrame d e k frame s
  | .retrain d e k v => Sys2Proof.Machine.execRetrain d e k v s
  | .rewiden d e k v => Sys2Proof.Machine.execRewiden d e k v s
  | .fence d e k v => Sys2Proof.Machine.execFence d e k v s
  | .fenceNotice d edge k live => Sys2Proof.Machine.execFenceNotice d edge k live s
  | .haltInput d => Sys2Proof.Machine.execHaltInput d s
  | .coreRun d n => Sys2Proof.Machine.execCoreRun d n s
  | .coreStop d n => Sys2Proof.Machine.execCoreStop d n s
  | .clrP d n => Sys2Proof.Machine.execClrP d n s
  | .clrX d n => Sys2Proof.Machine.execClrX d n s
  | .clrY d n => Sys2Proof.Machine.execClrY d n s
  | .coreClearDone d n => Sys2Proof.Machine.execCoreClearDone d n s
  | .move d n => Sys2Proof.Machine.execMove d n s
  | .mpy d n => Sys2Proof.Machine.execMpy d n s
  | .mac d n => Sys2Proof.Machine.execMac d n s
  | .dmpy d n => Sys2Proof.Machine.execDmpy d n s
  | .dmac d n => Sys2Proof.Machine.execDmac d n s
  | .sum d n => Sys2Proof.Machine.execSum d n s
  | .dif d n => Sys2Proof.Machine.execDif d n s
  | .add d n => Sys2Proof.Machine.execAdd d n s
  | .sub d n => Sys2Proof.Machine.execSub d n s
  | .adda d n => Sys2Proof.Machine.execAdda d n s
  | .suba d n => Sys2Proof.Machine.execSuba d n s
  | .tfr d n => Sys2Proof.Machine.execTfr d n s
  | .clrAcc d n => Sys2Proof.Machine.execClrAcc d n s
  | .neg d n => Sys2Proof.Machine.execNeg d n s
  | .abs d n => Sys2Proof.Machine.execAbs d n s
  | .cmp d n => Sys2Proof.Machine.execCmp d n s
  | .andOp d n => Sys2Proof.Machine.execAndOp d n s
  | .orOp d n => Sys2Proof.Machine.execOrOp d n s
  | .xorOp d n => Sys2Proof.Machine.execXorOp d n s
  | .maxi d n => Sys2Proof.Machine.execMaxi d n s
  | .mini d n => Sys2Proof.Machine.execMini d n s
  | .nop d n => Sys2Proof.Machine.execNop d n s
  | .rts d n => Sys2Proof.Machine.execRts d n s
  | .rti d n => Sys2Proof.Machine.execRti d n s
  | .waittask d n => Sys2Proof.Machine.execWaittask d n s
  | .emit d n => Sys2Proof.Machine.execEmit d n s
  | .emitTokenSend d n => Sys2Proof.Machine.execEmitTokenSend d n s
  | .abort d n => Sys2Proof.Machine.execAbort d n s
  | .sleep d n => Sys2Proof.Machine.execSleep d n s
  | .sleepWake d n => Sys2Proof.Machine.execSleepWake d n s
  | .kick d n => Sys2Proof.Machine.execKick d n s
  | .enddo d n => Sys2Proof.Machine.execEnddo d n s
  | .bexr d n => Sys2Proof.Machine.execBexr d n s
  | .rep d n => Sys2Proof.Machine.execRep d n s
  | .repLc d n => Sys2Proof.Machine.execRepLc d n s
  | .lock d n => Sys2Proof.Machine.execLock d n s
  | .setipl d n => Sys2Proof.Machine.execSetipl d n s
  | .branch d n => Sys2Proof.Machine.execBranch d n s
  | .call d n => Sys2Proof.Machine.execCall d n s
  | .bApn d n => Sys2Proof.Machine.execBApn d n s
  | .callApn d n => Sys2Proof.Machine.execCallApn d n s
  | .doLoop d n => Sys2Proof.Machine.execDoLoop d n s
  | .ldi d n => Sys2Proof.Machine.execLdi d n s
  | .movr d n => Sys2Proof.Machine.execMovr d n s
  | .movc d n => Sys2Proof.Machine.execMovc d n s
  | .memoryMove d n => Sys2Proof.Machine.execMemoryMove d n s
  | .moda d n => Sys2Proof.Machine.execModa d n s
  | .asr d n => Sys2Proof.Machine.execAsr d n s
  | .asl d n => Sys2Proof.Machine.execAsl d n s
  | .norm d n => Sys2Proof.Machine.execNorm d n s
  | .scale d n => Sys2Proof.Machine.execScale d n s
  | .interruptAccept d n => Sys2Proof.Machine.execInterruptAccept d n s
  | .nmiEntry d n => Sys2Proof.Machine.execNmiEntry d n s
  | .watchdogExpire d n => Sys2Proof.Machine.execWatchdogExpire d n s
  | .wdogKick d n v => Sys2Proof.Machine.execWdogKick d n v s
  | .coreTimerExpire d n => Sys2Proof.Machine.execCoreTimerExpire d n s
  | .doorbell d n v => Sys2Proof.Machine.execDoorbell d n v s
  | .dispatch d n => Sys2Proof.Machine.execDispatch d n s
  | .oboeReadReq d n => Sys2Proof.Machine.execOboeReadReq d n s
  | .oboeWriteReq d n => Sys2Proof.Machine.execOboeWriteReq d n s
  | .inboxStream d n => Sys2Proof.Machine.execInboxStream d n s
  | .dmaStart d n c v => Sys2Proof.Machine.execDmaStart d n c v s
  | .dmaResponse d n => Sys2Proof.Machine.execDmaResponse d n s
  | .token d => Sys2Proof.Machine.execToken d s
  | .dispatchStart d cls => Sys2Proof.Machine.execDispatchStart d cls s
  | .emitPacket d => Sys2Proof.Machine.execEmitPacket d s
  | .emitAbort d => Sys2Proof.Machine.execEmitAbort d s
  | .ready d => Sys2Proof.Machine.execReady d s
  | .blwTimeout d task => Sys2Proof.Machine.execBlwTimeout d task s
  | .releaseItem d flow => Sys2Proof.Machine.execReleaseItem d flow s
  | .blwResultPop d => Sys2Proof.Machine.execBlwResultPop d s
  | .failHead d flow v => Sys2Proof.Machine.execFailHead d flow v s
  | .blwFlowWrite d flow v => Sys2Proof.Machine.execBlwFlowWrite d flow v s
  | .blwTplWrite d t isB v => Sys2Proof.Machine.execBlwTplWrite d t isB v s
  | .blwWorkerWrite d w v => Sys2Proof.Machine.execBlwWorkerWrite d w v s
  | .blwFabportWrite d q v => Sys2Proof.Machine.execBlwFabportWrite d q v s
  | .histClr d v => Sys2Proof.Machine.execHistClr d v s
  | .fabTxSlot d q => Sys2Proof.Machine.execFabTxSlot d q s
  | .fabRxFlit d q => Sys2Proof.Machine.execFabRxFlit d q s
  | .acceptedChange dies c a b z stamp => Sys2Proof.Machine.execAcceptedChange dies c a b z stamp s
  | .chnEncOpen d c line => Sys2Proof.Machine.execChnEncOpen d c line s
  | .chnEncShort d c line => Sys2Proof.Machine.execChnEncShort d c line s
  | .encoderFaultClear d c line => Sys2Proof.Machine.execEncoderFaultClear d c line s
  | .coastMaxExpire d c => Sys2Proof.Machine.execCoastMaxExpire d c s
  | .agreementTick => Sys2Proof.Machine.execAgreementTick s
  | .posDFrame d e frame => Sys2Proof.Machine.execPosDFrame d e frame s
  | .loadingTimeout d c => Sys2Proof.Machine.execLoadingTimeout d c s
  | .timePulseSend d => Sys2Proof.Machine.execTimePulseSend d s
  | .timePulseReceive d e masterTime => Sys2Proof.Machine.execTimePulseReceive d e masterTime s
  | .chnTimeStep d v => Sys2Proof.Machine.execChnTimeStep d v s
  | .chnTimeRate d v => Sys2Proof.Machine.execChnTimeRate d v s
  | .chnTimeLo d => Sys2Proof.Machine.execChnTimeLo d s
  | .chnChCfgWrite d c v => Sys2Proof.Machine.execChnChCfgWrite d c v s
  | .presetGo d c v => Sys2Proof.Machine.execPresetGo d c v s
  | .chnPosLo d c => Sys2Proof.Machine.execChnPosLo d c s
  | .chnZlatLo d c => Sys2Proof.Machine.execChnZlatLo d c s
  | .cueWr d k word => Sys2Proof.Machine.execCueWr d k word s
  | .uioCuePush d k v => Sys2Proof.Machine.execUioCuePush d k v s
  | .patWr d b addr data => Sys2Proof.Machine.execPatWr d b addr data s
  | .uioPatData d b v => Sys2Proof.Machine.execUioPatData d b v s
  | .cueFire d k => Sys2Proof.Machine.execCueFire d k s
  | .cuePreWake d k => Sys2Proof.Machine.execCuePreWake d k s
  | .flush d k v => Sys2Proof.Machine.execFlush d k v s
  | .slip d k => Sys2Proof.Machine.execSlip d k s
  | .padRelease p => Sys2Proof.Machine.execPadRelease p s
  | .bankCtrlRelease d b v => Sys2Proof.Machine.execBankCtrlRelease d b v s
  | .uioShort d b pin => Sys2Proof.Machine.execUioShort d b pin s
  | .uioShortClear d b hi v => Sys2Proof.Machine.execUioShortClear d b hi v s
  | .pllLock d q refHz => Sys2Proof.Machine.execPllLock d q refHz s
  | .xcvPllLost d q => Sys2Proof.Machine.execXcvPllLost d q s
  | .detectDone d q l => Sys2Proof.Machine.execDetectDone d q l s
  | .trainingComplete d q l inverted order lat => Sys2Proof.Machine.execTrainingComplete d q l inverted order lat s
  | .trainTimeout d q l => Sys2Proof.Machine.execTrainTimeout d q l s
  | .lockDone d q l slips probes => Sys2Proof.Machine.execLockDone d q l slips probes s
  | .lockTimeout d q l => Sys2Proof.Machine.execLockTimeout d q l s
  | .exchangeDone d q l peerDev peerLink enc keyId assign peerUnnumbered => Sys2Proof.Machine.execExchangeDone d q l peerDev peerLink enc keyId assign peerUnnumbered s
  | .retryWaitExpire d q l => Sys2Proof.Machine.execRetryWaitExpire d q l s
  | .xcvLockLost d q l => Sys2Proof.Machine.execXcvLockLost d q l s
  | .xcvRetrain d q l v => Sys2Proof.Machine.execXcvRetrain d q l v s
  | .bitslip d q l v => Sys2Proof.Machine.execBitslip d q l v s
  | .laneTxWord d q l word => Sys2Proof.Machine.execLaneTxWord d q l word s
  | .laneRxWord d q l word => Sys2Proof.Machine.execLaneRxWord d q l word s
  | .macTxWord d m sub word => Sys2Proof.Machine.execMacTxWord d m sub word s
  | .txTimestamp d m sub => Sys2Proof.Machine.execTxTimestamp d m sub s
  | .macRxFrame d m sub octets pcsBad fecFixed fecBad ago => Sys2Proof.Machine.execMacRxFrame d m sub octets pcsBad fecFixed fecBad ago s
  | .karnFrame d k frame => Sys2Proof.Machine.execKarnFrame d k frame s
  | .karnIngressInject d k => Sys2Proof.Machine.execKarnIngressInject d k s
  | .keySwitch d k v => Sys2Proof.Machine.execKeySwitch d k v s
  | .krnDevnumWrite d v => Sys2Proof.Machine.execKrnDevnumWrite d v s
  | .krnTimeSend => Sys2Proof.Machine.execKrnTimeSend s
  | .krnLoaded d k src => Sys2Proof.Machine.execKrnLoaded d k src s
  | .krnSystemDone d k => Sys2Proof.Machine.execKrnSystemDone d k s
  | .krnBootReq d k slotB first count => Sys2Proof.Machine.execKrnBootReq d k slotB first count s
  | .krnImageData d k first words => Sys2Proof.Machine.execKrnImageData d k first words s
  | .krnTime d k time => Sys2Proof.Machine.execKrnTime d k time s
  | .krnPos d k chans => Sys2Proof.Machine.execKrnPos d k chans s
  | .krnPosTimeout d c => Sys2Proof.Machine.execKrnPosTimeout d c s
  | .linkKey p => Sys2Proof.Machine.execLinkKey p s
  | .ddrBringupStep d c => Sys2Proof.Machine.execDdrBringupStep d c s
  | .rankTrainingDone d c pass => Sys2Proof.Machine.execRankTrainingDone d c pass s
  | .reinit d c v => Sys2Proof.Machine.execReinit d c v s
  | .ddrReadReq d c => Sys2Proof.Machine.execDdrReadReq d c s
  | .ddrWriteReq d c => Sys2Proof.Machine.execDdrWriteReq d c s
  | .ddrAccessIssue d c sub badReads badTag badNode => Sys2Proof.Machine.execDdrAccessIssue d c sub badReads badTag badNode s
  | .refreshTimer d c rank => Sys2Proof.Machine.execRefreshTimer d c rank s
  | .retrainTimer d c => Sys2Proof.Machine.execRetrainTimer d c s
  | .caParityAlert d c sub alerts => Sys2Proof.Machine.execCaParityAlert d c sub alerts s
  | .ddrMigStart d c v => Sys2Proof.Machine.execDdrMigStart d c v s
  | .migrationCopy d c badReads => Sys2Proof.Machine.execMigrationCopy d c badReads s
  | .ddrErrq d c => Sys2Proof.Machine.execDdrErrq d c s
  | .macCheck d c => Sys2Proof.Machine.execMacCheck d c s
  | .initWalkLine d c => Sys2Proof.Machine.execInitWalkLine d c s
  | .rekey p => Sys2Proof.Machine.execRekey p s
  | .rekeyWalkLine d c badReads => Sys2Proof.Machine.execRekeyWalkLine d c badReads s
  | .mieFlipArm d v => Sys2Proof.Machine.execMieFlipArm d v s
  | .testEnWrite d v => Sys2Proof.Machine.execTestEnWrite d v s
  | .powerSet p => Sys2Proof.Machine.execPowerSet p s
  | .pwrGo d dom v => Sys2Proof.Machine.execPwrGo d dom v s
  | .pwrPerfGo d dom v => Sys2Proof.Machine.execPwrPerfGo d dom v s
  | .pwrRestore d dom v => Sys2Proof.Machine.execPwrRestore d dom v s
  | .autoSleepRequest d quad => Sys2Proof.Machine.execAutoSleepRequest d quad s
  | .powerCommit d dom => Sys2Proof.Machine.execPowerCommit d dom s
  | .quiesceExpire d dom => Sys2Proof.Machine.execQuiesceExpire d dom s
  | .sleepStateReached d dom => Sys2Proof.Machine.execSleepStateReached d dom s
  | .wakeStart d dom cause => Sys2Proof.Machine.execWakeStart d dom cause s
  | .wakeComplete d dom => Sys2Proof.Machine.execWakeComplete d dom s
  | .levelChangeStep d dom => Sys2Proof.Machine.execLevelChangeStep d dom s
  | .pwrTimerExpire d t => Sys2Proof.Machine.execPwrTimerExpire d t s
  | .pwrPinwake d n => Sys2Proof.Machine.execPwrPinwake d n s
  | .monitorWindow d count => Sys2Proof.Machine.execMonitorWindow d count s
  | .ckmMonRestore d v => Sys2Proof.Machine.execCkmMonRestore d v s
  | .synthLock d y => Sys2Proof.Machine.execSynthLock d y s
  | .ckmSynUnlock d y => Sys2Proof.Machine.execCkmSynUnlock d y s
  | .sysRefRelock d => Sys2Proof.Machine.execSysRefRelock d s
  | .tempSample d temps => Sys2Proof.Machine.execTempSample d temps s
  | .railSample d mv => Sys2Proof.Machine.execRailSample d mv s
  | .cmdWrite words => Sys2Proof.Machine.execCmdWrite words s
  | .replyRead words => Sys2Proof.Machine.execReplyRead words s
  | .flagsRead => Sys2Proof.Machine.execFlagsRead s
  | .conLine chars => Sys2Proof.Machine.execConLine chars s
  | .drnCmd d v => Sys2Proof.Machine.execDrnCmd d v s
  | .drnReply d => Sys2Proof.Machine.execDrnReply d s
  | .drnRestart d => Sys2Proof.Machine.execDrnRestart d s
  | .status p => Sys2Proof.Machine.execStatus p s
  | .selftestReport p => Sys2Proof.Machine.execSelftestReport p s
  | .eventRead p => Sys2Proof.Machine.execEventRead p s
  | .eventAck p => Sys2Proof.Machine.execEventAck p s
  | .reset p => Sys2Proof.Machine.execReset p s
  | .regRead p => Sys2Proof.Machine.execRegRead p s
  | .regWrite p => Sys2Proof.Machine.execRegWrite p s
  | .healthRead p => Sys2Proof.Machine.execHealthRead p s
  | .timeService p => Sys2Proof.Machine.execTimeService p s
  | .timeSample p => Sys2Proof.Machine.execTimeSample p s
  | .configLoad p => Sys2Proof.Machine.execConfigLoad p s
  | .configData p => Sys2Proof.Machine.execConfigData p s
  | .regionLoad p => Sys2Proof.Machine.execRegionLoad p s
  | .regionIsolate p => Sys2Proof.Machine.execRegionIsolate p s
  | .regionResume p => Sys2Proof.Machine.execRegionResume p s
  | .regionReset p => Sys2Proof.Machine.execRegionReset p s
  | .regionClear p => Sys2Proof.Machine.execRegionClear p s
  | .regionActivate p => Sys2Proof.Machine.execRegionActivate p s
  | .updateWrite p => Sys2Proof.Machine.execUpdateWrite p s
  | .updateVerify p => Sys2Proof.Machine.execUpdateVerify p s
  | .updateApply p => Sys2Proof.Machine.execUpdateApply p s
  | .tokenPost p => Sys2Proof.Machine.execTokenPost p s
  | .resultPop p => Sys2Proof.Machine.execResultPop p s
  | .positionRead p => Sys2Proof.Machine.execPositionRead p s
  | .rankRetire p => Sys2Proof.Machine.execRankRetire p s
  | .debugChallenge p => Sys2Proof.Machine.execDebugChallenge p s
  | .debugUnlock p => Sys2Proof.Machine.execDebugUnlock p s
  | .debugLock p => Sys2Proof.Machine.execDebugLock p s
  | .lifecycleAdvance p => Sys2Proof.Machine.execLifecycleAdvance p s
  | .ownerKeySet p => Sys2Proof.Machine.execOwnerKeySet p s
  | .epochAdvance p => Sys2Proof.Machine.execEpochAdvance p s
  | .nonceExpire => Sys2Proof.Machine.execNonceExpire s
  | .dieResetStart d => Sys2Proof.Machine.execDieResetStart d s
  | .dieResetReturn d => Sys2Proof.Machine.execDieResetReturn d s
  | .trstNLow => Sys2Proof.Machine.execTrstNLow s
  | .extest d => Sys2Proof.Machine.execExtest d s
  | .samplePreload d v => Sys2Proof.Machine.execSamplePreload d v s
  | .idcode d => Sys2Proof.Machine.execIdcode d s
  | .bypass d => Sys2Proof.Machine.execBypass d s
  | .mailbox d dr => Sys2Proof.Machine.execMailbox d dr s
  | .dbg d dr => Sys2Proof.Machine.execDbg d dr s
  | .dbgNop d => Sys2Proof.Machine.execDbgNop d s
  | .read d => Sys2Proof.Machine.execRead d s
  | .activeRead d => Sys2Proof.Machine.execActiveRead d s
  | .write d => Sys2Proof.Machine.execWrite d s
  | .memRead d => Sys2Proof.Machine.execMemRead d s
  | .memWrite d => Sys2Proof.Machine.execMemWrite d s
  | .attach d => Sys2Proof.Machine.execAttach d s
  | .detach d => Sys2Proof.Machine.execDetach d s
  | .halt d => Sys2Proof.Machine.execHalt d s
  | .forceHalt d => Sys2Proof.Machine.execForceHalt d s
  | .haltComplete d n => Sys2Proof.Machine.execHaltComplete d n s
  | .resume d => Sys2Proof.Machine.execResume d s
  | .step d => Sys2Proof.Machine.execStep d s
  | .pmcCfgWrite d blk v => Sys2Proof.Machine.execPmcCfgWrite d blk v s
  | .pmcCounterRead d blk ctr => Sys2Proof.Machine.execPmcCounterRead d blk ctr s
  | .pmcCounterWrite d blk ctr v => Sys2Proof.Machine.execPmcCounterWrite d blk ctr v s
  | .pmcFlush d blk ev => Sys2Proof.Machine.execPmcFlush d blk ev s
  | .pmcOverflow d blk ctr => Sys2Proof.Machine.execPmcOverflow d blk ctr s
  | .obePmcUserWrite d n v trusted => Sys2Proof.Machine.execObePmcUserWrite d n v trusted s
  | .registerWrite d off v => Sys2Proof.Machine.execRegisterWrite d off v s
  | .deviceResetStart => Sys2Proof.Machine.execDeviceResetStart s
  | .domainPowerFault d r => Sys2Proof.Machine.execDomainPowerFault d r s
  | .vttXcvRise d => Sys2Proof.Machine.execVttXcvRise d s
  | .vccioBRise d b => Sys2Proof.Machine.execVccioBRise d b s
  | .vddqDdrRise d => Sys2Proof.Machine.execVddqDdrRise d s
  | .clusterClockEdge d edges => Sys2Proof.Machine.execClusterClockEdge d edges s
  | .coastCount d c => Sys2Proof.Machine.execCoastCount d c s
  | .cuePatternEnd d k => Sys2Proof.Machine.execCuePatternEnd d k s
  | .pauseQuantaExpire d m sub => Sys2Proof.Machine.execPauseQuantaExpire d m sub s
  | .testLogicReset => Sys2Proof.Machine.execTestLogicReset s

end Sys2Proof.Machine
end

