-- ==== Sys2Proof/Machine/Tick.lean ====
section
/-! DEFINITION. What one nanosecond of the model's clock does: device time, line time and sampled counts (log 1). -/

namespace Sys2Proof.Machine

/-- Whether some bundle of the edges that PMC_CFG.EDGE_SEL selects meets a condition (R637). -/
def Chip.someBundle (s : Chip) (d : Nat) (f : Nat → Nat → Bool) : Bool :=
  let sel := s.fld d F.PMC_CFG_EDGE_SEL
  let edges := if sel = 0 then [0, 1] else [sel - 1]
  edges.any (fun e => (List.range 8).any (fun k => f e k))

/-- The events of a die that count nc, and its cycle counter, for the nc of this nanosecond (R635, R637). -/
def Chip.countNc (s : Chip) (d : Nat) : Chip :=
  if !s.flag d F.PMC_CFG_EN then s
  else
    let k := s.edgesNow 1200000000
    let s := (s.countDie d 0 k).pmcCycles d none k
    let s := s.when (!(s.blwHeld.get d).isEmpty) (fun s => s.countDie d 26 k)
    let s := s.when (s.someBundle d (fun e b => s.bundleLive d e b && s.crlWidth d e b == 1)) (fun s => s.countDie d 44 k)
    s.when (s.someBundle d (fun e b => s.crlState d e b == Crl.fenced)) (fun s => s.countDie d 45 k)

/-- The present clock of a quad in Hz: the internal oscillator or the clock of its level, divided by the ramp in progress, which
reaches the new source at its step 4 (R5, R547, R549, R554, R556). -/
def Chip.quadHz (s : Chip) (d q : Nat) : Nat :=
  let dom := Dom.quad q
  let step := (s.ramps.get (d * 128 + 32 + dom)).step
  let level := if (s.dom d dom).levelBusy && 4 ≤ step then (s.dom d dom).levelTo else s.fld d (F.PWR_DOM_STATUS_LEVEL dom)
  let osc := s.flag d F.CKM_SYS_ON_OSC || (s.flag d (F.PWR_DOM_STATUS_ON_OSC dom) && step < 4)
  (if osc then 200000000 else ([1000000000, 800000000, 600000000, 400000000][level]?).getD 0) / ([1, 2, 4, 8, 8, 4, 2][step]?).getD 1

/-- A waiting or sleeping core's oc in this nanosecond (R5, R635, R636). -/
def Chip.coreIdle (s : Chip) (d n : Nat) : Chip :=
  if !s.coreClocked d n then s
  else if s.coreState d n = Obe.waittask then s.coreOcs d n 15 (s.edgesNow (s.quadHz d (n / 4)))
  else if s.coreState d n = Obe.sleep then s.coreOcs d n 16 (s.edgesNow (s.quadHz d (n / 4)))
  else s

/-- A die's own nanosecond: device time and followed positions; then, while its engines run, its counts, sampled workers, pattern
words and latched pins, and entries of domains whose refusers have changed (R351, R363, R376, R379, R404, R462, R542). -/
def Chip.dieStep (s : Chip) (d : Nat) : Chip :=
  let s := s.when (s.chnRuns d) (fun s => (s.timeTick d).followTick d)
  s.when (s.runs d) (fun s =>
    let s := s.countNc d
    let s := s.each (SMap.keysIn s.cores (64 * d) (64 * d + 64)) (fun s key => s.coreIdle d (key % 64))
    let s := s.when (s.now % 1000 = 0) (fun s => s.sampleWorkers d)
    let s := s.each (SMap.keysIn s.cues (48 * d) (48 * d + 48)) (fun s key => s.catchUp d (key % 48))
    let s := s.upTo 2 (fun s b => s.healthTick d b)
    s.each (SMap.keysIn s.doms (64 * d) (64 * d + 64)) (fun s key => s.recheckEntry d (key % 64)))

/-- One nanosecond (log 1). -/
def Chip.tick (s : Chip) : Chip :=
  let s := (((s.upTo 4 (fun s d => s.dieStep d)).laneTick).ethTick).karnTick
  { s with now := s.now + 1 }

end Sys2Proof.Machine
end

