-- ==== Sys2Proof/Safety.lean ====
section
/-! DEFINITION. The terms that statements about the part use: a command that has its effect, what it leaves as it was, and the
invariants that every step keeps. -/

namespace Sys2Proof.Machine

/-- Command i has its effect at s: exec answers a next state with the queue and the configuration flash as they were, and a
chip that meets P. -/
def Done (i : Instr) (s : State) (P : Chip → Prop) : Prop :=
  ∃ c : Chip, exec i s = .next { s with chip := c } ∧ P c

/-- Command i changes what the fabric sees: Done with a chip that meets P, in which asynchronous resets then take hold (R42). -/
def DoneFabric (i : Instr) (s : State) (P : Chip → Prop) : Prop :=
  ∃ c : Chip, exec i s = .next { s with chip := c.settleAll } ∧ P c

/-- Command i leaves the whole state as it was. -/
def NoEffect (i : Instr) (s : State) : Prop := exec i s = .next s

/-- Nothing of the chip but its registers differs between a and b. -/
def OnlyRegs (a b : Chip) : Prop := b = { a with regs := b.regs }

/-- Nothing of the chip but its registers, its event log (with the ports' read marks) and the packets that announce events differs
between a and b. -/
def OnlyRegsAndLog (a b : Chip) : Prop := b = { a with regs := b.regs, log := b.log, cmds := b.cmds, ports := b.ports }

/-- Every register of every die reads in b as it does in a, but those that P names by die and word offset. -/
def RegsBut (P : Nat → Nat → Prop) (a b : Chip) : Prop :=
  ∀ d off : Nat, off < 2 ^ 23 → ¬ P d off → b.reg d off = a.reg d off

/-- The registers that logging an event of die d writes: DRN_LOG_STATUS (R588). -/
def LogReg (d : Nat) (d' off : Nat) : Prop := d' = d ∧ off = Reg.DRN_LOG_STATUS

/-- The registers of one die and offset. -/
def OneReg (d off : Nat) (d' off' : Nat) : Prop := d' = d ∧ off' = off

/-- The chip b is what entering OFF or POR leaves of a: its fuses, the supplies as PWR_RAIL shows them and the configuration
record; every other register reads its Reset column, and everything else is blank. -/
def Blanked (a b : Chip) : Prop :=
  b = { now := a.now, free := a.free, fuses := a.fuses, regs := b.regs, cfg := b.cfg } ∧
  ∀ d off : Nat, off < 2 ^ 23 → off ≠ Reg.PWR_RAIL → b.reg d off = resetWord off

/-- The newest entry of die d's log is event ev with its detail (R588). -/
def NewestIs (c : Chip) (d : Nat) (ev : Ev) (detail : Nat) : Prop :=
  ∃ e, SMap.find? c.log (logKey d (c.fld d F.DRN_LOG_STATUS_NEWEST)) = some e ∧
    bits e.w0 20 12 = ev.code ∧ bits e.w0 32 2 = ev.sev ∧ e.w2 = word detail

/-- Between a and c exactly one event of die d was logged: ev, with its detail (R588). -/
def Logged (a c : Chip) (d : Nat) (ev : Ev) (detail : Nat) : Prop :=
  NewestIs c d ev detail ∧ c.fld d F.DRN_LOG_STATUS_NEWEST = (a.fld d F.DRN_LOG_STATUS_NEWEST + 1) % 2 ^ 20

/-- Port p runs a packet of opcode op with header h and parameter words ws that passes every check of R573, has not begun, and
came by the port itself; no other packet is buffered behind it. -/
def Accepts (s : Chip) (p op : Nat) (h : W36) (ws : List W36) : Prop :=
  s.admitted p op = some (h, ws) ∧ (s.cmd p).buffered = none ∧ (s.cmd p).runningFrom = none

/-- Port p holds the reply to the packet of header h, with a status and result words, and runs nothing (R572, R576). -/
def Replied (c : Chip) (p : Nat) (h : W36) (status : Nat) (ws : List W36) : Prop :=
  (c.cmd p).reply = some (replyTo h status ws) ∧ (c.cmd p).running = none ∧ (c.cmd p).readPos = 0

/-- Between a and b nothing changed but one command port's register of its reply and of what runs there, and what the part last
returned. -/
def OnlyPort (p : Nat) (a b : Chip) : Prop :=
  b = { a with cmds := b.cmds, returned := b.returned } ∧ (∀ q, q ≠ p → b.cmds.get q = a.cmds.get q)

/-- Two maps read alike at every key but k. -/
def SameBut {α : Type} [Inhabited α] (k : Nat) (m m' : SMap α) : Prop := ∀ j, j ≠ k → SMap.get m' j = SMap.get m j

/-- The configuration flash is in its canonical form: addresses strictly rising, no erased octet listed. -/
def FlashCanonical (s : State) : Prop := SMap.wf (fun _ => 0xFF#8) s.flash = true

end Sys2Proof.Machine
end

