-- ==== Sys2Proof/Certificates/Slice0/Obligations.lean ====
section
/-! DEFINITION. What is stated of the part: one definition per statement; OBLIGATIONS.json lists them. -/

open Sys2Proof Sys2Proof.Machine

/-! ### The machine as a whole -/

/-- A step runs the command at the front of the queue, with the queue's rest left (the block's contract; R154's part runs no
program of its own). With no command waiting a step lets one nanosecond go by: it changes the chip only. The tick is the model's
choice (log 1). -/
def Obligations.StepRunsFrontCommandOrTicks : Prop :=
  (∀ (c : Instr) (rest : List Instr) (s : State),
      s.pending = c :: rest → core.step s = exec c { s with pending := rest }) ∧
  (∀ s : State, s.pending = [] → core.step s = .next { s with chip := s.chip.tick })

/-- Every command answers a next state and leaves the queue's rest as it was: no command of the table stops the part. The
configuration flash changes only by UPDATE_WRITE (R583): every other command leaves every octet of it. -/
def Obligations.EveryCommandAnswersNext : Prop :=
  (∀ (i : Instr) (s : State), ∃ t : State, exec i s = .next t ∧ t.pending = s.pending) ∧
  (∀ (i : Instr) (s : State), (∀ p, i ≠ .updateWrite p) → ∀ t, exec i s = .next t → t.flash = s.flash)

/-- Every step keeps the configuration flash in its canonical form, so that equal flash contents are equal data. -/
def Obligations.FlashStaysCanonical : Prop :=
  ∀ s t : State, FlashCanonical s → core.step s = .next t → FlashCanonical t

/-- The flash is in its canonical form at reset. Every register of every die reads its Reset column when the part leaves POR
(R14). -/
def Obligations.ResetState : Prop :=
  (FlashCanonical core.reset) ∧
  (∀ d off : Nat, off < 2 ^ 23 → (State.reset).chip.reg d off = resetWord off)

/-! ### POR (R155 to R158, R606) -/

/-- The events of R155 that cause OFF and POR, from every state in which they act; the fuses outlast them, and what is left of
the part is blank: its registers but PWR_RAIL read their Reset columns. A monitored supply may fall in any state; the events of
R155 that a state does not list have no effect. The POR sequence ends in SELFTEST with the lifecycle level latched from the
fuses, and self-test writes CFG_SELFTEST and ends in BLANK if every test passed on all four dies, else in SAFE_TALK; more than 8 failing words
in one macro fail it (R78, R155, R157, R158). -/
def Obligations.ResetSequence : Prop :=
  (((∀ (s : State) (d : Die) (rail : Supply), Done (.supplyFall d rail) s (fun c =>
        c.dev = .off ∧ Blanked s.chip c ∧ c.flag d (supplyOk rail) = false)) ∧
      (∀ (s : State) (broken : Bool), s.chip.dev = .off → Done (.suppliesValid broken) s (fun c =>
        c.dev = .por ∧ c.cfg.porstLow = true ∧ Blanked s.chip c ∧
        ∀ d : Die, c.flag d F.PWR_RAIL_SEQ_ERR = broken)) ∧
      (∀ s : State, s.chip.dev ≠ .off → Done .porstNLow s (fun c => c.dev = .por ∧ c.cfg.porstLow = true ∧ Blanked s.chip c)) ∧
      (∀ (s : State) (mode : BitVec 3), s.chip.dev = .por → s.chip.cfg.porstLow = true → Done (.porstNHigh mode) s (fun c =>
        c = { s.chip with cfg := c.cfg } ∧ c.dev = .por ∧ c.cfg.mode = mode ∧ c.cfg.porstLow = false ∧ c.cfg.sequencing = true)) ∧
      (∀ s : State, s.chip.alive = true → s.chip.cfg.resetPending = true → Done .deviceResetStart s (fun c =>
        c.dev = .por ∧ c.cfg.sequencing = true ∧ c.cfg.mode = s.chip.cfg.mode ∧ Blanked s.chip c))) ∧
    ((∀ (s : State) (broken : Bool), s.chip.dev ≠ .off → NoEffect (.suppliesValid broken) s) ∧
      (∀ s : State, s.chip.dev = .off → NoEffect .porstNLow s) ∧
      (∀ (s : State) (mode : BitVec 3), s.chip.dev ≠ .por → NoEffect (.porstNHigh mode) s) ∧
      (∀ s : State, s.chip.dev ≠ .por → NoEffect .porSequenceComplete s) ∧
      (∀ (s : State) (r0 r1 r2 r3 : W36) (bad : List FailWord), s.chip.dev ≠ .selftest →
        NoEffect (.selftestComplete r0 r1 r2 r3 bad) s))) ∧
  ((∀ s : State, s.chip.dev = .por → s.chip.cfg.sequencing = true → s.chip.cfg.porstLow = false →
      Done .porSequenceComplete s (fun c =>
        c.dev = .selftest ∧ c.cfg.sequencing = false ∧ c.sec.level = max s.chip.fuses.level s.chip.fuses.nextLevel ∧
        (∀ d : Die, c.fld d F.CFG_STATUS_DEV_STATE = 1) ∧
        RegsBut (fun d off => d < 4 ∧ off = Reg.CFG_STATUS) s.chip c ∧
        c = { s.chip with cfg := c.cfg, sec := c.sec, fuses := c.fuses, regs := c.regs })) ∧
    (∀ (s : State) (r0 r1 r2 r3 : W36) (bad : List FailWord), s.chip.dev = .selftest →
      Done (.selftestComplete r0 r1 r2 r3 bad) s (fun c =>
        (∀ d : Die, c.reg d Reg.CFG_SELFTEST = s.chip.selftestWord ([r0, r1, r2, r3].getD d 0) bad d) ∧
        (c.dev = .blank ∨ c.dev = .safeTalk) ∧
        (c.dev = .blank ↔ ∀ d : Die, bits (c.reg d Reg.CFG_SELFTEST) 0 5 = 0) ∧
        ((∃ d : Die, macroFails bad d = true) → c.dev = .safeTalk) ∧
        (∀ d : Die, c.fld d F.CFG_STATUS_DEV_STATE = c.dev.code))))

/-! ### Supplies (R535) -/

/-- PWR_RAIL shows each supply's state; a supply that falls acts on its own block: the quads count as OFF with their PLLs unlocked,
the bank's latch is dropped, both DDR5 channels enter FAILED. A supply that rises changes its flag, sets SEQ_ERR where a supply of
the group before it is not valid (R533), and lets the transceiver groups settle. -/
def Obligations.SupplyFlags : Prop :=
  (∀ (s : State) (d : Die), s.chip.alive = true → Done (.vttXcvFall d) s (fun c =>
    c.flag d F.PWR_RAIL_VTT_XCV_OK = false ∧ ∀ q : Fin 8, c.flag d (F.XCV_QUAD_STATUS_PLL_LOCK q) = false)) ∧
  (∀ (s : State) (d : Die), Done (.vttXcvRise d) s (fun c =>
    c.flag d F.PWR_RAIL_VTT_XCV_OK = true ∧
    c.flag d F.PWR_RAIL_SEQ_ERR = (s.chip.flag d F.PWR_RAIL_SEQ_ERR || !s.chip.flag d F.PWR_RAIL_VCCAUX_OK) ∧
    (s.chip.runs d = false → OnlyRegs s.chip c ∧ RegsBut (OneReg d Reg.PWR_RAIL) s.chip c))) ∧
  (∀ (s : State) (d : Die) (b : Fin 2), Done (.vccioBFall d b) s (fun c =>
    bit (c.reg d Reg.PWR_RAIL) (4 + b) = false ∧ (c.bank d b).latched = false ∧ (c.bank d b).drive = 0 ∧
    c = { s.chip with regs := c.regs, banks := c.banks })) ∧
  (∀ (s : State) (d : Die) (b : Fin 2), Done (.vccioBRise d b) s (fun c =>
    bit (c.reg d Reg.PWR_RAIL) (4 + b) = true ∧
    c.flag d F.PWR_RAIL_SEQ_ERR = (s.chip.flag d F.PWR_RAIL_SEQ_ERR ||
      !s.chip.flag d F.PWR_RAIL_VTT_XCV_OK || !s.chip.flag d F.PWR_RAIL_VCCA_PLL_OK) ∧ OnlyRegs s.chip c ∧ RegsBut (OneReg d Reg.PWR_RAIL) s.chip c)) ∧
  (∀ (s : State) (d : Die), s.chip.alive = true → Done (.vddqDdrFall d) s (fun c =>
    c.flag d F.PWR_RAIL_VDDQ_OK = false ∧ (∀ ch : Fin 2, c.fld d (F.DDR_STATUS_STATE ch) = 5) ∧
    c = { s.chip with regs := c.regs, ddr := c.ddr })) ∧
  (∀ (s : State) (d : Die), Done (.vddqDdrRise d) s (fun c =>
    c.flag d F.PWR_RAIL_VDDQ_OK = true ∧
    c.flag d F.PWR_RAIL_SEQ_ERR = (s.chip.flag d F.PWR_RAIL_SEQ_ERR ||
      !s.chip.flag d F.PWR_RAIL_VTT_XCV_OK || !s.chip.flag d F.PWR_RAIL_VCCA_PLL_OK) ∧ OnlyRegs s.chip c ∧ RegsBut (OneReg d Reg.PWR_RAIL) s.chip c))

/-! ### Device start-up (R163 to R188) -/

/-- The slot that a flash source tries first, from the headers of both slots as the flash holds them (R163). -/
def bootSlot (s : State) : Nat :=
  let head (slot : Nat) : List W36 := match s.chip.slotSource slot with
    | .flash cs byte => (List.range 32).map (fun i => flashWord s.flash cs byte i)
    | _ => []
  firstSlot s.chip.cfg.mode.toNat (head 0) (head 1)

/-- BOOT_START and BACKOFF_EXPIRE start an attempt in LOADING: from a flash source the slot that R163 prefers, after a back-off
the slot other than the one last tried (R163, R164). Within the header of a load's verify pass from flash, IMAGE_WORD takes the
next word of the image and changes nothing else. The wait for the synthesisers ends the load: locked, DONE_N is released and the
device enters RELEASING; not locked after 1 ms, the attempt fails with cause 10 and every region is EMPTY (R155, R179). -/
def Obligations.StartUpAttempts : Prop :=
  ((∀ s : State, s.chip.dev = .blank → s.chip.cfg.probe = none → s.chip.loads = [] → s.chip.cfg.mode.toNat < 4 →
      Done .bootStart s (fun c =>
        c.dev = .loading ∧ c.cfg.lastSlot = some (bootSlot s) ∧
        c.loads.get 4 = some { src := s.chip.slotSource (bootSlot s), slot := bootSlot s } ∧
        (∀ d : Die, c.fld d F.CFG_STATUS_SLOT = bootSlot s) ∧
        c = { s.chip with regs := c.regs, cfg := c.cfg, loads := c.loads })) ∧
    (∀ s : State, s.chip.dev = .backoff → Done .backoffExpire s (fun c =>
        let slot := if s.chip.cfg.lastSlot = some 0 then 1 else 0
        c.dev = .loading ∧ c.cfg.lastSlot = some slot ∧
        c.loads.get 4 = some { src := s.chip.slotSource slot, slot := slot } ∧
        (∀ d : Die, c.fld d F.CFG_STATUS_SLOT = slot) ∧
        c = { s.chip with regs := c.regs, cfg := c.cfg, loads := c.loads, karn := c.karn }))) ∧
  (∀ (s : State) (ld : Option Die) (l : Loader) (cs byte : Nat),
      let k := match ld with
        | some d => d.val
        | none => 4
      s.chip.alive = true → s.chip.dev ≠ .secureHalt → s.chip.loads.get k = some l → l.writing = false → l.count < 31 →
      l.src = .flash cs byte → l.queue = [] → l.stream = none →
      Done (.imageWord ld) s (fun c =>
        c.loads.get k = some { l with taken := flashWord s.flash cs byte l.count :: l.taken, count := l.count + 1 } ∧
        (∀ k', k' ≠ k → c.loads.get k' = s.chip.loads.get k') ∧ c = { s.chip with loads := c.loads })) ∧
  ((∀ (s : State) (l : Loader), s.chip.loads.get 4 = some l → s.chip.cfg.clockWait = true → l.port = none →
      s.chip.synthsAll (fun d y => s.chip.flag d (F.CKM_SYN_STATUS_LOCK y)) = true →
      Done .loadSynthLocked s (fun c =>
        c.dev = .releasing ∧ c.loads.get 4 = none ∧ c.cfg.clockWait = false ∧
        ∀ d : Die, c.flag d F.CFG_STATUS_DONE_OUT = true ∧ c.fld d F.CFG_ATTEMPT_BACKOFF_K = 0)) ∧
    (∀ (s : State) (l : Loader), s.chip.loads.get 4 = some l → s.chip.cfg.clockWait = true → l.kind = .full → l.port = none →
      (∀ k, k < 4 → s.chip.loads.get k = none) →
      s.chip.synthsAll (fun d y => s.chip.flag d (F.CKM_SYN_STATUS_LOCK y)) = false →
      Done .loadClockTimeout s (fun c =>
        (c.dev = if (match l.src with | .host _ => true | _ => false) then DevState.blank else DevState.backoff) ∧
        c.loads.get 4 = none ∧ c.cfg.clockWait = false ∧
        (∀ d : Die, c.fld d F.CFG_FAIL_CAUSE = 10) ∧ ∀ (d : Die) (r : Fin 16), c.regionState d r = Rgn.empty)))

/-- DONE_N and the wait for it (R184 to R186): the line taken as high, the long wait logged once, its fall in USER logged. Each
step of the release advances CFG_STATUS.STAGE on every die, and the last enters USER (R187). -/
def Obligations.DoneLineAndRelease : Prop :=
  ((∀ s : State, s.chip.flag 0 F.CFG_STATUS_DONE_OUT = true → Done .doneNHigh s (fun c =>
      (∀ d : Die, c.flag d F.CFG_STATUS_DONE_IN = true) ∧ c.dev = s.chip.dev ∧
      c = { s.chip with regs := c.regs, cfg := c.cfg } ∧ RegsBut (fun d off => d < 4 ∧ off = Reg.CFG_STATUS) s.chip c)) ∧
    (∀ s : State, s.chip.dev = .releasing → s.chip.cfg.releasing = false → s.chip.cfg.doneWaitLogged = false →
      s.chip.fld s.chip.lead F.CFG_RELEASE_DONE_WARN ≠ 0 → Done .doneWaitLong s (fun c =>
        Logged s.chip c s.chip.lead Ev.doneWaitLong (s.chip.fld s.chip.lead F.CFG_RELEASE_DONE_WARN) ∧
        c.cfg.doneWaitLogged = true ∧ c.dev = .releasing)) ∧
    (∀ s : State, s.chip.flag s.chip.lead F.CFG_STATUS_DONE_IN = true → s.chip.dev = .user → Done .doneLow s (fun c =>
      (∀ d : Die, c.flag d F.CFG_STATUS_DONE_IN = false) ∧ Logged s.chip c s.chip.lead Ev.doneLow 0 ∧ c.dev = .user))) ∧
  (∀ s : State, s.chip.dev = .releasing → s.chip.cfg.releasing = true →
      let n := s.chip.fld s.chip.lead F.CFG_STATUS_STAGE
      Done .releaseStageTimer s (fun c =>
        (n < 3 → (∀ d : Die, c.fld d F.CFG_STATUS_STAGE = n + 1) ∧ c.dev = .releasing ∧ c.cfg.releasing = true) ∧
        (n = 3 → c.dev = .user ∧ c.cfg.releasing = false ∧ ∀ d : Die, c.fld d F.CFG_STATUS_DEV_STATE = 7)))

/-! ### Regions (R130, R149 to R151) -/

/-- Events of one region: a stage of its release, a failing frame, its repair, and a fault of its power domain (R130, R149). -/
def Obligations.RegionEvents : Prop :=
  (∀ (s : State) (d : Die) (r : Fin 16), s.chip.runs d = true → (s.chip.region d r).stepping = true →
    s.chip.regionState d r ≠ Rgn.empty → s.chip.regionState d r ≠ Rgn.loading →
    s.chip.fld d (F.CFG_REGION_STATUS_STAGE r) < 3 →
    DoneFabric (.regionStageTimer d r) s (fun c =>
      c.fld d (F.CFG_REGION_STATUS_STAGE r) = s.chip.fld d (F.CFG_REGION_STATUS_STAGE r) + 1 ∧
      c.regionState d r = s.chip.regionState d r ∧ OnlyRegs s.chip c ∧
      RegsBut (OneReg d (F.CFG_REGION_STATUS_STAGE r).off) s.chip c)) ∧
  (∀ (s : State) (d : Die) (r : Fin 16), s.chip.runs d = true → (s.chip.region d r).stepping = true →
    s.chip.regionState d r = Rgn.staging → s.chip.fld d (F.CFG_REGION_STATUS_STAGE r) = 3 →
    DoneFabric (.regionStageTimer d r) s (fun c =>
      (c.region d r).stepping = false ∧
      (c.regionState d r =
        if s.chip.flag d (F.CFG_REGION_CTRL_AUTO_ACT r) && !(s.chip.region d r).accepted then Rgn.active else Rgn.staging))) ∧
  (∀ (s : State) (d : Die) (r : Fin 16) (frame : BitVec 25), s.chip.runs d = true →
    s.chip.regionState d r ∈ [Rgn.staging, Rgn.active, Rgn.isolated, Rgn.sleeping] →
    DoneFabric (.regionFault d r frame) s (fun c =>
      c.regionState d r = Rgn.faulted ∧ c.fld d (F.CFG_REGION_STATUS_FAULT_CAUSE r) = 1 ∧
      (c.region d r).faultFrame = frame.toNat ∧
      NewestIs c d Ev.regionFault (r + frame.toNat * 16))) ∧
  (∀ (s : State) (d : Die) (r : Fin 16), s.chip.runs d = true → s.chip.regionState d r = Rgn.faulted →
    s.chip.flag d (F.CFG_REGION_CTRL_AUTO_REPAIR r) = true → s.chip.fld d (F.CFG_REGION_STATUS_FAULT_CAUSE r) ∈ [1, 3] →
    DoneFabric (.regionRepaired d r) s (fun c =>
      c.regionState d r = Rgn.isolated ∧ c.flag d (F.CFG_REGION_STATUS_REPAIRED r) = true ∧
      c.fld d (F.CFG_REGION_STATUS_FAULT_CAUSE r) = 0 ∧
      Logged s.chip c d Ev.regionRepaired (r + (s.chip.region d r).faultFrame * 16) ∧
      c = { s.chip with regs := c.regs, log := c.log, cmds := c.cmds, ports := c.ports, ff := c.ff, lutRam := c.lutRam,
                        gates := c.gates })) ∧
  (∀ (s : State) (d : Die) (r : Fin 16), s.chip.runs d = true → s.chip.domState d r ≠ 3 →
    Done (.domainPowerFault d r) s (fun c =>
      c.regionState d r = Rgn.empty ∧ c.fld d (F.CFG_REGION_STATUS_FAULT_CAUSE r) = 2 ∧
      c.domState d r = 3 ∧ c.domPhase d r = 0))

/-- The region commands on a region whose state allows them: where the region stands after them, and the reply OK (R130, R150). -/
def Obligations.RegionCommands : Prop :=
  (∀ (s : State) (p : Fin 5) (h : W36) (ws : List W36), Accepts s.chip p 0x083 h ws →
    s.chip.dieInReset (cmdDie h) = false → s.chip.updates = [] →
    (s.chip.regionState (cmdDie h) (bits (ws.headD 0) 0 4) ∈ [Rgn.staging, Rgn.active] ∨
      (s.chip.regionState (cmdDie h) (bits (ws.headD 0) 0 4) = Rgn.isolated ∧
        (s.chip.region (cmdDie h) (bits (ws.headD 0) 0 4)).act.isSome)) →
    DoneFabric (.regionIsolate p) s (fun c => c.regionState (cmdDie h) (bits (ws.headD 0) 0 4) = Rgn.isolated ∧
      Replied c p h St.ok [])) ∧
  (∀ (s : State) (p : Fin 5) (h : W36) (ws : List W36), Accepts s.chip p 0x084 h ws →
    s.chip.dieInReset (cmdDie h) = false → s.chip.updates = [] →
    s.chip.regionState (cmdDie h) (bits (ws.headD 0) 0 4) = Rgn.isolated →
    DoneFabric (.regionResume p) s (fun c => c.regionState (cmdDie h) (bits (ws.headD 0) 0 4) = Rgn.active ∧
      Replied c p h St.ok [])) ∧
  (∀ (s : State) (p : Fin 5) (h : W36) (ws : List W36), Accepts s.chip p 0x085 h ws →
    s.chip.dieInReset (cmdDie h) = false → s.chip.updates = [] →
    s.chip.regionState (cmdDie h) (bits (ws.headD 0) 0 4) = Rgn.isolated →
    DoneFabric (.regionReset p) s (fun c => c.regionState (cmdDie h) (bits (ws.headD 0) 0 4) = Rgn.isolated ∧
      c.fld (cmdDie h) (F.CFG_REGION_STATUS_STAGE (bits (ws.headD 0) 0 4)) = 1 ∧
      (c.region (cmdDie h) (bits (ws.headD 0) 0 4)).stepping = true ∧ Replied c p h St.ok [])) ∧
  (∀ (s : State) (p : Fin 5) (h : W36) (ws : List W36), Accepts s.chip p 0x086 h ws →
    s.chip.dieInReset (cmdDie h) = false → s.chip.updates = [] → s.chip.loads = [] →
    1 ≤ s.chip.regionState (cmdDie h) (bits (ws.headD 0) 0 4) →
    s.chip.regionState (cmdDie h) (bits (ws.headD 0) 0 4) ≤ 6 →
    DoneFabric (.regionClear p) s (fun c => c.regionState (cmdDie h) (bits (ws.headD 0) 0 4) = Rgn.empty ∧
      Replied c p h St.ok [])) ∧
  (∀ (s : State) (p : Fin 5) (h : W36) (ws : List W36) (lo hi : Nat), Accepts s.chip p 0x087 h ws →
    s.chip.dieInReset (cmdDie h) = false →
    s.chip.regionState (cmdDie h) (bits (ws.headD 0) 0 4) ∈ activateStates →
    windowOf ws = (lo, hi) → lo < 2 ^ 48 → hi < 2 ^ 48 → lo < hi → hi - lo < 2 ^ 47 →
    atOrBeyond (s.chip.chnPos (cmdDie h) (bits (ws.headD 0) 4 1)) (hi * 256) = false →
    Done (.regionActivate p) s (fun c =>
      c.flag (cmdDie h) (F.CFG_REGION_STATUS_ACT_PENDING (bits (ws.headD 0) 0 4)) = true ∧
      (c.region (cmdDie h) (bits (ws.headD 0) 0 4)).act = some { chan := bits (ws.headD 0) 4 1, lo := lo, hi := hi } ∧
      Replied c p h St.ok []))

/-! ### Fabric: cells, reservoir RAMs, handshake gates (R40 to R58, R60 to R88, R118 to R127) -/

/-- Whether a cluster of a die is clocked at a moment: it is configured, its region runs, and the clock that its CLK_SEL names has its
active edge, the falling one where CLK_INV = 1 (R52). -/
def clusterClocked (s : Chip) (d : Nat) (edges : List ClockEdge) (cx cy : Nat) : Bool :=
  (s.usedClusters d).contains (cx, cy) && s.regionRuns d (clusterRegion cx cy) &&
    s.activeEdge d (clusterRegion cx cy) edges (bits (s.clusterWord d cx cy 2 0) 0 5) (bit (s.clusterWord d cx cy 2 0) 5)

/-- Port A of a reservoir RAM in 36-bit width, neither cascaded nor with an output register, at an edge of its clock and none of port B's: the enabled nonets of
the addressed word take DIN and the others keep their values, the word's check bits are good, every other word is unchanged, and
DOUT shows the old word, the new one, or stays, as the write mode says; ERR is 0 for a good word (R61 to R64, R67). Clearing a
reservoir RAM: the CLR input makes every word of it read as zero at once and starts the sweep, which then ends; a CFG_RAM_CLEAR
does so from the Drone's side, in an ISOLATED region only, and is refused otherwise (R73, R75, R87). -/
def Obligations.RamPortsAndClearing : Prop :=
  (∀ (s : State) (d : Die) (ram : Fin 2048) (we : BitVec 4) (addr : BitVec 13) (din : W36),
      let a := addr.toNat % 1024
      let old := s.chip.ramWord d ram a
      let mode := bits (s.chip.ramCfg d ram) 4 2
      s.chip.portClocked d ram false = true → s.chip.cascaded d ram = false → bits (s.chip.ramCfg d ram) 0 2 = 0 →
      bit (s.chip.ramCfg d ram) 8 = false → old.syndrome = 0 → s.chip.flipArmed d 1 ram = false →
      DoneFabric (.ramPortAccess d ram (.given we addr din) .still) s (fun c =>
        (c.ramWord d ram a = if we = 0 then old else old.merge we.toNat din) ∧
        (∀ k, k ≠ ramWordKey d ram a → c.ramWords.get k = s.chip.ramWords.get k) ∧
        ((c.ram d ram).portA.dout = if we = 0 then old.value else if mode = 1 then (old.merge we.toNat din).value
          else if mode = 2 then (s.chip.ram d ram).portA.dout else old.value) ∧
        (c.ram d ram).portA.err = false ∧ (c.ram d ram).portB = (s.chip.ram d ram).portB ∧
        (∀ k, k ≠ ramKey d ram → c.ramMacros.get k = s.chip.ramMacros.get k) ∧
        c = { s.chip with ramWords := c.ramWords, ramMacros := c.ramMacros })) ∧
  ((∀ (s : State) (d : Die) (ram : Fin 2048), s.chip.portClocked d ram false = true → s.chip.cascaded d ram = false →
      DoneFabric (.clrRam d ram .still) s (fun c =>
        (∀ a : Fin 1024, (c.ramWord d ram a).value = 0 ∧ (c.ramWord d ram a).valid = false) ∧ (c.ram d ram).sweeping = true ∧
        (∀ (ram' : Fin 2048) (a : Fin 1024), ram' ≠ ram → c.ramWord d ram' a = s.chip.ramWord d ram' a) ∧
        c = { s.chip with ramWords := c.ramWords, ramMacros := c.ramMacros })) ∧
    (∀ (s : State) (d : Die) (ram : Fin 2048), Done (.ramClearSweepDone d ram) s (fun c =>
      (c.ram d ram).sweeping = false ∧ (c.ram d ram).portA = (s.chip.ram d ram).portA ∧
      c = { s.chip with ramMacros := c.ramMacros })) ∧
    (∀ (s : State) (d : Die) (v : W36), s.chip.flag d F.CFG_RAM_STATUS_BUSY = false → bit v 12 = true →
      s.chip.regionState d (bits v 0 11 / 128) = Rgn.isolated →
      Done (.cfgRamClear d v) s (fun c =>
        c.flag d F.CFG_RAM_STATUS_BUSY = true ∧
        (∀ a : Fin 1024, (c.ramWord d (bits v 0 11) a).value = 0) ∧
        (bit v 11 = true → ∀ (i : Fin 128) (a : Fin 1024), (c.ramWord d (128 * (bits v 0 11 / 128) + i) a).value = 0) ∧
        (bit v 11 = false → ∀ (ram : Fin 2048) (a : Fin 1024), ram.val ≠ bits v 0 11 → c.ramWord d ram a = s.chip.ramWord d ram a) ∧
        c = { s.chip with regs := c.regs, ramWords := c.ramWords } ∧ RegsBut (OneReg d Reg.CFG_RAM_STATUS) s.chip c)) ∧
    (∀ (s : State) (d : Die) (v : W36), s.chip.flag d F.CFG_RAM_STATUS_BUSY = false → bit v 12 = true →
      s.chip.regionState d (bits v 0 11 / 128) ≠ Rgn.isolated →
      Done (.cfgRamClear d v) s (fun c => c.flag d F.CFG_RAM_STATUS_REFUSED = true ∧ OnlyRegs s.chip c ∧
        RegsBut (OneReg d Reg.CFG_RAM_STATUS) s.chip c)) ∧
    (∀ (s : State) (d : Die), Done (.ramClearDone d) s (fun c => c.flag d F.CFG_RAM_STATUS_BUSY = false ∧ OnlyRegs s.chip c ∧
        RegsBut (OneReg d Reg.CFG_RAM_STATUS) s.chip c)))

/-- At a moment with clock edges every flip-flop of the clusters whose clock has its active edge takes the value worked out before,
all at one moment, and every other flip-flop keeps its output (R40 to R43, R52); then asynchronous resets take hold, which change
flip-flops only (R42). Edges of global clocks alone change nothing else of a die without configured RAMs and gates but LUT RAMs. A LUT RAM that fails its check is
recorded in CFG_LUTRAM_STATUS and logged, its contents stay; one that passes changes nothing (R58). A handshake gate: a write
with FULL = 0 stores WDATA last with good check bits; with FULL = 1 it is discarded and logged; an entry becomes visible oldest
first; a read removes the oldest entry, whose slot is free again only later (R121, R122). -/
def Obligations.ClusterEdgesAndGates : Prop :=
  ((∀ (s : State) (d : Die) (edges : List ClockEdge), s.chip.runs d = true →
        DoneFabric (.clusterClockEdge d edges) s (fun c =>
          (∀ (cx cy : Fin 192) (n : Fin 64), c.ff.get (cellKey d cx cy n) =
            if clusterClocked s.chip d edges cx cy then s.chip.nextQ d cx cy n else s.chip.ff.get (cellKey d cx cy n)) ∧
          ((∀ e ∈ edges, e.src.val < 24) → s.chip.usedRams d = [] → s.chip.listedFrames d 16000 16128 = [] →
            c = { s.chip with ff := c.ff, lutRam := c.lutRam, regs := c.regs, dividers := c.dividers }))) ∧
    (∀ c : Chip, c.settleAll = { c with ff := c.settleAll.ff, free := c.free + 1 }) ∧
    ((∀ (s : State) (d : Die) (cx cy : Fin 192) (cell : Fin 64),
        (s.chip.lutRam.get (cellKey d cx cy cell)).written = true →
        lutCheck (s.chip.lutRam.get (cellKey d cx cy cell)).data ≠ (s.chip.lutRam.get (cellKey d cx cy cell)).chk →
        Done (.lutramCheck d cx cy cell) s (fun c =>
          c.flag d F.CFG_LUTRAM_STATUS_CHECK_SEEN = true ∧ c.fld d F.CFG_LUTRAM_STATUS_REGION = clusterRegion cx cy ∧
          c.fld d F.CFG_LUTRAM_STATUS_CLUSTER = clusterIndex cx cy ∧ c.fld d F.CFG_LUTRAM_STATUS_CELL = cell ∧
          Logged s.chip c d Ev.lutramCheck (bits (c.reg d Reg.CFG_LUTRAM_STATUS) 1 22) ∧ OnlyRegsAndLog s.chip c)) ∧
      (∀ (s : State) (d : Die) (cx cy : Fin 192) (cell : Fin 64),
        lutCheck (s.chip.lutRam.get (cellKey d cx cy cell)).data = (s.chip.lutRam.get (cellKey d cx cy cell)).chk →
        NoEffect (.lutramCheck d cx cy cell) s))) ∧
  ((∀ (s : State) (d : Die) (r : Fin 16) (side : Side) (g : Fin 32) (w : W36),
      s.chip.gateOut d r side g = true → s.chip.gateClock d r side g false = true → s.chip.writesOn d r = true →
      s.chip.gateFull d r side g = false → s.chip.flipArmed d 11 (32 * side + g) = false →
      DoneFabric (.gateWrite d r side g (some w)) s (fun c =>
        c.gates.get (gateKey d r side g) =
          { s.chip.gates.get (gateKey d r side g) with
            entries := (s.chip.gates.get (gateKey d r side g)).entries ++ [{ data := w, chk := checkBits w }] } ∧
        (∀ k, k ≠ gateKey d r side g → c.gates.get k = s.chip.gates.get k) ∧ c = { s.chip with gates := c.gates })) ∧
    (∀ (s : State) (d : Die) (r : Fin 16) (side : Side) (g : Fin 32) (w : W36),
      s.chip.gateOut d r side g = true → s.chip.gateClock d r side g false = true → s.chip.writesOn d r = true →
      s.chip.gateFull d r side g = true →
      DoneFabric (.gateWrite d r side g (some w)) s (fun c =>
        c.flag d F.CKM_GATE_STATUS_OVERRUN_SEEN = true ∧ NewestIs c d Ev.gateOverrun (c.gateDetail d) ∧
        c.fld d F.CKM_GATE_STATUS_REGION = r ∧ c.fld d F.CKM_GATE_STATUS_SIDE = side ∧ c.fld d F.CKM_GATE_STATUS_GATE = g ∧
        OnlyRegsAndLog s.chip c)) ∧
    (∀ (s : State) (d : Die) (r n : Fin 16) (side : Side) (g : Fin 32) (e : GateEntry) (es : List GateEntry),
      acrossSide r side = some n.val → s.chip.gateShown d r side g = some e → s.chip.gateClock d n (opposite side) g true = true →
      s.chip.writesOn d n = true →
      (s.chip.gates.get (gateKey d r side g)).entries = e :: es → (∀ x ∈ e :: es, checkBits x.data = x.chk) →
      DoneFabric (.gateRead d r side ⟨g, true⟩) s (fun c =>
        c.gates.get (gateKey d r side g) = { entries := es, freeing := (s.chip.gates.get (gateKey d r side g)).freeing + 1 } ∧
        (∀ k, k ≠ gateKey d r side g → c.gates.get k = s.chip.gates.get k) ∧ c = { s.chip with gates := c.gates })) ∧
    (∀ (s : State) (d : Die) (r n : Fin 16) (side : Side) (g : Fin 32),
      acrossSide r side = some n.val → s.chip.gateClock d n (opposite side) g true = true →
      (∀ x ∈ (s.chip.gates.get (gateKey d r side g)).entries, checkBits x.data = x.chk) →
      DoneFabric (.gateEntryVisible d r side g) s (fun c =>
        (c.gates.get (gateKey d r side g)).entries = showNext (s.chip.gates.get (gateKey d r side g)).entries ∧
        (∀ k, k ≠ gateKey d r side g → c.gates.get k = s.chip.gates.get k) ∧ c = { s.chip with gates := c.gates })) ∧
    (∀ (s : State) (d : Die) (r : Fin 16) (side : Side) (g : Fin 32), s.chip.gateClock d r side g false = true →
      DoneFabric (.gateSlotFreed d r side g) s (fun c =>
        c.gates.get (gateKey d r side g) =
          { s.chip.gates.get (gateKey d r side g) with freeing := (s.chip.gates.get (gateKey d r side g)).freeing - 1 } ∧
        (∀ k, k ≠ gateKey d r side g → c.gates.get k = s.chip.gates.get k) ∧ c = { s.chip with gates := c.gates })))

/-! ### Clocks (R110, R111, R554 to R560) -/

/-- Divider ramps: a change of source of a running global clock starts one at step 1, each step moves it on by one, and it ends
after step 6 with the source undivided (R111, R556). The monitor of XIN: a good window is counted, a second bad one in a row
fails the die over with every synthesiser on XIN unlocked, and RESTORE acts only after 16 good windows (R557 to R559). Lock and
loss of lock: an enabled synthesiser locks unless it takes a failed XIN; one that loses lock fails its clocks over and is
logged; the system clock generator leaves the internal oscillator as it locks (R554, R555, R560). -/
def Obligations.ClocksRampAndLock : Prop :=
  ((∀ (s : State) (d : Die) (n : Fin 24) (v : W36), s.chip.runs d = true → s.chip.flag d (F.CKM_GCLK_EN n) = true →
      bit v 4 = true → bits v 0 4 ≠ s.chip.fld d (F.CKM_GCLK_SRC n) →
      Done (.gclkSourceChange d n v) s (fun c =>
        c.fld d (F.CKM_GCLK_SRC n) = bits v 0 4 ∧ c.flag d (F.CKM_GCLK_EN n) = true ∧
        c.ramps.get (d * 128 + n) = { step := 1, src := bits v 0 4 } ∧
        (∀ k, k ≠ d.val * 128 + n.val → c.ramps.get k = s.chip.ramps.get k) ∧
        c = { s.chip with regs := c.regs, ramps := c.ramps })) ∧
    (∀ (s : State) (d : Die) (clk : Fin 128), s.chip.runs d = true → 1 ≤ (s.chip.ramps.get (d * 128 + clk)).step →
      (s.chip.ramps.get (d * 128 + clk)).step < 6 →
      Done (.clockRampStep d clk) s (fun c =>
        c.ramps.get (d * 128 + clk) = { s.chip.ramps.get (d * 128 + clk) with step := (s.chip.ramps.get (d * 128 + clk)).step + 1 } ∧
        (∀ k, k ≠ d.val * 128 + clk.val → c.ramps.get k = s.chip.ramps.get k) ∧ c = { s.chip with ramps := c.ramps })) ∧
    (∀ (s : State) (d : Die) (clk : Fin 128), s.chip.runs d = true → (s.chip.ramps.get (d * 128 + clk)).step = 6 →
      Done (.clockRampStep d clk) s (fun c =>
        c.ramps.get (d * 128 + clk) = {} ∧ (clk.val < 32 → c = { s.chip with ramps := c.ramps }) ∧
        (32 ≤ clk.val → c.flag d (F.PWR_DOM_STATUS_ON_OSC (clk.val - 32)) = false)))) ∧
  (((∀ (s : State) (d : Die) (count : BitVec 11), s.chip.runs d = true → s.chip.flag d F.CKM_MON_ACTIVE = true →
        windowBad count.toNat (s.chip.fld d F.CKM_MON_EXPECT) (s.chip.fld d F.CKM_XIN_TOL) = false →
        Done (.monitorWindow d count) s (fun c =>
          c.fld d F.CKM_MON_COUNT = count.toNat ∧ (c.clock d).badRun = 0 ∧ (c.clock d).goodRun = (s.chip.clock d).goodRun + 1 ∧
          c.flag d F.CKM_MON_FAILED = s.chip.flag d F.CKM_MON_FAILED ∧ c = { s.chip with regs := c.regs, clocks := c.clocks } ∧
          RegsBut (OneReg d Reg.CKM_MON) s.chip c)) ∧
      (∀ (s : State) (d : Die) (count : BitVec 11), s.chip.runs d = true → s.chip.flag d F.CKM_MON_ACTIVE = true →
        s.chip.flag d F.CKM_MON_FAILED = false → 1 ≤ (s.chip.clock d).badRun →
        windowBad count.toNat (s.chip.fld d F.CKM_MON_EXPECT) (s.chip.fld d F.CKM_XIN_TOL) = true →
        Done (.monitorWindow d count) s (fun c =>
          c.flag d F.CKM_MON_FAILED = true ∧ c.flag d F.CKM_MON_FAIL_SEEN = true ∧
          (∀ y : Fin 8, s.chip.flag d (F.CKM_SYN_CFG_EN y) = true → s.chip.flag d (F.CKM_SYN_CFG_REF y) = true →
            c.flag d (F.CKM_SYN_STATUS_LOCK y) = false ∧ c.flag d (F.CKM_SYN_STATUS_FAILED_OVER y) = true) ∧
          (s.chip.flag d F.CKM_SYS_REF = true → c.flag d F.CKM_SYS_LOCK = false ∧ c.flag d F.CKM_SYS_ON_OSC = true) ∧
          NewestIs c d Ev.ckmClkfail count.toNat)) ∧
      (∀ (s : State) (d : Die) (v : W36), s.chip.runs d = true → s.chip.flag d F.CKM_MON_FAILED = true →
        Done (.ckmMonRestore d v) s (fun c =>
          c.flag d F.CKM_MON_FAILED = decide ((s.chip.clock d).goodRun < 16) ∧
          c = { s.chip with regs := c.regs, ramps := c.ramps } ∧
          (16 ≤ (s.chip.clock d).goodRun → s.chip.flag d F.CKM_SYS_REF = true →
            c.flag d F.CKM_SYS_LOCK = false ∧ c.flag d F.CKM_SYS_ON_OSC = true)))) ∧
    ((∀ (s : State) (d : Die) (y : Fin 8), s.chip.runs d = true → s.chip.flag d (F.CKM_SYN_CFG_EN y) = true →
        s.chip.flag d (F.CKM_SYN_STATUS_LOCK y) = false →
        (s.chip.flag d (F.CKM_SYN_CFG_REF y) && s.chip.flag d F.CKM_MON_FAILED) = false →
        Done (.synthLock d y) s (fun c =>
          c.flag d (F.CKM_SYN_STATUS_LOCK y) = true ∧ c.flag d (F.CKM_SYN_STATUS_FAILED_OVER y) = false ∧
          c = { s.chip with regs := c.regs, ramps := c.ramps })) ∧
      (∀ (s : State) (d : Die) (y : Fin 8), s.chip.runs d = true → s.chip.flag d (F.CKM_SYN_CFG_EN y) = true →
        s.chip.flag d (F.CKM_SYN_STATUS_LOCK y) = true →
        Done (.ckmSynUnlock d y) s (fun c =>
          c.flag d (F.CKM_SYN_STATUS_LOCK y) = false ∧ c.flag d (F.CKM_SYN_STATUS_FAILED_OVER y) = true ∧
          c.flag d (F.CKM_SYN_STATUS_UNLOCK_SEEN y) = true ∧ Logged s.chip c d Ev.ckmSynUnlock y)) ∧
      (∀ (s : State) (d : Die), s.chip.runs d = true → s.chip.flag d F.CKM_SYS_LOCK = false →
        Done (.sysRefRelock d) s (fun c =>
          c.flag d F.CKM_SYS_LOCK = true ∧ c.flag d F.CKM_SYS_ON_OSC = false ∧ OnlyRegs s.chip c ∧
          RegsBut (OneReg d Reg.CKM_SYS) s.chip c))))

/-! ### Power domains (R536 to R551) -/

/-- Requests through PWR_DOM_d_REQ: a state request that nothing refuses starts an entry, one that is refused is counted with the
lowest refuser's code; a level change and a return to the configured clocks start (R538, R540, R541, R547, R550); a quad whose cores
sleep asks for itself (R539). -/
def Obligations.PowerRequests : Prop :=
  (∀ (s : State) (d : Die) (dom : Fin 47) (v : W36), s.chip.runs d = true → s.chip.flag d (F.PWR_DOM_CFG_REG_REQ dom) = true →
    bit v 5 = false → bit v 6 = false → 1 ≤ bits v 0 2 → offers dom (bits v 0 2) = true → s.chip.domState d dom = 0 →
    s.chip.domPhase d dom = 0 → (s.chip.dom d dom).queued = false →
    Done (.pwrGo d dom v) s (fun c =>
      (s.chip.refusers d dom (bits v 0 2) = [] →
        c.domPhase d dom = 1 ∧ c.domState d dom = 0 ∧ (c.dom d dom).target = bits v 0 2 ∧ (c.dom d dom).committed = false ∧
        c = { s.chip with regs := c.regs, doms := c.doms } ∧ RegsBut (OneReg d (F.PWR_DOM_STATUS_PHASE dom).off) s.chip c) ∧
      (∀ x xs, s.chip.refusers d dom (bits v 0 2) = x :: xs →
        c.domPhase d dom = 0 ∧ c.fld d (F.PWR_DOM_STATUS_LAST_REFUSER dom) = (x :: xs).foldl min 15 ∧
        c.fld d (F.PWR_DOM_COUNT_REFUSALS dom) =
          min (s.chip.fld d (F.PWR_DOM_COUNT_REFUSALS dom) + 1) (2 ^ (F.PWR_DOM_COUNT_REFUSALS dom).width - 1) ∧
        OnlyRegs s.chip c))) ∧
  (∀ (s : State) (d : Die) (dom : Fin 47) (v : W36), s.chip.runs d = true → s.chip.flag d (F.PWR_DOM_CFG_REG_REQ dom) = true →
    bit v 2 = false → bit v 6 = false → 16 ≤ dom.val → dom.val < 32 → s.chip.domState d dom = 0 → s.chip.domPhase d dom = 0 →
    bits v 3 2 ≠ s.chip.fld d (F.PWR_DOM_STATUS_LEVEL dom) →
    Done (.pwrPerfGo d dom v) s (fun c =>
      c.domPhase d dom = 3 ∧ (c.dom d dom).levelTo = bits v 3 2 ∧ (c.dom d dom).levelBusy = true ∧
      c = { s.chip with regs := c.regs, doms := c.doms, ramps := c.ramps })) ∧
  (∀ (s : State) (d : Die) (dom : Fin 47) (v : W36), s.chip.runs d = true → s.chip.flag d (F.PWR_DOM_CFG_REG_REQ dom) = true →
    bit v 2 = false → bit v 6 = false → dom.val < 16 ∨ (32 ≤ dom.val ∧ (dom.val ≠ 44 ∨ d ≠ 0)) →
    Done (.pwrPerfGo d dom v) s (fun c =>
      c.fld d (F.PWR_DOM_STATUS_LAST_REFUSER dom) = 13 ∧ c.domPhase d dom = s.chip.domPhase d dom ∧ OnlyRegs s.chip c)) ∧
  (∀ (s : State) (d : Die) (dom : Fin 47) (v : W36), s.chip.runs d = true → s.chip.flag d (F.PWR_DOM_CFG_REG_REQ dom) = true →
    bit v 2 = false → bit v 5 = false → s.chip.domState d dom = 0 → s.chip.domPhase d dom = 0 →
    s.chip.flag d (F.PWR_DOM_STATUS_ON_OSC dom) = true → (s.chip.ramps.get (d.val * 128 + 32 + dom.val)).step = 0 →
    Done (.pwrRestore d dom v) s (fun c =>
      c.ramps.get (d.val * 128 + 32 + dom.val) = { step := 1 } ∧ c = { s.chip with ramps := c.ramps })) ∧
  (∀ (s : State) (d : Die) (quad : Fin 16), s.chip.runs d = true →
    let dom := Dom.quad quad
    let mode := s.chip.fld d (F.PWR_DOM_CFG_AUTO_SLEEP dom)
    mode = 1 ∨ mode = 2 → s.chip.domState d dom = 0 → s.chip.domPhase d dom = 0 → (s.chip.dom d dom).queued = false →
    Obe.sleep ∈ (quadCores quad).map (fun n => s.chip.coreState d n) →
    (∀ n ∈ quadCores quad, s.chip.coreState d n ∈ [Obe.sleep, Obe.reset, Obe.faultHalt]) →
    s.chip.refusers d dom mode = [] →
    Done (.autoSleepRequest d quad) s (fun c =>
      c.domPhase d dom = 1 ∧ (c.dom d dom).target = mode ∧ c = { s.chip with regs := c.regs, doms := c.doms }))

/-- The course of an entry: it commits once no flit is unconfirmed and nothing refuses, is aborted with IN_FLIGHT when QUIESCE
runs out, and completes in its target state (R130, R540, R542). The course of a wake: a wake source raises a sleeping domain on
the internal oscillator, and the domain then runs; a region wakes ACTIVE where it slept so and asked for it, else ISOLATED
(R130, R544 to R547). -/
def Obligations.PowerEntriesAndWakes : Prop :=
  ((∀ (s : State) (d : Die) (dom : Fin 47), s.chip.runs d = true → s.chip.inStep2 d dom = true →
      s.chip.refusers d dom (s.chip.dom d dom).target = [] → s.chip.unconfirmed d dom = false →
      Done (.powerCommit d dom) s (fun c =>
        (c.dom d dom).committed = true ∧ c.domPhase d dom = 1 ∧
        (∀ r : Fin 16, dom.val = r.val → (s.chip.dom d dom).target = 3 → c.regionState d r = Rgn.empty) ∧
        (∀ r : Fin 16, dom.val = r.val → (s.chip.dom d dom).target ≠ 3 → s.chip.regionState d r ∈ [Rgn.active, Rgn.isolated] →
          c.regionState d r = Rgn.sleeping ∧ (c.region d r).wasActive = s.chip.collarOpen d r))) ∧
    (∀ (s : State) (d : Die) (dom : Fin 47), s.chip.runs d = true → s.chip.inStep2 d dom = true →
      s.chip.refusers d dom (s.chip.dom d dom).target = [] → s.chip.unconfirmed d dom = true →
      Done (.quiesceExpire d dom) s (fun c =>
        c.domPhase d dom = 0 ∧ c.domState d dom = s.chip.domState d dom ∧ c.fld d (F.PWR_DOM_STATUS_LAST_REFUSER dom) = 2 ∧
        OnlyRegs s.chip c)) ∧
    (∀ (s : State) (d : Die) (dom : Fin 47), s.chip.runs d = true → s.chip.domPhase d dom = 1 →
      (s.chip.dom d dom).committed = true → s.chip.flag d (F.PWR_DOM_STATUS_WAKE_PENDING dom) = false →
      Done (.sleepStateReached d dom) s (fun c =>
        c.domState d dom = (s.chip.dom d dom).target % 4 ∧ c.domPhase d dom = 0 ∧ (c.dom d dom).committed = false ∧
        ((s.chip.dom d dom).target ≠ 3 → c = { s.chip with regs := c.regs, doms := c.doms })))) ∧
  ((∀ (s : State) (d : Die) (dom : Fin 47) (cause : Fin 8), s.chip.runs d = true → 1 ≤ cause.val → cause.val ≤ 5 →
      s.chip.domState d dom ≠ 0 → s.chip.domPhase d dom = 0 → (s.chip.dom d dom).queued = false →
      s.chip.domState d dom = 1 ∨ (s.chip.clock d).raising.length < 2 →
      Done (.wakeStart d dom cause) s (fun c =>
        c.domPhase d dom = 2 ∧ c.domState d dom = s.chip.domState d dom ∧
        c.fld d (F.PWR_DOM_STATUS_LAST_WAKE dom) = cause ∧ c.flag d (F.PWR_DOM_STATUS_ON_OSC dom) = true ∧
        (c.dom d dom).wakeEnd = s.chip.now + wakeTime dom (s.chip.domState d dom) ∧
        c = { s.chip with regs := c.regs, doms := c.doms, clocks := c.clocks } ∧
        RegsBut (OneReg d (F.PWR_DOM_STATUS_PHASE dom).off) s.chip c)) ∧
    (∀ (s : State) (d : Die) (dom : Fin 47), s.chip.runs d = true → s.chip.domPhase d dom = 2 →
      dom.val ∉ (s.chip.clock d).waiting →
      Done (.wakeComplete d dom) s (fun c =>
        c.domState d dom = 0 ∧ c.domPhase d dom = 0 ∧
        (∀ r : Fin 16, dom.val = r.val → s.chip.regionState d r = Rgn.sleeping →
          (c.regionState d r =
            if (s.chip.region d r).wasActive && s.chip.flag d (F.CFG_REGION_CTRL_RESUME_ON_WAKE r) then Rgn.active
            else Rgn.isolated)))) ∧
    (∀ (s : State) (d : Die) (t : Fin 8), s.chip.runs d = true → s.chip.flag d (F.PWR_TIMER_EN t) = true →
      Done (.pwrTimerExpire d t) s (fun c =>
        let dom := s.chip.fld d (F.PWR_TIMER_DOM t)
        c.flag d (F.PWR_TIMER_EN t) = false ∧
        (dom < 47 → s.chip.domState d dom ≠ 0 → s.chip.domPhase d dom = 0 → (s.chip.dom d dom).queued = false →
          (s.chip.clock d).raising.length < 2 → c.domPhase d dom = 2 ∧ c.fld d (F.PWR_DOM_STATUS_LAST_WAKE dom) = 4))) ∧
    (∀ (s : State) (d : Die) (n : Fin 8), s.chip.runs d = true → s.chip.fld d (F.PWR_PINWAKE_EDGE n) ≠ 0 →
      Done (.pwrPinwake d n) s (fun c =>
        let dom := s.chip.fld d (F.PWR_PINWAKE_DOM n)
        c.flag d (F.PWR_PINWAKE_SEEN n) = true ∧
        (dom < 47 → s.chip.domState d dom ≠ 0 → s.chip.domPhase d dom = 0 → (s.chip.dom d dom).queued = false →
          (s.chip.clock d).raising.length < 2 → c.domPhase d dom = 2 ∧ c.fld d (F.PWR_DOM_STATUS_LAST_WAKE dom) = 5))))

/-- Levels and health: the last voltage step of a change to a slower level shows the new level; samples are shown, an alarm stands
from its threshold on, and a rail's extremes are kept (R550, R586). -/
def Obligations.LevelsAndSamples : Prop :=
  (∀ (s : State) (d : Die) (dom : Fin 47), s.chip.runs d = true → s.chip.domPhase d dom = 3 →
    (s.chip.dom d dom).levelBusy = true → (s.chip.ramps.get (d.val * 128 + 32 + dom.val)).step = 0 →
    Done (.levelChangeStep d dom) s (fun c =>
      (2 ≤ (s.chip.dom d dom).levelSteps → (c.dom d dom).levelSteps = (s.chip.dom d dom).levelSteps - 1 ∧
        c = { s.chip with doms := c.doms }) ∧
      ((s.chip.dom d dom).levelSteps = 1 → s.chip.fld d (F.PWR_DOM_STATUS_LEVEL dom) ≤ (s.chip.dom d dom).levelTo →
        c.fld d (F.PWR_DOM_STATUS_LEVEL dom) = (s.chip.dom d dom).levelTo % 4 ∧ c.domPhase d dom = 0 ∧
        (c.dom d dom).levelBusy = false))) ∧
  (∀ (s : State) (d : Die) (t0 t1 t2 t3 : BitVec 9), s.chip.runs d = true →
    Done (.tempSample d [t0, t1, t2, t3]) s (fun c =>
      (∀ i : Fin 4, bits (c.reg d Reg.HMN_TEMP) (9 * i) 9 = ([t0, t1, t2, t3].getD i 0).toNat) ∧
      (∀ i : Fin 4, signed 9 (s.chip.fld d F.HMN_CFG_TWARN) ≤ signed 9 ([t0, t1, t2, t3].getD i 0).toNat →
        bit (c.reg d Reg.HMN_STATUS) i = true))) ∧
  (∀ (s : State) (d : Die) (m0 m1 m2 m3 m4 m5 m6 : BitVec 12), s.chip.runs d = true →
    Done (.railSample d [m0, m1, m2, m3, m4, m5, m6]) s (fun c =>
      ∀ r : Fin 7,
        let mv := ([m0, m1, m2, m3, m4, m5, m6].getD r 0).toNat
        c.fld d (F.HMN_RAIL_MV r) = mv ∧ c.fld d (F.HMN_RAIL_MIN r) = min mv (s.chip.fld d (F.HMN_RAIL_MIN r)) ∧
        c.fld d (F.HMN_RAIL_MAX r) = max mv (s.chip.fld d (F.HMN_RAIL_MAX r))))

/-! ### Network on chip (R189 to R225) -/

/-- One nc of a router: a lone good flit leaves by its productive port with its age kept; of two that want the same port the
older takes it and the younger is deflected to the first free port of R198; a flit of age 255 is dropped and logged; and every
16 nc a flit's age rises by 1 (R196 to R199). No port here crosses a die edge. A local port whose domain takes flits injects: a
waiting confirmation or response first; otherwise the waiting packet that its window admits, numbered from 0 where its stream
opens and on from its last number where it is open (R201, R202, R208, R209). The packet here is of one flit, and the port has
nothing else unconfirmed. A router's nc begins with its arrivals (nextNc, the model's split: log 1); the state u of an injection is
the one in which the port has its turn, after a core's DMA (R276). -/
def Obligations.PortsInjectAndFlitsMove : Prop :=
  (((∀ (s : State) (router : Fin 256) (fl : Flight) (p n : Nat),
      let t := s.chip.nextNc router
      s.chip.flights.filter (fun f => f.router = router.val) = [fl] → fl.inPort < 4 → t.portOpen router fl.inPort = true →
      fl.age < 255 → fl.flit.syndrome 0 = 0 → fl.flit.syndrome 1 = 0 → fl.flit.typ ≠ 15 → t.route router fl.flit = .dir p →
      t.portOpen router p = true → bundleAt router p = none → neighbour router p = some n →
      Done (.flitArrive router) s (fun c =>
        c = { t with
          flights := s.chip.flights.filter (fun f => f.router != router.val) ++
            [{ flit := fl.flit, router := n, inPort := (p + 2) % 4, age := fl.age }]
          ncUse := c.ncUse } ∧
        (c.useOf router).ports = [p] ∧ SameBut router t.ncUse c.ncUse)) ∧
    (∀ (s : State) (router : Fin 256) (a b : Flight) (p n p' n' : Nat),
      let t := s.chip.nextNc router
      s.chip.flights.filter (fun f => f.router = router.val) = [a, b] → b.age < a.age → a.age < 255 → a.inPort ≠ b.inPort →
      (∀ f ∈ [a, b], f.inPort < 4 ∧ t.portOpen router f.inPort = true ∧ f.flit.syndrome 0 = 0 ∧ f.flit.syndrome 1 = 0 ∧
        f.flit.typ ≠ 15 ∧ t.route router f.flit = .dir p) →
      t.portOpen router p = true → bundleAt router p = none → neighbour router p = some n →
      (deflections router (((t.targetOf router b.flit).map (·.1)).getD router) (some p) b.inPort).find?
        (fun q => q != p && t.portOpen router q) = some p' →
      bundleAt router p' = none → neighbour router p' = some n' →
      Done (.flitArrive router) s (fun c =>
        c.flights = s.chip.flights.filter (fun f => f.router != router.val) ++
          [{ flit := a.flit, router := n, inPort := (p + 2) % 4, age := a.age },
           { flit := b.flit, router := n', inPort := (p' + 2) % 4, age := b.age }] ∧
        c.fld (dieOf router) (F.NOC_STAT_COUNT 0) = (s.chip.fld (dieOf router) (F.NOC_STAT_COUNT 0) + 1) % 2 ^ 36 ∧
        c = { t with flights := c.flights, regs := c.regs, pmc := c.pmc, ncUse := c.ncUse } ∧ SameBut router t.ncUse c.ncUse ∧
        RegsBut (OneReg (dieOf router) (F.NOC_STAT_COUNT 0).off) s.chip c)) ∧
    (∀ (s : State) (router : Fin 256) (fl : Flight),
      let t := s.chip.nextNc router
      s.chip.flights.filter (fun f => f.router = router.val) = [fl] → fl.inPort < 4 → t.portOpen router fl.inPort = true →
      255 ≤ fl.age →
      Done (.flitArrive router) s (fun c =>
        c.flights = s.chip.flights.filter (fun f => f.router != router.val) ∧
        Logged s.chip c (dieOf router) Ev.nocAged router ∧
        c.fld (dieOf router) (F.NOC_STAT_COUNT 3) = (s.chip.fld (dieOf router) (F.NOC_STAT_COUNT 3) + 1) % 2 ^ 36 ∧
        c = { t with flights := c.flights, regs := c.regs, pmc := c.pmc, log := c.log, cmds := c.cmds, ports := c.ports }))) ∧
    ((∀ (s : State) (router : Fin 256), (∀ f ∈ s.chip.flights, f.router ≠ router.val) →
        Done (.flitArrive router) s (fun c => c = s.chip.nextNc router)) ∧
      (∀ (c : Chip) (router : Nat), (c.useOf router).nc < ((c.nextNc router).useOf router).nc ∧
        ((c.nextNc router).useOf router).ports = [] ∧ SameBut router c.ncUse (c.nextNc router).ncUse ∧
        c.nextNc router = { c with nc := (c.nextNc router).nc, ncUse := (c.nextNc router).ncUse }) ∧
      (∀ (s : State) (i : Nat) (fl : Flight), s.chip.flights[i]? = some fl →
        Done (.flitAgeTick i) s (fun c => c.flights[i]? = some { fl with age := min 255 (fl.age + 1) } ∧
          (∀ j, j ≠ i → c.flights[j]? = s.chip.flights[j]?) ∧ c = { s.chip with flights := c.flights })))) ∧
  ((∀ (s : State) (router : Fin 256) (port : Fin 4) (u : Chip) (f : Flit) (rest : List Flit) (p n : Nat),
      u = (s.chip.when (port = 2) (fun c => c.dmaRefill (dieOf router) (coreOf router))).takeTurn router port →
      s.chip.runs (dieOf router) = true → u.portEnabled router port = true → (u.port router port).out = f :: rest →
      f.syndrome 0 = 0 → f.syndrome 1 = 0 → f.typ ≠ 15 → u.route router f = .dir p →
      u.portFree router p = true → bundleAt router p = none → neighbour router p = some n →
      Done (.flitInject router port) s (fun c =>
        c.flights = u.flights ++ [{ flit := f, router := n, inPort := (p + 2) % 4, age := 0 }] ∧
        c.port router port = { u.port router port with out := rest } ∧ SameBut (portKey router port) u.ports c.ports ∧
        (c.useOf router).ports = p :: (u.useOf router).ports ∧ SameBut router u.ncUse c.ncUse ∧
        c = { u with flights := c.flights, ports := c.ports, pmc := c.pmc, ncUse := c.ncUse })) ∧
    (∀ (s : State) (router : Fin 256) (port : Fin 4) (u : Chip) (pk : Packet) (b : Payload) (rest : List Packet) (p n : Nat),
      u = (s.chip.when (port = 2) (fun c => c.dmaRefill (dieOf router) (coreOf router))).takeTurn router port →
      s.chip.runs (dieOf router) = true → u.portEnabled router port = true → u.mayInject router port = true →
      (u.port router port).out = [] → (u.port router port).sent = [] → (u.port router port).waiting = pk :: rest →
      (u.port router port).deferred = none → u.streamReady router port pk.key = true → pk.body = [b] →
      1 + pk.resp ≤ u.window router port →
      let st := (u.port router port).tx.get pk.key
      let opens : Bool := !st.opened || (st.everConf && decide (u.sendQuiet (dieOf router) ≤ u.now - st.lastConf))
      let seq := if opens then 0 else st.next
      let rseq := (u.port router port).rseq.get pk.key
      let f : Flit := Flit.seal {
        w0 := head0 pk.dev pk.router pk.port pk.typ pk.flow
        w1 := head1 u.ownDevice router port seq true b.poison
        w2 := b.w2
        w3 := if pk.typ = Typ.readReq then putBits b.w3 6 12 rseq else if pk.typ = Typ.regRead then word rseq else b.w3
        w4 := b.w4, w5 := b.w5 }
      f.typ ≠ 15 → u.route router f = .dir p → u.portFree router p = true → bundleAt router p = none →
      neighbour router p = some n →
      Done (.flitInject router port) s (fun c =>
        c.flights = u.flights ++ [{ flit := f, router := n, inPort := (p + 2) % 4, age := 0 }] ∧
        (c.port router port).waiting = rest ∧
        (c.port router port).sent =
          [{ flits := [f], unsent := 0, key := pk.key, resp := pk.resp, rseq := rseq, origin := pk.origin }] ∧
        ((c.port router port).tx.get pk.key).opened = true ∧ ((c.port router port).tx.get pk.key).next = nextSeq seq ∧
        SameBut (portKey router port) u.ports c.ports ∧ SameBut router u.ncUse c.ncUse ∧
        c = { u with flights := c.flights, ports := c.ports, pmc := c.pmc, ncUse := c.ncUse })))

/-- What a sending interface does with confirmations and with refusals: a WRITE_ACK confirms the packet it names; a timer that
expires has it resent, and after RETRY_LIMIT resends failed with every later packet of its stream; a WAKE_NACK has it resent with
those of its stream after the hint; NOT_READY and UNREACHABLE fail it with them (R215, R216, R219 to R221, R682). The packets here
were submitted by no engine, and no NOC_PORT write waits. -/
def Obligations.SendersAct : Prop :=
  (∀ (s : State) (router : Fin 256) (port : Fin 4) (a : Flit) (rest : List Flit) (i : Nat) (p : SentPacket),
    s.chip.runs (dieOf router) = true → (s.chip.port router port).answers = a :: rest → a.typ = Typ.writeAck → a.poison = false →
    (s.chip.port router port).ackedIdx a = some i → (s.chip.port router port).sent[i]? = some p → p.origin = .plain →
    (s.chip.port router port).deferred = none →
    Done (.writeAck router port) s (fun c =>
      c.port router port = { s.chip.port router port with
        answers := rest, sent := (s.chip.port router port).sent.eraseIdx i, tx := (c.port router port).tx } ∧
      (c.port router port).tx.get p.key = { (s.chip.port router port).tx.get p.key with lastConf := s.chip.now, everConf := true } ∧
      SameBut p.key (s.chip.port router port).tx (c.port router port).tx ∧
      SameBut (portKey router port) s.chip.ports c.ports ∧ c = { s.chip with ports := c.ports })) ∧
  (∀ (s : State) (router : Fin 256) (port : Fin 4) (i : Nat) (p : SentPacket),
    s.chip.runs (dieOf router) = true → (s.chip.port router port).sent[i]? = some p → p.unsent = 0 → p.refused = false →
    p.retries < s.chip.fld (dieOf router) F.NOC_RETRY_RETRY_LIMIT →
    Done (.nocRetryTimeout router port i) s (fun c =>
      (c.port router port).sent[i]? = some { p with unsent := p.flits.length, retries := p.retries + 1, wakes := 0 } ∧
      (∀ j, j ≠ i → (c.port router port).sent[j]? = (s.chip.port router port).sent[j]?) ∧
      c.fld (dieOf router) (F.NOC_STAT_COUNT 4) = (s.chip.fld (dieOf router) (F.NOC_STAT_COUNT 4) + 1) % 2 ^ 36 ∧
      SameBut (portKey router port) s.chip.ports c.ports ∧
      c = { s.chip with ports := c.ports, regs := c.regs, pmc := c.pmc })) ∧
  (∀ (s : State) (router : Fin 256) (port : Fin 4) (i : Nat) (p : SentPacket),
    s.chip.runs (dieOf router) = true → (s.chip.port router port).sent[i]? = some p → p.unsent = 0 → p.refused = false →
    s.chip.fld (dieOf router) F.NOC_RETRY_RETRY_LIMIT ≤ p.retries → (s.chip.port router port).deferred = none →
    (∀ x ∈ (s.chip.port router port).sent, x.origin = .plain ∧ x.typ ≠ Typ.emit ∧ x.typ ≠ Typ.cmd) →
    Done (.nocRetryTimeout router port i) s (fun c =>
      (c.port router port).sent = ((s.chip.port router port).sent.zipIdx.filter
        (fun (x, j) => !(decide (i ≤ j) && decide (x.key = p.key)))).map (·.1) ∧
      c.flag (dieOf router) (F.NOC_PORT_FAIL_SEEN (8 * localY router + localX router) port) = true ∧
      Logged s.chip c (dieOf router) Ev.nocTimeout
        (router + port * 2 ^ 8 + ((p.flits.head?.map Flit.flow).getD 0) * 2 ^ 11))) ∧
  (∀ (s : State) (router : Fin 256) (port : Fin 4) (a : Flit) (rest : List Flit) (i : Nat) (p : SentPacket),
    s.chip.runs (dieOf router) = true → (s.chip.port router port).answers = a :: rest → a.typ = Typ.wakeNack → a.poison = false →
    (s.chip.port router port).refusedIdx a = some i → (s.chip.port router port).sent[i]? = some p → p.refused = false →
    p.wakes + 1 ≤ s.chip.fld (dieOf router) F.NOC_RETRY_WAKE_LIMIT →
    Done (.wakeNack router port) s (fun c =>
      (c.port router port).sent[i]? = some { p with refused := true, wakes := p.wakes + 1 } ∧
      (∀ j, j ≠ i → (c.port router port).sent[j]? = (s.chip.port router port).sent[j]?) ∧
      (c.port router port).answers = rest ∧ SameBut (portKey router port) s.chip.ports c.ports)) ∧
  (∀ (s : State) (router : Fin 256) (port : Fin 4) (i : Nat) (p : SentPacket),
    (s.chip.port router port).sent[i]? = some p → p.refused = true →
    Done (.wakeResend router port i) s (fun c =>
      (∀ (j : Nat) (x : SentPacket), (s.chip.port router port).sent[j]? = some x →
        (c.port router port).sent[j]? = some
          (if i ≤ j ∧ x.key = p.key then
            { x with unsent := x.flits.length, wakes := if x.refused then x.wakes else 0 } else x)) ∧
      SameBut (portKey router port) s.chip.ports c.ports ∧ c = { s.chip with ports := c.ports })) ∧
  (∀ (s : State) (router : Fin 256) (port : Fin 4) (a : Flit) (rest : List Flit) (i : Nat) (p : SentPacket),
    s.chip.runs (dieOf router) = true → (s.chip.port router port).answers = a :: rest → a.poison = false →
    (s.chip.port router port).refusedIdx a = some i → (s.chip.port router port).sent[i]? = some p → p.refused = false →
    (s.chip.port router port).deferred = none →
    (∀ x ∈ (s.chip.port router port).sent, x.origin = .plain ∧ x.typ ≠ Typ.emit ∧ x.typ ≠ Typ.cmd) →
    let Fails : Chip → Prop := fun c =>
      (c.port router port).sent = ((s.chip.port router port).sent.zipIdx.filter
        (fun (x, j) => !(decide (i ≤ j) && decide (x.key = p.key)))).map (·.1) ∧
      (c.port router port).answers = rest ∧ ((c.port router port).tx.get p.key).lastConf = s.chip.now ∧
      c.flag (dieOf router) (F.NOC_PORT_FAIL_SEEN (8 * localY router + localX router) port) = true ∧
      SameBut (portKey router port) s.chip.ports c.ports ∧ c = { s.chip with ports := c.ports, regs := c.regs }
    (a.typ = Typ.notReady → Done (.notReady router port) s Fails) ∧
    (a.typ = Typ.unreachable → Done (.unreachable router port) s Fails))

/-- The next held flit of a request stream leaves the reorder buffer to its endpoint's FIFO, its stream then expecting the next
number; the last one of a packet brings the sender a WRITE_ACK with the number of the packet's first flit; with nothing next in
its stream nothing is delivered (R205, R207, R215). Gateways and DDR5 homes (port SYS) have statements of their own. A stream
that has been missing its expected flit, or whose held flit has waited, for EVICT_QUIET is evicted with its held flits, counted and logged (R210, R215); and a NOC_PORT write
sets WIN and EN at once on a port with nothing unconfirmed, waits otherwise (log 205), and clears FAIL_SEEN by a 1 (R225). -/
def Obligations.ReorderHolesAndPortSettings : Prop :=
  ((∀ (s : State) (router : Fin 256) (port : Fin 4) (h : Held) (e : RxEntry),
      s.chip.runs (dieOf router) = true → port.val ≠ 3 →
      2 ≤ port.val ∨ s.chip.collarOpen (dieOf router) (regionOf router) = true → (s.chip.port router port).again = [] →
      (s.chip.port router port).nextHeld = some h → h.flit.typ ≠ Typ.readResp →
      (s.chip.port router port).table.find? (fun x => x.key = h.key) = some e →
      (s.chip.port router port).delivered.length < 8 →
      Done (.reorderDeliver router port) s (fun c =>
        (c.port router port).delivered = (s.chip.port router port).delivered ++ [h.flit] ∧
        (c.port router port).held =
          (s.chip.port router port).held.filter (fun x => !(x.key = h.key && x.seq = h.seq)) ∧
        (∀ x ∈ (c.port router port).table, x.key = h.key → x.expect = nextSeq h.seq) ∧
        ((c.port router port).out = (s.chip.port router port).out ++
          (if h.flit.last && h.flit.typ != Typ.readReq && h.flit.typ != Typ.regRead then [Flit.seal {
            w0 := head0 h.flit.srcDev h.flit.srcRouter h.flit.srcPort Typ.writeAck h.flit.flow
            w1 := head1 s.chip.ownDevice router port 0 true false, w2 := word e.start }] else [])) ∧
        SameBut (portKey router port) s.chip.ports c.ports ∧ c = { s.chip with ports := c.ports })) ∧
    (∀ (s : State) (router : Fin 256) (port : Fin 4), (s.chip.port router port).again = [] →
      (s.chip.port router port).nextHeld = none → NoEffect (.reorderDeliver router port) s)) ∧
  ((∀ (s : State) (router : Fin 256) (port : Fin 4) (i : Nat) (e : RxEntry) (h : Held),
      (s.chip.port router port).table[i]? = some e → h ∈ (s.chip.port router port).held → h.key = e.key →
      s.chip.evictQuiet (dieOf router) ≤ s.chip.now - e.advanced → s.chip.evictQuiet (dieOf router) ≤ s.chip.now - h.since →
      (∀ x ∈ (s.chip.port router port).held, x.key = e.key → x.seq = e.expect →
        s.chip.evictQuiet (dieOf router) ≤ s.chip.now - x.since) →
      Done (.nocHoleExpired router port i) s (fun c =>
        (∀ x ∈ (c.port router port).held, x.key ≠ e.key) ∧
        (∀ x ∈ (s.chip.port router port).held, x.key ≠ e.key → x ∈ (c.port router port).held) ∧
        (c.port router port).table = (s.chip.port router port).table.eraseIdx i ∧
        c.fld (dieOf router) (F.NOC_STAT_COUNT 10) = (s.chip.fld (dieOf router) (F.NOC_STAT_COUNT 10) + 1) % 2 ^ 36 ∧
        Logged s.chip c (dieOf router) Ev.nocHoleExpired (router + port * 2 ^ 8 + e.key / 2 % 1024 * 2 ^ 11))) ∧
    (∀ (s : State) (router : Fin 256) (port : Fin 4) (i : Nat),
      (∀ (e : RxEntry) (h : Held), (s.chip.port router port).table[i]? = some e → h ∈ (s.chip.port router port).held →
        h.key = e.key → s.chip.now - max e.advanced h.since < s.chip.evictQuiet (dieOf router)) →
      NoEffect (.nocHoleExpired router port i) s) ∧
    (∀ (s : State) (d : Die) (n : Fin 64) (p : Fin 4) (v : W36),
      Done (.nocPortWrite d n p v) s (fun c =>
        let idle := (s.chip.port (routerAt d (n % 8) (n / 8)) p).sent.isEmpty
        c.fld d (F.NOC_PORT_WIN n p) = (if idle then bits v 0 5 else s.chip.fld d (F.NOC_PORT_WIN n p)) ∧
        c.fld d (F.NOC_PORT_EN n p) = (if idle then bits v 5 1 else s.chip.fld d (F.NOC_PORT_EN n p)) ∧
        c.flag d (F.NOC_PORT_FAIL_SEEN n p) = (s.chip.flag d (F.NOC_PORT_FAIL_SEEN n p) && !bit v 6) ∧
        (c.port (routerAt d (n % 8) (n / 8)) p).deferred = (if idle then none else some v) ∧
        RegsBut (OneReg d (F.NOC_PORT_WIN n p).off) s.chip c ∧ c = { s.chip with regs := c.regs, ports := c.ports })))

/-! ### Die-to-die links (R226 to R244, R678) -/

/-- What a failed attempt of a bundle side leaves: the cause, then PATTERN again with the next ATTEMPT, or after the third FENCED,
logged (the failure rows of R243). -/
def attemptFailed (a c : Chip) (d e k cause : Nat) : Prop :=
  c.fld d (F.CRL_BUNDLE_STATUS_LAST_FAIL e k) = cause ∧ (c.crlSide d e k).wire = [] ∧
  (a.fld d (F.CRL_BUNDLE_STATUS_ATTEMPT e k) < 3 → c.crlState d e k = Crl.pattern ∧
    c.fld d (F.CRL_BUNDLE_STATUS_ATTEMPT e k) = a.fld d (F.CRL_BUNDLE_STATUS_ATTEMPT e k) + 1 ∧ c.log = a.log) ∧
  (a.fld d (F.CRL_BUNDLE_STATUS_ATTEMPT e k) = 3 → c.crlState d e k = Crl.fenced ∧
    c.flag d (F.CRL_BUNDLE_STATUS_FENCE_SEEN e k) = true ∧
    (if cause = 2 then Logged a c d Ev.crlWidthDisagree (e + 2 * k) else Logged a c d Ev.crlTrainFail (e + 2 * k + cause * 16)))

/-- The training events of a bundle side, row by row: the other side's reset, PATTERN, NEGOTIATE, ALIGN, and the failures of an
attempt (R236, R241 to R243). -/
def Obligations.BundleTraining : Prop :=
  (∀ (s : State) (d : Die) (e : Fin 2), s.chip.linked d = true → Done (.remoteRstRise d e) s (fun c =>
    (∀ k : Fin 8, c.crlState d e k = Crl.resetWait ∧ c.crlWidth d e k = 0 ∧ (c.crlSide d e k).wire = [] ∧
      c.bundleLive d e k = false) ∧
    c.fld d F.CRL_SIDEBAND_PEER_RST / 2 ^ e.val % 2 = 1 ∧
    c = { s.chip with regs := c.regs, crl := c.crl, live := c.live, flights := c.flights, notices := c.notices })) ∧
  (∀ (s : State) (d : Die) (e : Fin 2) (k : Fin 8), s.chip.linked d = true → s.chip.dieInReset (peerDie d e) = false →
    s.chip.crlState d e k = Crl.resetWait → Done (.rstBothLow d e k) s (fun c =>
    c.crlState d e k = Crl.pattern ∧ c.fld d (F.CRL_BUNDLE_STATUS_ATTEMPT e k) = 1 ∧
    c.fld d F.CRL_SIDEBAND_PEER_RST / 2 ^ e.val % 2 = 0 ∧
    (∀ x, x ≠ crlKey d e k → c.crl.get x = s.chip.crl.get x) ∧
    c = { s.chip with regs := c.regs, crl := c.crl, live := c.live, flights := c.flights, notices := c.notices })) ∧
  (∀ (s : State) (d : Die) (e : Fin 2) (k : Fin 8) (mask : BitVec 40) (clkOk : Bool), s.chip.linked d = true →
    s.chip.crlState d e k = Crl.pattern → Done (.patternDone d e k mask clkOk) s (fun c =>
    c.crlMask d e k = mask ∧ c.flag d (F.CRL_BUNDLE_STATUS_CLK_OK e k) = clkOk ∧
    (crlCapability mask clkOk ≠ 0 → c.crlState d e k = Crl.negotiate ∧ (c.crlSide d e k).cap = crlCapability mask clkOk ∧
      (c.crlSide d e k).propose = min (crlCapability mask clkOk) (s.chip.fld d (F.CRL_BUNDLE_STATUS_FLOOR e k)) ∧
      (c.crlSide d e k).echo = 0) ∧
    (crlCapability mask clkOk = 0 → attemptFailed s.chip c d e k 1))) ∧
  (∀ (s : State) (d : Die) (e : Fin 2) (k : Fin 8), s.chip.linked d = true → s.chip.crlState d e k = Crl.negotiate →
    Done (.negTimeout d e k) s (fun c => attemptFailed s.chip c d e k 2)) ∧
  (∀ (s : State) (d : Die) (e : Fin 2) (k : Fin 8), s.chip.linked d = true → s.chip.crlState d e k = Crl.align →
    (s.chip.crlSide d e k).peerRxOk = true → Done (.alignTestDone d e k 0) s (fun c =>
    c.crlState d e k = Crl.active ∧ c.bundleLive d e k = true ∧ c.crlWidth d e k = s.chip.crlWidth d e k ∧
    c.fld d (F.CRL_BUNDLE_STATUS_ATTEMPT e k) = 0 ∧
    c.fld d (F.CRL_BUNDLE_STATUS_FLOOR e k) =
      (if s.chip.crlWidth d e k = 1 then 1 else s.chip.fld d (F.CRL_BUNDLE_STATUS_FLOOR e k)))) ∧
  (∀ (s : State) (d : Die) (e : Fin 2) (k : Fin 8), s.chip.linked d = true → s.chip.crlState d e k = Crl.align →
    (s.chip.crlSide d e k).peerRxOk = false → Done (.alignTestDone d e k 0) s (fun c =>
    (c.crlSide d e k) = { s.chip.crlSide d e k with alignOk := true } ∧ SameBut (crlKey d e k) s.chip.crl c.crl ∧
    c = { s.chip with crl := c.crl })) ∧
  (∀ (s : State) (d : Die) (e : Fin 2) (k : Fin 8) (errors : Nat), s.chip.linked d = true →
    s.chip.crlState d e k = Crl.align → 0 < errors → Done (.alignTestDone d e k errors) s (fun c =>
    attemptFailed s.chip c d e k 3 ∧ c.fld d (F.CRL_BUNDLE_STATUS_FLOOR e k) =
      (if s.chip.crlWidth d e k = 2 then 1 else s.chip.fld d (F.CRL_BUNDLE_STATUS_FLOOR e k)))) ∧
  (∀ (s : State) (d : Die) (e : Fin 2) (k : Fin 8), s.chip.linked d = true → s.chip.crlState d e k = Crl.align →
    Done (.rxOkTimeout d e k) s (fun c => attemptFailed s.chip c d e k 4))

/-- Adverts: what a side advertises and when it has nothing to say; one with a wrong CRC is ignored; in NEGOTIATE the second of two
that propose and echo this side's width reaches agreement; in ALIGN one with RX_OK opens a side whose own test has passed; in ACTIVE
one that believes in another width, or asks for a retrain, starts training again; one with FENCED = 1 fences (R240, R242, R243). -/
def Obligations.BundleAdverts : Prop :=
  (∀ (s : State) (d : Die) (e : Fin 2) (k : Fin 8), s.chip.linked d = true → 2 ≤ s.chip.crlState d e k →
    Done (.advertTimer d e k) s (fun c => ∃ w0 w1 : W36,
      (c.crlSide d e k).advert = some (w0, w1, advertCrc w0 w1) ∧ w0 = s.chip.reg d (Reg.CRL_RXMASK e k) ∧
      bits w1 0 4 = s.chip.fld d (F.CRL_BUNDLE_STATUS_RX_MASK_HI e k) ∧
      bits w1 7 2 = s.chip.fld d (F.CRL_BUNDLE_STATUS_FLOOR e k) ∧
      bits w1 11 2 = (s.chip.crlSide d e k).echo % 4 ∧
      bits w1 13 2 = s.chip.fld d (F.CRL_BUNDLE_STATUS_ATTEMPT e k) ∧ bits w1 15 3 = k ∧
      bit w1 18 = (s.chip.crlSide d e k).alignOk ∧ bit w1 19 = false ∧ bit w1 20 = false ∧
      (bit w1 21 = true ↔ s.chip.crlState d e k = Crl.fenced) ∧
      bits w1 22 3 = s.chip.fld d (F.CRL_BUNDLE_STATUS_LAST_FAIL e k) ∧ bits w1 25 11 = 0 ∧
      SameBut (crlKey d e k) s.chip.crl c.crl ∧ c = { s.chip with crl := c.crl })) ∧
  (∀ (s : State) (d : Die) (e : Fin 2) (k : Fin 8), s.chip.crlState d e k < 2 → NoEffect (.advertTimer d e k) s) ∧
  (∀ (s : State) (d : Die) (e : Fin 2) (w0 w1 : W36) (crc : BitVec 8), crc ≠ advertCrc w0 w1 →
    NoEffect (.advert d e w0 w1 crc) s) ∧
  (∀ (s : State) (d : Die) (e : Fin 2) (w0 w1 : W36), s.chip.linked d = true → s.chip.dieInReset (peerDie d e) = false →
    let k := bits w1 15 3
    let p := min (min (s.chip.crlSide d e k).cap (bits w1 5 2))
      (min (s.chip.fld d (F.CRL_BUNDLE_STATUS_FLOOR e k)) (bits w1 7 2))
    s.chip.crlState d e k = Crl.negotiate → bit w1 21 = false →
    bits w1 13 2 ≤ s.chip.fld d (F.CRL_BUNDLE_STATUS_ATTEMPT e k) → bits w1 5 2 ≠ 3 → bits w1 7 2 ≠ 3 →
    p ≠ 0 → bits w1 9 2 = p → bits w1 11 2 = p → p ≠ 3 → 1 ≤ (s.chip.crlSide d e k).agreeing →
    Done (.advert d e w0 w1 (advertCrc w0 w1)) s (fun c =>
      c.crlState d e k = Crl.align ∧ c.crlWidth d e k = p ∧ c.log = s.chip.log)) ∧
  (∀ (s : State) (d : Die) (e : Fin 2) (w0 w1 : W36), s.chip.linked d = true → s.chip.dieInReset (peerDie d e) = false →
    let k := bits w1 15 3
    s.chip.crlState d e k = Crl.align → (s.chip.crlSide d e k).alignOk = true → bit w1 18 = true → bit w1 21 = false →
    bits w1 13 2 ≤ s.chip.fld d (F.CRL_BUNDLE_STATUS_ATTEMPT e k) → bits w1 5 2 ≠ 3 → bits w1 7 2 ≠ 3 → bits w1 9 2 ≠ 3 →
    bits w1 11 2 ≠ 3 → Done (.advert d e w0 w1 (advertCrc w0 w1)) s (fun c =>
      c.crlState d e k = Crl.active ∧ c.bundleLive d e k = true ∧ c.crlWidth d e k = s.chip.crlWidth d e k)) ∧
  (∀ (s : State) (d : Die) (e : Fin 2) (w0 w1 : W36), s.chip.linked d = true → s.chip.dieInReset (peerDie d e) = false →
    let k := bits w1 15 3
    s.chip.crlState d e k = Crl.active → bit w1 21 = false → bits w1 5 2 ≠ 3 → bits w1 7 2 ≠ 3 → bits w1 9 2 ≠ 3 →
    bits w1 11 2 ≠ 3 → (bits w1 9 2 ≠ s.chip.crlWidth d e k ∨ bits w1 11 2 ≠ s.chip.crlWidth d e k ∨ bit w1 19 = true) →
    Done (.advert d e w0 w1 (advertCrc w0 w1)) s (fun c =>
      c.crlState d e k = Crl.pattern ∧ c.fld d (F.CRL_BUNDLE_STATUS_ATTEMPT e k) = 1 ∧ c.bundleLive d e k = false ∧
      (c.crlSide d e k).wire = [])) ∧
  (∀ (s : State) (d : Die) (e : Fin 2) (w0 w1 : W36), s.chip.linked d = true → s.chip.dieInReset (peerDie d e) = false →
    let k := bits w1 15 3
    1 ≤ s.chip.crlState d e k → s.chip.crlState d e k ≤ 4 → (s.chip.crlSide d e k).askedAt = none → bit w1 21 = true →
    bits w1 5 2 ≠ 3 → bits w1 7 2 ≠ 3 → bits w1 9 2 ≠ 3 → bits w1 11 2 ≠ 3 →
    Done (.advert d e w0 w1 (advertCrc w0 w1)) s (fun c =>
      c.crlState d e k = Crl.fenced ∧ c.fld d (F.CRL_BUNDLE_STATUS_LAST_FAIL e k) = bits w1 22 3 ∧
      (bits w1 22 3 = 5 → c.log = s.chip.log) ∧
      (bits w1 22 3 = 2 → Logged s.chip c d Ev.crlWidthDisagree (e + 2 * k))))

/-- A frame that reaches an ACTIVE bundle is unpacked whatever its CRC and FCOUNT; a bad one is counted, and the ERR_LIMITth of
one window starts a retrain (R232 to R234, R243). A side that is not ACTIVE takes none. Writes of CRL_BUNDLE_CTRL act on the
first of FENCE, REWIDEN and RETRAIN they set; while the other side is in reset they set only this side's fields; and a die
learns by notices of edges that are not its own, and whether the other sides of its own bundles are ACTIVE, and relays them (R224,
R238, R239, R243, R244, R678; log 206). -/
def Obligations.BundleFramesAndControls : Prop :=
  ((∀ (s : State) (d : Die) (e : Fin 2) (k : Fin 8) (frame : BitVec 760), s.chip.linked d = true →
      s.chip.crlState d e k = Crl.active → bits frame 752 8 = frameCrc frame →
      bits frame 748 4 = (s.chip.crlSide d e k).rxCount →
      Done (.crelinkFrame d e k frame) s (fun c =>
        c.flights = s.chip.flights ++ ((List.range 3).filter (fun i => frame.getLsbD (744 + i))).map (fun i =>
          { flit := (frameSlot frame i).1, router := (bundleRouter d e k).1, inPort := (bundleRouter d e k).2,
            age := (frameSlot frame i).2 }) ∧
        (c.crlSide d e k).rxCount = (bits frame 748 4 + 1) % 16 ∧ c.regs = s.chip.regs ∧
        c = { s.chip with flights := c.flights, crl := c.crl, pmc := c.pmc })) ∧
    (∀ (s : State) (d : Die) (e : Fin 2) (k : Fin 8) (frame : BitVec 760), s.chip.linked d = true →
      s.chip.crlState d e k = Crl.active →
      (bits frame 752 8 ≠ frameCrc frame ∨ bits frame 748 4 ≠ (s.chip.crlSide d e k).rxCount) →
      Done (.crelinkFrame d e k frame) s (fun c =>
        c.fld d (F.CRL_ERR_CRC_ERRORS e k) = min (s.chip.fld d (F.CRL_ERR_CRC_ERRORS e k) + 1) (2 ^ 24 - 1) ∧
        (s.chip.fld d F.CRL_CFG_ERR_LIMIT = 0 → c.crlState d e k = Crl.active ∧ c.log = s.chip.log ∧
          c.flights = s.chip.flights ++ ((List.range 3).filter (fun i => frame.getLsbD (744 + i))).map (fun i =>
            { flit := (frameSlot frame i).1, router := (bundleRouter d e k).1, inPort := (bundleRouter d e k).2,
              age := (frameSlot frame i).2 })) ∧
        (s.chip.fld d F.CRL_CFG_ERR_LIMIT = 1 → c.crlState d e k = Crl.pattern ∧
          (∀ f ∈ c.flights, ¬ (f.router = (bundleRouter d e k).1 ∧ f.inPort = (bundleRouter d e k).2)) ∧
          c.fld d (F.CRL_ERR_RETRAINS e k) = min (s.chip.fld d (F.CRL_ERR_RETRAINS e k) + 1) (2 ^ 12 - 1) ∧
          Logged s.chip c d Ev.crlErrRetrain (e + 2 * k)))) ∧
    (∀ (s : State) (d : Die) (e : Fin 2) (k : Fin 8) (frame : BitVec 760), s.chip.crlState d e k ≠ Crl.active →
      NoEffect (.crelinkFrame d e k frame) s)) ∧
  ((∀ (s : State) (d : Die) (e : Fin 2) (k : Fin 8) (v : W36), s.chip.linked d = true →
      s.chip.peerRst d e = false → Done (.fence d e k v) s (fun c =>
      c.crlState d e k = Crl.fenced ∧ c.fld d (F.CRL_BUNDLE_STATUS_LAST_FAIL e k) = 5 ∧ c.bundleLive d e k = false ∧
      c.flag d (F.CRL_BUNDLE_STATUS_FENCE_SEEN e k) = true ∧
      (∃ w0 w1 : W36, (c.crlSide d e k).advert = some (w0, w1, advertCrc w0 w1) ∧ bit w1 21 = true ∧ bits w1 22 3 = 5) ∧
      c = { s.chip with regs := c.regs, crl := c.crl, live := c.live, flights := c.flights, notices := c.notices })) ∧
    (∀ (s : State) (d : Die) (e : Fin 2) (k : Fin 8) (v : W36), s.chip.linked d = true →
      s.chip.peerRst d e = true → Done (.fence d e k v) s (fun c =>
      c.fld d (F.CRL_BUNDLE_STATUS_LAST_FAIL e k) = 5 ∧ c.crlState d e k = s.chip.crlState d e k ∧ OnlyRegs s.chip c ∧
      RegsBut (OneReg d (Reg.CRL_BUNDLE_STATUS e k)) s.chip c)) ∧
    (∀ (s : State) (d : Die) (e : Fin 2) (k : Fin 8) (v : W36), s.chip.linked d = true → bit v 2 = false →
      s.chip.peerRst d e = false → 4 ≤ s.chip.crlState d e k → s.chip.crlState d e k ≤ 5 →
      Done (.rewiden d e k v) s (fun c =>
      c.crlState d e k = Crl.pattern ∧ c.fld d (F.CRL_BUNDLE_STATUS_FLOOR e k) = 2 ∧
      c.fld d (F.CRL_BUNDLE_STATUS_ATTEMPT e k) = 1 ∧
      (∃ w0 w1 : W36, (c.crlSide d e k).advert = some (w0, w1, advertCrc w0 w1) ∧ bit w1 20 = true) ∧
      c = { s.chip with regs := c.regs, crl := c.crl, live := c.live, flights := c.flights, notices := c.notices })) ∧
    (∀ (s : State) (d : Die) (e : Fin 2) (k : Fin 8) (v : W36), s.chip.linked d = true → bit v 2 = false → bit v 1 = false →
      s.chip.peerRst d e = false → 4 ≤ s.chip.crlState d e k → s.chip.crlState d e k ≤ 5 →
      Done (.retrain d e k v) s (fun c =>
      c.crlState d e k = Crl.pattern ∧ c.fld d (F.CRL_BUNDLE_STATUS_ATTEMPT e k) = 1 ∧
      c.fld d (F.CRL_ERR_RETRAINS e k) = (if s.chip.crlState d e k = Crl.active then
        min (s.chip.fld d (F.CRL_ERR_RETRAINS e k) + 1) (2 ^ 12 - 1) else s.chip.fld d (F.CRL_ERR_RETRAINS e k)) ∧
      (∃ w0 w1 : W36, (c.crlSide d e k).advert = some (w0, w1, advertCrc w0 w1) ∧ bit w1 19 = true) ∧
      c = { s.chip with regs := c.regs, crl := c.crl, live := c.live, flights := c.flights, notices := c.notices, pmc := c.pmc })) ∧
    (∀ (s : State) (d src : Die) (e : Fin 2) (edge : Fin 4) (k : Fin 8) (live : Bool), s.chip.linked d = true →
      s.chip.dieInReset (peerDie d e) = false →
      Done (.fenceNotice ⟨d, e, src⟩ edge k live) s (fun c =>
        (edge.val ≠ edgeOf d 0 → edge.val ≠ edgeOf d 1 →
          bits (c.live.get d) (8 * edge + k) 1 = ofBool live ∧ (live = true → c.edgeFenced d edge = false) ∧ c.crl = s.chip.crl) ∧
        (∀ a : Fin 2, edge.val = edgeOf d a → src ≠ d → c.bundleOpen d a k = (s.chip.bundleLive d a k && live) ∧
          bits (c.live.get d) (8 * edge + k) 1 = ofBool (s.chip.bundleLive d a k && live)) ∧
        (∀ a : Fin 2, edge.val = edgeOf d a → src = d → c = { s.chip with notices := c.notices }) ∧
        (src ≠ d → peerDie d (1 - e.val) ≠ src.val → c.notices.get (2 * d.val + (1 - e.val)) =
          s.chip.notices.get (2 * d.val + (1 - e.val)) ++ [{ src := src, edge := edge, bundle := k, live := live }]) ∧
        SameBut d s.chip.live c.live ∧ RegsBut (OneReg d Reg.NOC_EDGE) s.chip c ∧
        c = { s.chip with regs := c.regs, live := c.live, crl := c.crl, notices := c.notices })))

/-! ### SECURE_HALT, the security engine, reset of a die (R524, R600 to R605, R643 to R647) -/

/-- A HALT wire that is high takes a live part into SECURE_HALT: every die shows it, no key is left, no load, update, command or
debug session goes on, the unlock ends, HALT is driven; the fuses stay. In SECURE_HALT, at a die in reset or without power, and in SELFTEST, which masks it, it changes nothing
(R230, R231, R524). -/
def Obligations.HaltInputHalts : Prop :=
  (∀ (s : State) (d : Die), s.chip.linked d = true → s.chip.dev ≠ .secureHalt → s.chip.dev ≠ .selftest → Done (.haltInput d) s (fun c =>
    c.dev = .secureHalt ∧ c.haltOut = ~~~s.chip.inReset ∧
    (∀ e : Die, c.fld e F.CFG_STATUS_DEV_STATE = 8 ∧ c.flag e F.CFG_STATUS_DONE_OUT = false ∧ (c.tap e).attached = 0) ∧
    (∀ p : Fin 5, (c.cmd p).running = none ∧ (c.cmd p).buffered = none) ∧ c.loads = [] ∧ c.updates = [] ∧
    (∀ (e : Die) (k : Fin 2), (c.ddrChan e k).keys = none ∧ (c.ddrChan e k).oldKeys = none) ∧
    (∀ (e : Die) (k : Fin 4), (c.link e k).active = none ∧ (c.link e k).pending = none ∧
      c.flag e (F.KRN_LINK_STATUS_KEY_OK k) = false) ∧
    c.sec.unlocked = false ∧ c.sec.auth = s.chip.fusedAuth ∧ c.fuses = s.chip.fuses)) ∧
  (∀ (s : State) (d : Die), s.chip.linked d = false ∨ s.chip.dev = .secureHalt ∨ s.chip.dev = .selftest → NoEffect (.haltInput d) s)

/-- Debug unlock: a challenge replaces the nonce and returns it; an unlock uses it up, and makes JTAG an OWNER or counts a failure;
eight failures lock out; refused at OPEN, SEALED and LOCKOUT; DEBUG_LOCK ends the unlock and every session; the nonce ends after
60 s (R600 to R604). -/
def Obligations.DebugUnlocking : Prop :=
  (∀ (s : State) (p : Fin 5) (h : W36) (ws : List W36), Accepts s.chip p 0x180 h ws → s.chip.dieInReset (cmdDie h) = false →
    (s.chip.unlockBarred = false → Done (.debugChallenge p) s (fun c => ∃ x : BitVec 256,
      c.sec = { s.chip.sec with nonce := some x } ∧ Replied c p h St.ok (nonceWords x) ∧
      OnlyPort p { s.chip with sec := c.sec, free := c.free } c)) ∧
    (s.chip.unlockBarred = true → Done (.debugChallenge p) s (fun c =>
      Replied c p h St.refused [word (bits (s.chip.secStatus (cmdDie h)) 0 16)] ∧ OnlyPort p s.chip c))) ∧
  (∀ (s : State) (p : Fin 5) (h : W36) (ws : List W36), Accepts s.chip p 0x181 h ws → s.chip.dieInReset (cmdDie h) = false →
    (∀ x, s.chip.unlockBarred = false → s.chip.sec.nonce = some x → s.chip.unlockGood x ws = true →
      Done (.debugUnlock p) s (fun c =>
        c.sec.nonce = none ∧ c.sec.unlocked = true ∧ c.sec.fails = s.chip.sec.fails ∧ c.portAuth Port.jtag = 3 ∧
        (∀ q : Fin 5, q.val ≠ Port.jtag → c.portAuth q = s.chip.portAuth q) ∧ Replied c p h St.ok [] ∧
        OnlyPort p { s.chip with sec := c.sec } c)) ∧
    (∀ x, s.chip.unlockBarred = false → s.chip.sec.nonce = some x → s.chip.unlockGood x ws = false →
      Done (.debugUnlock p) s (fun c =>
        c.sec = { s.chip.sec with nonce := none, fails := s.chip.sec.fails + 1 } ∧
        (s.chip.sec.fails = 7 → c.unlockBarred = true) ∧ Replied c p h St.integrity [] ∧
        OnlyPort p { s.chip with sec := c.sec } c)) ∧
    (s.chip.unlockBarred = true ∨ s.chip.sec.nonce = none → Done (.debugUnlock p) s (fun c =>
      Replied c p h St.refused [word (bits (s.chip.secStatus (cmdDie h)) 0 16)] ∧ OnlyPort p s.chip c))) ∧
  (∀ (s : State) (p : Fin 5) (h : W36) (ws : List W36), Accepts s.chip p 0x182 h ws → s.chip.dieInReset (cmdDie h) = false →
    Done (.debugLock p) s (fun c => c.sec.unlocked = false ∧ c.sec.auth = s.chip.fusedAuth ∧
      (∀ e : Die, (c.tap e).attached = 0 ∧ (c.tap e).busy = none) ∧ Replied c p h St.ok [])) ∧
  (∀ s : State, Done .nonceExpire s (fun c => c = { s.chip with sec := { s.chip.sec with nonce := none } }))

/-- The commands that blow fuses, in the cases in which they do: LIFECYCLE_ADVANCE, OWNER_KEY_SET, EPOCH_ADVANCE; in every other case
each answers REFUSED or PARAM and blows nothing (R595, R599, R604, R605). -/
def Obligations.FuseCommands : Prop :=
  (∀ (s : State) (p : Fin 5) (h w : W36), Accepts s.chip p 0x183 h [w] → s.chip.dieInReset (cmdDie h) = false →
    (lifecycleParam w = false → Done (.lifecycleAdvance p) s (fun c => Replied c p h St.param [] ∧ OnlyPort p s.chip c)) ∧
    (lifecycleParam w = true →
      (bits w 0 2 ≤ s.chip.sec.level ∨ bits w 0 2 ≤ s.chip.fuses.nextLevel ∨ s.chip.fuses.ownerHash = 0) →
      Done (.lifecycleAdvance p) s (fun c =>
        Replied c p h St.refused [word (bits (s.chip.secStatus (cmdDie h)) 0 16)] ∧ OnlyPort p s.chip c)) ∧
    (lifecycleParam w = true → s.chip.sec.level < bits w 0 2 → s.chip.fuses.nextLevel < bits w 0 2 →
      s.chip.fuses.ownerHash ≠ 0 → Done (.lifecycleAdvance p) s (fun c =>
        c.fuses = { s.chip.fuses with
          nextLevel := bits w 0 2
          authLocked := s.chip.fuses.authLocked ||| (if bits w 0 2 = 1 then BitVec.ofNat 10 (bits w 2 10) else 0)
          authSealed := s.chip.fuses.authSealed ||| (if bits w 0 2 = 2 then BitVec.ofNat 10 (bits w 2 10) else 0) } ∧
        Replied c p h St.ok [] ∧ OnlyPort p { s.chip with fuses := c.fuses } c))) ∧
  (∀ (s : State) (p : Fin 5) (h : W36) (ws : List W36), Accepts s.chip p 0x184 h ws → s.chip.dieInReset (cmdDie h) = false →
    let key := BitVec.ofNat 256 (wideWords ((ws.drop 12).take 8))
    (key = 0 → Done (.ownerKeySet p) s (fun c => Replied c p h St.param [] ∧ OnlyPort p s.chip c)) ∧
    (key ≠ 0 → s.chip.sec.level = 0 → s.chip.fuses.ownerHash = 0 → Done (.ownerKeySet p) s (fun c =>
      c.fuses = { s.chip.fuses with
        ownerHash := BitVec.ofNat 384 (wideWords (ws.take 12)), deviceKey := s.chip.fuses.deviceKey ||| key } ∧
      Replied c p h St.ok [] ∧ OnlyPort p { s.chip with fuses := c.fuses } c)) ∧
    (key ≠ 0 → s.chip.sec.level ≠ 0 ∨ s.chip.fuses.ownerHash ≠ 0 → Done (.ownerKeySet p) s (fun c =>
      Replied c p h St.refused [word (bits (s.chip.secStatus (cmdDie h)) 0 16)] ∧ OnlyPort p s.chip c))) ∧
  (∀ (s : State) (p : Fin 5) (h w : W36), Accepts s.chip p 0x185 h [w] → s.chip.dieInReset (cmdDie h) = false →
    (64 < bits w 0 7 → Done (.epochAdvance p) s (fun c => Replied c p h St.param [] ∧ OnlyPort p s.chip c)) ∧
    (bits w 0 7 ≤ 64 → s.chip.fuses.epoch < bits w 0 7 →
      (s.chip.dev = .user → bits w 0 7 ≤ s.chip.fld (cmdDie h) F.SEC_STATUS_IMAGE_EPOCH) →
      Done (.epochAdvance p) s (fun c => c.fuses = { s.chip.fuses with epoch := bits w 0 7 } ∧
        Replied c p h St.ok [] ∧ OnlyPort p { s.chip with fuses := c.fuses } c)) ∧
    (bits w 0 7 ≤ 64 → (bits w 0 7 ≤ s.chip.fuses.epoch ∨
        (s.chip.dev = .user ∧ s.chip.fld (cmdDie h) F.SEC_STATUS_IMAGE_EPOCH < bits w 0 7)) →
      Done (.epochAdvance p) s (fun c =>
        Replied c p h St.refused [word (bits (s.chip.secStatus (cmdDie h)) 0 16)] ∧ OnlyPort p s.chip c)))

/-- No fuse is ever cleared: over every command that blows fuses and every one that begins POR or ends its sequence, a blown bit
stays blown, and LEVEL, NEXT_LEVEL and the epoch only rise; the owner's hash is written once (R595, R604, R605). -/
def Obligations.FusesOnlyGrow : Prop :=
  ∀ (i : Instr) (s t : State),
    ((∃ p, i = .lifecycleAdvance p ∨ i = .ownerKeySet p ∨ i = .epochAdvance p ∨ i = .debugUnlock p ∨ i = .debugChallenge p) ∨
      i = .porSequenceComplete ∨ i = .porstNLow ∨ i = .deviceResetStart ∨ (∃ d r, i = .supplyFall d r) ∨
      (∃ b, i = .suppliesValid b) ∨ (∃ m, i = .porstNHigh m)) →
    exec i s = .next t →
    let a := s.chip.fuses
    let b := t.chip.fuses
    a.level ≤ b.level ∧ a.nextLevel ≤ b.nextLevel ∧ a.epoch ≤ b.epoch ∧ a.uid = b.uid ∧
    a.deviceKey &&& b.deviceKey = a.deviceKey ∧ a.authLocked &&& b.authLocked = a.authLocked ∧
    a.authSealed &&& b.authSealed = a.authSealed ∧ (a.ownerHash ≠ 0 → b.ownerHash = a.ownerHash)

/-- The reset of one die and its return: the die enters reset where one is due, with its regions EMPTY, its cores as at power-on,
its bundles in RESET_WAIT and every register at its Reset column but those R645 and log 90 keep; the others stay out of it; it
returns by itself, into SECURE_HALT where the device halted meanwhile (R643 to R645, R647). -/
def Obligations.DieResetAndReturn : Prop :=
  (∀ (s : State) (d : Die), s.chip.resetDue.getLsbD d = true → s.chip.runs d = true → Done (.dieResetStart d) s (fun c =>
    c.dieInReset d = true ∧ (∀ e : Die, e ≠ d → c.dieInReset e = s.chip.dieInReset e) ∧ c.resetDue.getLsbD d = false ∧
    (∀ r : Fin 16, c.regionState d r = Rgn.empty) ∧ (∀ n : Fin 64, c.core d n = default) ∧
    (∀ (e : Fin 2) (k : Fin 8), c.crlState d e k = Crl.resetWait) ∧
    (∀ off, off < 2 ^ 23 → off ∉ keptRegs d → off ≠ Reg.NOC_EDGE → ¬ (0x090000 ≤ off ∧ off < 0x090010) →
      c.reg d off = resetWord off) ∧
    c.fuses = s.chip.fuses)) ∧
  (∀ (s : State) (d : Die), (s.chip.resetDue.getLsbD d = false ∨ s.chip.runs d = false) → NoEffect (.dieResetStart d) s) ∧
  (∀ (s : State) (d : Die), s.chip.dieInReset d = true → s.chip.alive = true → s.chip.dev ≠ .secureHalt →
    Done (.dieResetReturn d) s (fun c => c.dieInReset d = false ∧ (∀ e : Die, e ≠ d → c.dieInReset e = s.chip.dieInReset e) ∧
      c.fuses = s.chip.fuses)) ∧
  (∀ (s : State) (d : Die), s.chip.dieInReset d = true → s.chip.dev = .secureHalt → Done (.dieResetReturn d) s (fun c =>
    c.dev = .secureHalt ∧ c.haltOut = s.chip.haltOut ||| BitVec.ofNat 4 (2 ^ d.val) ∧ c.flag d F.CFG_STATUS_DONE_OUT = false ∧
    (∀ k : Fin 2, (c.ddrChan d k).keys = none ∧ (c.ddrChan d k).oldKeys = none) ∧
    (∀ k : Fin 4, (c.link d k).active = none ∧ (c.link d k).pending = none) ∧ c.fuses = s.chip.fuses ∧
    c.dieInReset d = false ∧ (∀ e : Die, e ≠ d → c.dieInReset e = s.chip.dieInReset e))) ∧
  (∀ (s : State) (d : Die), s.chip.dieInReset d = false → NoEffect (.dieResetReturn d) s)

/-! ### Command ports and the commands that report (R561 to R591, R671) -/

/-- A port that takes words, holds no packet and no part of one, and whose reply has been overtaken. -/
def idlePort (s : Chip) (p : Nat) : Prop :=
  s.portTakes p = true ∧ (s.cmd p).partWords = [] ∧ (s.cmd p).buffered = none ∧ (s.cmd p).running = none ∧ (s.cmd p).reply = none

/-- A packet whose opcode some command carries out later: of the catalogue, no link message and no vendor test. -/
def plainOp (h : W36) : Prop := (opStates (cmdOp h)).isSome = true ∧ linkOp (cmdOp h) = false ∧ vendorOp (cmdOp h) = false

/-- Between a and c the packet h :: ws has started at port p. -/
def started (a c : Chip) (p : Nat) (h : W36) (ws : List W36) : Prop :=
  c.cmd p = { a.cmd p with
    partWords := [], buffered := none, bufferedFrom := none, running := some (h :: ws), runningFrom := none
    begun := false, reply := none, readPos := 0, unread := false, repeatMark := false } ∧
  (∀ q, q ≠ p → c.cmds.get q = a.cmds.get q) ∧ c = { a with cmds := c.cmds }

/-- The transports bring packets to an idle port: SVC by CMD_WRITE, CON by a line, the mailbox of the lead die by DRN_CMD; part
of a packet waits for the rest; an opcode outside the catalogue is answered UNKNOWN_OP at once, a packet at a CLOSED FAB AUTH; a port that is absent or CLOSED
takes nothing otherwise
(R564, R566, R568, R570, R571, R573, R575). Reading replies: REPLY_READ and DRN_REPLY return the header and then the words of
the reply held, a BUSY header before it is ready; FLAGS_READ shows the reply, room for a packet and SAFE_TALK or SECURE_HALT
(R566, R570, R576). -/
def Obligations.PacketsArriveRepliesAreRead : Prop :=
  ((∀ (s : State) (h : W36) (ws : List W36) (cut : List (BitVec 8)), idlePort s.chip Port.svc → ws.length = cmdLen h → plainOp h →
      Done (.cmdWrite ⟨h :: ws, cut⟩) s (fun c => started s.chip c Port.svc h ws)) ∧
    (∀ (s : State) (h : W36) (ws : List W36) (cut : List (BitVec 8)), idlePort s.chip Port.svc → ws.length < cmdLen h →
      Done (.cmdWrite ⟨h :: ws, cut⟩) s (fun c =>
        c.cmd Port.svc = { s.chip.cmd Port.svc with partWords := h :: ws } ∧ OnlyPort Port.svc s.chip c)) ∧
    (∀ (s : State) (h : W36) (cut : List (BitVec 8)), idlePort s.chip Port.svc → cmdLen h = 0 → opStates (cmdOp h) = none → vendorOp (cmdOp h) = false →
      Done (.cmdWrite ⟨[h], cut⟩) s (fun c => Replied c Port.svc h St.unknownOp [] ∧ OnlyPort Port.svc s.chip c)) ∧
    (∀ (s : State) (ws : List W36) (cut : List (BitVec 8)), s.chip.portTakes Port.svc = false → NoEffect (.cmdWrite ⟨ws, cut⟩) s) ∧
    (∀ (s : State) (chars : List (BitVec 8)) (h : W36) (ws : List W36), idlePort s.chip Port.con → lineWords chars = some (h :: ws) →
      ws.length = cmdLen h → plainOp h → Done (.conLine chars) s (fun c => started s.chip c Port.con h ws)) ∧
    (∀ (s : State) (chars : List (BitVec 8)), lineWords chars = none → NoEffect (.conLine chars) s) ∧
    (∀ (s : State) (d : Die) (h : W36), idlePort s.chip Port.fab → s.chip.dieInReset d = false → s.chip.lead = d → cmdLen h = 0 →
      plainOp h → Done (.drnCmd d h) s (fun c => started s.chip c Port.fab h [])) ∧
    (∀ (s : State) (d : Die) (h : W36), s.chip.portAnswers Port.fab = true → s.chip.portAuth Port.fab = 0 →
      s.chip.cmd Port.fab = { ackSeq := (s.chip.cmd Port.fab).ackSeq, lastRefused := (s.chip.cmd Port.fab).lastRefused } →
      s.chip.dieInReset d = false → s.chip.lead = d → cmdLen h = 0 → Done (.drnCmd d h) s (fun c =>
        Replied c Port.fab h St.auth [])) ∧
    (∀ (s : State) (d : Die) (v : W36), s.chip.lead ≠ d → NoEffect (.drnCmd d v) s)) ∧
  ((∀ (s : State) (n : Nat) (r : List W36), s.chip.portTakes Port.svc = true → (s.chip.cmd Port.svc).reply = some r →
      (s.chip.cmd Port.svc).repeatMark = false → 1 ≤ n → n ≤ r.length → Done (.replyRead n) s (fun c =>
        c.returned = r.take n ∧ (c.cmd Port.svc).unread = false ∧ (c.cmd Port.svc).reply = some r ∧
        OnlyPort Port.svc s.chip c)) ∧
    (∀ (s : State) (h : W36) (ws : List W36), s.chip.portTakes Port.svc = true → (s.chip.cmd Port.svc).reply = none →
      (s.chip.cmd Port.svc).running = some (h :: ws) → Done (.replyRead 1) s (fun c =>
        c.returned = [word (St.busy * 2 ^ 28 + cmdTag h * 2 ^ 12 + cmdDie h)] ∧ OnlyPort Port.svc s.chip c)) ∧
    (∀ s : State, Done .flagsRead s (fun c => c = { s.chip with returned := c.returned } ∧
      (s.chip.portTakes Port.svc = false → c.returned = []) ∧
      (s.chip.portTakes Port.svc = true → ∃ w, c.returned = [w] ∧ bit w 0 = (s.chip.cmd Port.svc).reply.isSome ∧
        bit w 1 = s.chip.unreadSevere Port.svc ∧ bit w 2 = (s.chip.cmd Port.svc).buffered.isNone ∧
        bit w 3 = (s.chip.dev == .safeTalk || s.chip.dev == .secureHalt) ∧ bits w 4 32 = 0))) ∧
    (∀ (s : State) (d : Die) (r : List W36), s.chip.alive = true → s.chip.dieInReset d = false → s.chip.lead = d →
      (s.chip.cmd Port.fab).reply = some r → (s.chip.cmd Port.fab).repeatMark = false →
      (s.chip.cmd Port.fab).readPos + 1 < r.length → Done (.drnReply d) s (fun c =>
        c.returned = [r.getD (s.chip.cmd Port.fab).readPos 0] ∧
        (c.cmd Port.fab).readPos = (s.chip.cmd Port.fab).readPos + 1 ∧ (c.cmd Port.fab).reply = some r ∧
        OnlyPort Port.fab s.chip c)))

/-- Commands that only report reply with what they report and change nothing else: STATUS, SELFTEST_REPORT, EVENT_READ, HEALTH_READ,
POSITION_READ (R161, R580, R582, R671). -/
def Obligations.ReportCommands : Prop :=
  (∀ (s : State) (p : Fin 5) (h : W36) (ws : List W36), Accepts s.chip p 0x001 h ws → s.chip.dieInReset (cmdDie h) = false →
    Done (.status p) s (fun c => Replied c p h St.ok (s.chip.statusWords p) ∧ OnlyPort p s.chip c)) ∧
  (∀ (s : State) (p : Fin 5) (h : W36) (ws : List W36), Accepts s.chip p 0x002 h ws → s.chip.dieInReset (cmdDie h) = false →
    Done (.selftestReport p) s (fun c => Replied c p h St.ok s.chip.selftestWords ∧ OnlyPort p s.chip c)) ∧
  (∀ (s : State) (p : Fin 5) (h w : W36), Accepts s.chip p 0x003 h [w] → s.chip.dieInReset (cmdDie h) = false →
    (1 ≤ bits w 20 7 ∧ bits w 20 7 ≤ 84 → Done (.eventRead p) s (fun c =>
      Replied c p h St.ok (s.chip.eventWords (cmdDie h) (bits w 0 20) (bits w 20 7)) ∧ OnlyPort p s.chip c)) ∧
    (bits w 20 7 = 0 ∨ 84 < bits w 20 7 → Done (.eventRead p) s (fun c =>
      Replied c p h St.param [] ∧ OnlyPort p s.chip c))) ∧
  (∀ (s : State) (p : Fin 5) (h : W36) (ws : List W36), Accepts s.chip p 0x008 h ws → s.chip.dieInReset (cmdDie h) = false →
    Done (.healthRead p) s (fun c => Replied c p h St.ok (s.chip.reg (cmdDie h) Reg.HMN_TEMP ::
      (List.range 7).map (fun r => s.chip.reg (cmdDie h) (Reg.HMN_RAIL r)) ++ [s.chip.reg (cmdDie h) Reg.HMN_STATUS]) ∧
      OnlyPort p s.chip c)) ∧
  (∀ (s : State) (p : Fin 5) (h : W36) (ws : List W36), Accepts s.chip p 0x281 h ws → s.chip.dieInReset (cmdDie h) = false →
    Done (.positionRead p) s (fun c => Replied c p h St.ok ((List.range 2).flatMap (fun ch =>
      [word (s.chip.chnPos (cmdDie h) ch), word (s.chip.chnPos (cmdDie h) ch / 2 ^ 36),
       s.chip.chnView (cmdDie h) (Reg.CHN_CH_STATUS ch)])) ∧ OnlyPort p s.chip c))

/-- EVENT_ACK: an unread entry and those before it count as read by this port; an entry older than the log and no older than half the
numbers apart is PARAM (R671). RESET: accepted for the device, and for one die unless no die would be left (R580, R643). A Drone's
restart ends what it carries out with TIMEOUT (R579). -/
def Obligations.AckResetRestart : Prop :=
  (∀ (s : State) (p : Fin 5) (h w : W36), Accepts s.chip p 0x004 h [w] → s.chip.dieInReset (cmdDie h) = false →
    s.chip.logBack (cmdDie h) (bits w 0 20) < s.chip.unreadBy p (cmdDie h) → Done (.eventAck p) s (fun c =>
      (c.cmd p).ackSeq.get (cmdDie h) = bits w 0 20 ∧ c.unreadBy p (cmdDie h) = s.chip.logBack (cmdDie h) (bits w 0 20) ∧
      Replied c p h St.ok [] ∧ OnlyPort p s.chip c)) ∧
  (∀ (s : State) (p : Fin 5) (h w : W36), Accepts s.chip p 0x005 h [w] → s.chip.dieInReset (cmdDie h) = false →
    bit w 0 = false → Done (.reset p) s (fun c => c.cfg = { s.chip.cfg with resetPending := true } ∧ Replied c p h St.ok [] ∧
      OnlyPort p { s.chip with cfg := c.cfg } c)) ∧
  (∀ (s : State) (p : Fin 5) (h w : W36), Accepts s.chip p 0x005 h [w] → s.chip.dieInReset (cmdDie h) = false →
    bit w 0 = true → s.chip.dev = .user ∨ s.chip.dev = .releasing →
    (∀ e : Die, e.val ≠ cmdDie h → s.chip.dieInReset e = true ∨ s.chip.resetDue.getLsbD e = true) →
    Done (.reset p) s (fun c => Replied c p h St.refused [] ∧ OnlyPort p s.chip c)) ∧
  (∀ (s : State) (p : Fin 5) (h w : W36) (e : Die), Accepts s.chip p 0x005 h [w] → s.chip.dieInReset (cmdDie h) = false →
    bit w 0 = true → s.chip.dev = .user ∨ s.chip.dev = .releasing →
    e.val ≠ cmdDie h → s.chip.dieInReset e = false → s.chip.resetDue.getLsbD e = false →
    Done (.reset p) s (fun c => c.resetDue = s.chip.resetDue ||| BitVec.ofNat 4 (2 ^ cmdDie h) ∧ Replied c p h St.ok [] ∧
      OnlyPort p { s.chip with resetDue := c.resetDue } c)) ∧
  (∀ (s : State) (d : Die) (p : Fin 5) (h : W36) (ws : List W36), s.chip.alive = true → s.chip.dieInReset d = false →
    s.chip.updates = [] → (s.chip.cmd p).running = some (h :: ws) → (s.chip.cmd p).runningFrom = none →
    (s.chip.cmd p).buffered = none → cmdDie h = d → Done (.drnRestart d) s (fun c =>
      Replied c p h St.timeout [] ∧ c.fld d F.DRN_LOG_STATUS_NEWEST = (s.chip.fld d F.DRN_LOG_STATUS_NEWEST + 1) % 2 ^ 20 ∧
      c.dev = s.chip.dev))

/-- The time service: TIME_SERVICE takes the mode and the gains, and a mode of 3 is PARAM; the first sample under MODE 1 only sets the
moment; one beyond STEP_THR steps device time and is logged; TIME_SAMPLE without the service is STATE (R591). -/
def Obligations.TimeService : Prop :=
  (∀ (s : State) (p : Fin 5) (h w : W36), Accepts s.chip p 0x009 h [w] → s.chip.dieInReset (cmdDie h) = false →
    (bits w 0 2 ≠ 3 → Done (.timeService p) s (fun c =>
      c.timeSvc = { s.chip.timeSvc with
        mode := bits w 0 2, kp := bits w 2 5, ki := bits w 7 5, stepThr := bits w 12 20
        first := bits w 0 2 == 1 || s.chip.timeSvc.first } ∧
      Replied c p h St.ok [] ∧ OnlyPort p { s.chip with timeSvc := c.timeSvc } c)) ∧
    (bits w 0 2 = 3 → Done (.timeService p) s (fun c => Replied c p h St.param [] ∧ OnlyPort p s.chip c))) ∧
  (∀ (s : State) (p : Fin 5) (h w : W36), Accepts s.chip p 0x00A h [w] → s.chip.dieInReset (cmdDie h) = false →
    s.chip.timeSvc.mode = 1 → s.chip.timeSvc.first = true → (signed 36 w.toNat).natAbs ≤ max 1 s.chip.timeSvc.stepThr * 1000 →
    Done (.timeSample p) s (fun c =>
      c.timeSvc = { s.chip.timeSvc with acc := 0, first := false, lastTime := s.chip.time s.chip.chnAll.master } ∧
      Replied c p h St.ok [] ∧ OnlyPort p { s.chip with timeSvc := c.timeSvc } c)) ∧
  (∀ (s : State) (p : Fin 5) (h w : W36), Accepts s.chip p 0x00A h [w] → s.chip.dieInReset (cmdDie h) = false →
    s.chip.timeSvc.mode = 1 → max 1 s.chip.timeSvc.stepThr * 1000 < (signed 36 w.toNat).natAbs →
    s.chip.chnAll.master < 4 → Done (.timeSample p) s (fun c =>
      c.timeSvc = { s.chip.timeSvc with acc := 0, first := true } ∧
      NewestIs c s.chip.chnAll.master Ev.timeStep w.toNat ∧ Replied c p h St.ok [])) ∧
  (∀ (s : State) (p : Fin 5) (h w : W36), Accepts s.chip p 0x00A h [w] → s.chip.timeSvc.mode ≠ 1 →
    Done (.timeSample p) s (fun c =>
      Replied c p h St.state (s.chip.stateWords 0x00A (some (s.chip.timeSvc.mode, [1]))) ∧ OnlyPort p s.chip c))

/-- Commands on single blocks: REG_READ and REG_WRITE send the packet that the words name through the die's gateway, to be answered
later; POWER_SET starts an entry or answers with the refuser; TOKEN_POST gives a token to the Bellows; RESULT_POP returns the oldest
result or NONE; RANK_RETIRE starts a migration or is refused (R343, R490, R538, R541, R580). -/
def Obligations.BlockCommands : Prop :=
  (∀ (s : State) (p : Fin 5) (h a o : W36), Accepts s.chip p 0x006 h [o, a] → s.chip.dieInReset (cmdDie h) = false →
    2 ≤ s.chip.window (gatewayOf (cmdDie h)) 3 → Done (.regRead p) s (fun c =>
      (c.cmd p).begun = true ∧ (c.cmd p).running = (s.chip.cmd p).running ∧
      (c.port (gatewayOf (cmdDie h)) 3).waiting = (s.chip.port (gatewayOf (cmdDie h)) 3).waiting ++
        [{ dev := bits a 11 11, router := 16 * bits a 7 4 + bits a 3 4, port := bits a 0 3, typ := Typ.regRead
           body := [{ w2 := o }], resp := 1, origin := .drone p }] ∧
      c = { s.chip with cmds := c.cmds, ports := c.ports })) ∧
  (∀ (s : State) (p : Fin 5) (h a o v : W36), Accepts s.chip p 0x007 h [o, a, v] → s.chip.dieInReset (cmdDie h) = false →
    Done (.regWrite p) s (fun c =>
      (c.cmd p).begun = true ∧ (c.cmd p).running = (s.chip.cmd p).running ∧
      (c.port (gatewayOf (cmdDie h)) 3).waiting = (s.chip.port (gatewayOf (cmdDie h)) 3).waiting ++
        [{ dev := bits a 11 11, router := 16 * bits a 7 4 + bits a 3 4, port := bits a 0 3, typ := Typ.regWrite
           body := [{ w2 := o, w3 := v }], origin := .drone p }] ∧
      c = { s.chip with cmds := c.cmds, ports := c.ports })) ∧
  (∀ (s : State) (p : Fin 5) (h w : W36), Accepts s.chip p 0x100 h [w] → s.chip.dieInReset (cmdDie h) = false →
    bits w 0 6 ≤ 46 → bit w 8 = true → bit w 11 = false → 1 ≤ bits w 6 2 → offers (bits w 0 6) (bits w 6 2) = true →
    s.chip.domState (cmdDie h) (bits w 0 6) = 0 → s.chip.domPhase (cmdDie h) (bits w 0 6) = 0 →
    (s.chip.dom (cmdDie h) (bits w 0 6)).queued = false →
    (s.chip.refusers (cmdDie h) (bits w 0 6) (bits w 6 2) = [] → Done (.powerSet p) s (fun c =>
      c.domPhase (cmdDie h) (bits w 0 6) = 1 ∧ (c.dom (cmdDie h) (bits w 0 6)).target = bits w 6 2 ∧
      Replied c p h St.ok [])) ∧
    (∀ x xs, s.chip.refusers (cmdDie h) (bits w 0 6) (bits w 6 2) = x :: xs → Done (.powerSet p) s (fun c =>
      c.domPhase (cmdDie h) (bits w 0 6) = 0 ∧ Replied c p h St.refused [word ((x :: xs).foldl min 15)]))) ∧
  (∀ (s : State) (p : Fin 5) (h : W36) (ws : List W36), Accepts s.chip p 0x200 h ws → s.chip.dieInReset (cmdDie h) = false →
    Done (.tokenPost p) s (fun c => ∃ t : TokenIn,
      t = TokenIn.ofFlit { w0 := word (bits (ws.getD 1 0) 0 10), w2 := ws.getD 0 0, w3 := ws.getD 2 0, w4 := ws.getD 3 0, w5 := ws.getD 4 0 } ∧
      Replied c p h St.ok [] ∧ OnlyPort p (s.chip.tokenArrives (cmdDie h) t) c)) ∧
  (∀ (s : State) (p : Fin 5) (h : W36) (ws : List W36), Accepts s.chip p 0x201 h ws → s.chip.dieInReset (cmdDie h) = false →
    (s.chip.blwQueue.get (cmdDie h) = [] → Done (.resultPop p) s (fun c => Replied c p h St.ok (word (2 ^ 35) ::
      (List.range 3).map (fun i => s.chip.reg (cmdDie h) (Reg.BLW_RESULT_DATA i))) ∧ OnlyPort p s.chip c)) ∧
    (∀ i rest, s.chip.blwQueue.get (cmdDie h) = i :: rest → Done (.resultPop p) s (fun c =>
      c.blwQueue.get (cmdDie h) = rest ∧
      Replied c p h St.ok (i.head :: [i.data.w0, i.data.w1, i.data.w2].zipIdx.map (fun (w, k) => if k < i.data.count then w else 0))))) ∧
  (∀ (s : State) (p : Fin 5) (h w : W36), Accepts s.chip p 0x300 h [w] → s.chip.dieInReset (cmdDie h) = false →
    bits w 1 2 < s.chip.lranks (cmdDie h) (bits w 0 1) →
    (s.chip.flag (cmdDie h) (F.DDR_RANK_MAP_SPARE_FREE (bits w 0 1)) = true →
      s.chip.flag (cmdDie h) (F.DDR_STATUS_MIGRATING (bits w 0 1)) = false → Done (.rankRetire p) s (fun c =>
        c.flag (cmdDie h) (F.DDR_STATUS_MIGRATING (bits w 0 1)) = true ∧
        c.fld (cmdDie h) (F.DDR_MIG_FROM (bits w 0 1)) = s.chip.physRank (cmdDie h) (bits w 0 1) (bits w 1 2) ∧
        Replied c p h St.ok [])) ∧
    (s.chip.flag (cmdDie h) (F.DDR_RANK_MAP_SPARE_FREE (bits w 0 1)) = false → Done (.rankRetire p) s (fun c =>
        c.flag (cmdDie h) (F.DDR_STATUS_MIGRATING (bits w 0 1)) = s.chip.flag (cmdDie h) (F.DDR_STATUS_MIGRATING (bits w 0 1)) ∧
        Replied c p h St.refused [])))

/-! ### Oboe cores: encoding (R278 to R303) -/

/-- Decoding gives back every well-formed instruction from its word: no bit of an encoding is dropped, and none of the words of two
instructions coincide (R278 to R301). -/
def Obligations.OboeDecodeOfEncode : Prop :=
  ∀ i : OInstr, i.wf = true → OInstr.decode i.encode = some i

/-- A few words written out from the spec's tables decode to the instructions they stand for: NOP, RTS, a REP, a B, a DO, an LDI, a
MOVR, a MODA, an ASR, an ADD beside two moves; and the word of a reserved class decodes to none (R278 to R301). -/
def Obligations.OboeWords : Prop :=
  OInstr.decode 0 = some .nop ∧ OInstr.decode 0x002000000 = some .rts ∧ OInstr.decode 0x014000007 = some (.rep 7) ∧
  OInstr.decode 0x081000123 = some (.branch 0 1 0x123) ∧ OInstr.decode 0x100028040 = some (.doImm 10 0x40) ∧
  OInstr.decode 0x181123456 = none ∧ OInstr.decode 0x182123456 = some (.ldi 1 0x123456) ∧
  OInstr.decode 0x208180000 = some (.movr 4 3) ∧ OInstr.decode 0x3A0001FFF = some (.moda 2 0x1FFF) ∧
  OInstr.decode 0x308028000 = some (.asr 1 5) ∧
  OInstr.decode 0x9D0110000 = some (.alu .add 1 0 0 0 (.load 0 2 0) .none) ∧ OInstr.decode 0x400000000 = none

/-- The command that issues a word of a mnemonic at core n of die d. -/
def oboeRow (m : OMn) (d : Die) (n : Fin 64) : Instr :=
  match m with
  | .alu .move => .move d n | .alu .mpy => .mpy d n | .alu .mac => .mac d n | .alu .dmpy => .dmpy d n
  | .alu .dmac => .dmac d n | .alu .sum => .sum d n | .alu .dif => .dif d n | .alu .add => .add d n
  | .alu .sub => .sub d n | .alu .adda => .adda d n | .alu .suba => .suba d n | .alu .tfr => .tfr d n
  | .alu .clr => .clrAcc d n | .alu .neg => .neg d n | .alu .abs => .abs d n | .alu .cmp => .cmp d n
  | .alu .and => .andOp d n | .alu .or => .orOp d n | .alu .xor => .xorOp d n | .alu .maxi => .maxi d n
  | .alu .mini => .mini d n
  | .nop => .nop d n | .rts => .rts d n | .rti => .rti d n | .waittask => .waittask d n | .emit => .emit d n
  | .abort => .abort d n | .sleep => .sleep d n | .kick => .kick d n | .enddo => .enddo d n | .bexr => .bexr d n
  | .rep => .rep d n | .repLc => .repLc d n | .lock => .lock d n | .setipl => .setipl d n
  | .b => .branch d n | .call => .call d n | .bAp => .bApn d n | .callAp => .callApn d n | .doLoop => .doLoop d n
  | .ldi => .ldi d n | .movr => .movr d n | .movc => .movc d n | .mem => .memoryMove d n | .moda => .moda d n
  | .asr => .asr d n | .asl => .asl d n | .norm => .norm d n | .scale => .scale d n

/-- Core n of die d runs, and the good word at its program counter pc is that of the well-formed instruction i, which enters AG in oc
t with every earlier write landed; no debugger asks for it. -/
def oboeReady (s : Chip) (d n pc t : Nat) (i : OInstr) : Prop :=
  s.coreClocked d n = true ∧ s.coreState d n = Obe.run ∧ i.wf = true ∧ s.coreWord d n 0 pc = (i.encode, 0) ∧
  (s.core d n).pc = pc ∧ (s.core d n).cycle = t ∧ (s.core d n).pend = [] ∧ (s.core d n).stores = [] ∧
  (s.core d n).haltAsked = false ∧ (s.core d n).stepping = false

/-- As oboeReady, outside delay slots, repetitions, LOCK sequences and loops. -/
def oboeAt (s : Chip) (d n pc t : Nat) (i : OInstr) : Prop :=
  oboeReady s d n pc t i ∧ (s.core d n).slots = 0 ∧ (s.core d n).rep = 0 ∧ (s.core d n).lock = 0 ∧ (s.core d n).loops = []

/-- What a register of a core reads once every write on its way has landed (R255). -/
def endsAs (c : Chip) (d n code : Nat) : Nat := ((c.core d n).commit ((c.core d n).cycle + 4)).committed code

/-- Every register of the core ends as it stood, but those named. -/
def keepsRegs (a c : Chip) (d n : Nat) (but : List Nat) : Prop :=
  ∀ code, code ∉ but → endsAs c d n code = (a.core d n).committed code

/-- The core has gone to the next address in so many oc, its writes on their way; every other core and the core memories are as they
were. -/
def oboeNext (a c : Chip) (d n pc t cost : Nat) : Prop :=
  c.core d n = { a.core d n with agPc := pc, pc := (pc + 1) % 8192, cycle := t + cost, pend := (c.core d n).pend } ∧
  SameBut (coreKey d n) a.cores c.cores ∧ c.coreMem = a.coreMem ∧ c.coreState d n = Obe.run

/-- The exact result of an operation on the product p, ACd, the other accumulator and the aligned operands, and the carry or borrow
of the sums and differences (R258, R284, R285). -/
def aluExpected (op : AluOp) (p a o s1 s2 : Int) : Option (Int × Option Bool) :=
  let carry (x y : Int) : Option Bool := some (decide (2 ^ 56 ≤ unsigned 56 x + unsigned 56 y))
  let borrow (x y : Int) : Option Bool := some (decide (unsigned 56 x < unsigned 56 y))
  match op with
  | .mpy => some (p, none)
  | .mac => some (a + p, none)
  | .sum => some (s1 + s2, carry s1 s2)
  | .dif => some (s1 - s2, borrow s1 s2)
  | .add => some (a + s1, carry a s1)
  | .sub => some (a - s1, borrow a s1)
  | .adda => some (a + o, carry a o)
  | .suba => some (a - o, borrow a o)
  | .tfr => some (s1, none)
  | .clr => some (0, none)
  | .neg => some (-a, none)
  | .abs => some (if a < 0 then -a else a, none)
  | _ => none

/-- The flags after an exact result: Z, N and E of its 56 bits, V set where it does not fit and kept otherwise, C as given or kept,
the other bits of SR kept (R249, R285). -/
def flagsAfter (a c : Chip) (d n : Nat) (r : Int) (carry : Option Bool) : Prop :=
  let f := endsAs c d n Rc.sr
  let g := (a.core d n).committed Rc.sr
  let u := unsigned 56 r
  f.testBit Sr.z = decide (u = 0) ∧ f.testBit Sr.n = u.testBit 55 ∧ f.testBit Sr.e = guardUsed u ∧
  f.testBit Sr.v = (g.testBit Sr.v || decide (r < -(2 ^ 55) ∨ 2 ^ 55 ≤ r)) ∧ f.testBit Sr.c = carry.getD (g.testBit Sr.c) ∧
  ∀ b, 5 ≤ b → f.testBit b = g.testBit b

/-- The product of two 24-bit registers under SR.FR and NG (R258, R284). -/
def productOf (x : Core) (ng : Fin 2) (a b : Nat) : Int :=
  signed 24 (x.committed a) * signed 24 (x.committed b) * (if (x.committed Rc.sr).testBit Sr.fr then 2 else 1) *
    (if ng = 1 then -1 else 1)

/-- Class M and class S without parallel moves: sums, differences and products exact, then cut to 56 bits; both accumulators by DMPY
and DMAC; CMP only flags; AND, OR and XOR on ACd.H; MAXI and MINI on MXV, MXI and IXC; the shifts (R258, R259, R284, R285, R301,
R302). -/
def Obligations.OboeArithmetic : Prop :=
  (∀ (s : State) (d : Die) (n : Fin 64) (pc t : Nat) (op : AluOp) (s1 s2 : Fin 4) (dd ng : Fin 2) (r : Int) (k : Option Bool),
    oboeAt s.chip d n pc t (.alu op s1 s2 dd ng .none .none) →
    let x := s.chip.core d n
    aluExpected op (productOf x ng s1 s2) (signed 56 (x.committed (4 + dd))) (signed 56 (x.committed (4 + (1 - dd.val))))
      (signed 24 (x.committed s1) * 2 ^ 24) (signed 24 (x.committed s2) * 2 ^ 24) = some (r, k) →
    Done (oboeRow (.alu op) d n) s (fun c =>
      oboeNext s.chip c d n pc t 1 ∧ endsAs c d n (4 + dd) % 2 ^ 56 = unsigned 56 r ∧ flagsAfter s.chip c d n r k ∧
      keepsRegs s.chip c d n [4 + dd, Rc.sr])) ∧
  (∀ (s : State) (d : Die) (n : Fin 64) (pc t : Nat) (s1 s2 : Fin 4) (ng : Fin 2) (add : Bool),
    let op : AluOp := if add then .dmac else .dmpy
    oboeAt s.chip d n pc t (.alu op s1 s2 0 ng .none .none) →
    let x := s.chip.core d n
    let r0 := (if add then signed 56 (x.committed 4) else 0) + productOf x ng s1 s2
    let r1 := (if add then signed 56 (x.committed 5) else 0) + productOf x ng (partner s1) s2
    Done (oboeRow (.alu op) d n) s (fun c =>
      oboeNext s.chip c d n pc t 1 ∧ endsAs c d n 4 % 2 ^ 56 = unsigned 56 r0 ∧ endsAs c d n 5 % 2 ^ 56 = unsigned 56 r1 ∧
      (endsAs c d n Rc.sr).testBit Sr.z = decide (unsigned 56 r0 = 0) ∧
      (endsAs c d n Rc.sr).testBit Sr.v = ((x.committed Rc.sr).testBit Sr.v || outside56 r0 || outside56 r1) ∧
      keepsRegs s.chip c d n [4, 5, Rc.sr])) ∧
  (∀ (s : State) (d : Die) (n : Fin 64) (pc t : Nat) (s1 : Fin 4) (dd : Fin 2),
    oboeAt s.chip d n pc t (.alu .cmp s1 0 dd 0 .none .none) →
    let a := signed 56 ((s.chip.core d n).committed (4 + dd))
    let b := signed 24 ((s.chip.core d n).committed s1) * 2 ^ 24
    Done (.cmp d n) s (fun c => oboeNext s.chip c d n pc t 1 ∧
      flagsAfter s.chip c d n (a - b) (some (decide (unsigned 56 a < unsigned 56 b))) ∧ keepsRegs s.chip c d n [Rc.sr])) ∧
  (∀ (s : State) (d : Die) (n : Fin 64) (pc t : Nat) (op : AluOp) (s1 : Fin 4) (dd : Fin 2) (h : Nat),
    oboeAt s.chip d n pc t (.alu op s1 0 dd 0 .none .none) →
    let x := s.chip.core d n
    let acc := x.committed (4 + dd)
    let hi := acc / 2 ^ 24 % 2 ^ 24
    (op = .and ∧ h = hi &&& x.committed s1) ∨ (op = .or ∧ h = hi ||| x.committed s1) ∨ (op = .xor ∧ h = hi ^^^ x.committed s1) →
    Done (oboeRow (.alu op) d n) s (fun c =>
      oboeNext s.chip c d n pc t 1 ∧ endsAs c d n (4 + dd) / 2 ^ 24 % 2 ^ 24 = h % 2 ^ 24 ∧
      endsAs c d n (4 + dd) % 2 ^ 24 = acc % 2 ^ 24 ∧ endsAs c d n (4 + dd) / 2 ^ 48 = acc / 2 ^ 48 ∧
      (endsAs c d n Rc.sr).testBit Sr.z = decide (h = 0) ∧ (endsAs c d n Rc.sr).testBit Sr.n = h.testBit 23 ∧
      (∀ b, b ≠ Sr.z → b ≠ Sr.n → (endsAs c d n Rc.sr).testBit b = (x.committed Rc.sr).testBit b) ∧
      keepsRegs s.chip c d n [4 + dd, Rc.sr])) ∧
  (∀ (s : State) (d : Die) (n : Fin 64) (pc t : Nat) (s1 : Fin 4) (greatest : Bool),
    let op : AluOp := if greatest then .maxi else .mini
    oboeAt s.chip d n pc t (.alu op s1 0 0 0 .none .none) →
    let x := s.chip.core d n
    let a := signed 24 (x.committed s1)
    let m := signed 24 (x.committed Rc.mxv)
    let better := if greatest then m < a else a < m
    Done (oboeRow (.alu op) d n) s (fun c =>
      oboeNext s.chip c d n pc t 1 ∧
      endsAs c d n Rc.mxv % 2 ^ 24 = (if better then x.committed s1 else x.committed Rc.mxv) % 2 ^ 24 ∧
      endsAs c d n Rc.mxi % 2 ^ 13 = (if better then x.committed Rc.ixc else x.committed Rc.mxi) % 2 ^ 13 ∧
      endsAs c d n Rc.ixc % 2 ^ 13 = (x.committed Rc.ixc + 1) % 2 ^ 13 ∧
      keepsRegs s.chip c d n [Rc.mxv, Rc.mxi, Rc.ixc])) ∧
  (∀ (s : State) (d : Die) (n : Fin 64) (pc t : Nat), oboeAt s.chip d n pc t (.alu .move 0 0 0 0 .none .none) →
    Done (.move d n) s (fun c => oboeNext s.chip c d n pc t 1 ∧ keepsRegs s.chip c d n [])) ∧
  (∀ (s : State) (d : Die) (n : Fin 64) (pc t : Nat) (i : OInstr) (dd : Fin 2) (r : Int) (ovf : Bool),
    oboeAt s.chip d n pc t i →
    let x := s.chip.core d n
    let a := signed 56 (x.committed (4 + dd))
    let src (q : Fin 64) : Nat := min ((x.readReg q t pc).1 % 32) 23
    (∃ k : Fin 64, i = .asr dd k ∧ r = a / 2 ^ k.val ∧ ovf = false) ∨ (∃ k : Fin 64, i = .asl dd k ∧ r = a * 2 ^ k.val ∧ ovf = false) ∨
    (∃ q : Fin 64, i = .norm dd q ∧ r = a * 2 ^ src q ∧ ovf = (x.readReg q t pc).2) ∨
    (∃ (q : Fin 64) (k : Fin 8), i = .scale dd k q ∧ r = a / 2 ^ (k.val - min (src q) k.val) ∧ ovf = (x.readReg q t pc).2) →
    Done (oboeRow i.mnemonic d n) s (fun c =>
      oboeNext s.chip c d n pc t 1 ∧ endsAs c d n (4 + dd) % 2 ^ 56 = unsigned 56 r ∧
      (endsAs c d n Rc.sr).testBit Sr.z = decide (unsigned 56 r = 0) ∧
      (endsAs c d n Rc.sr).testBit Sr.n = (unsigned 56 r).testBit 55 ∧
      (endsAs c d n Rc.sr).testBit Sr.v = ((x.committed Rc.sr).testBit Sr.v || outside56 r || ovf) ∧
      keepsRegs s.chip c d n [4 + dd, Rc.sr]))

/-- Moves, immediates and the small instructions: LDI by kind of register, MOVR, MOVC, memory moves, parallel moves, MODA, BEXR,
SETIPL, NOP and KICK (R259, R260, R269, R281, R286 to R288, R296 to R300). A store is on its way to memory for three oc. -/
def Obligations.OboeMoves : Prop :=
  (∀ (s : State) (d : Die) (n : Fin 64) (pc t : Nat) (reg : Fin 64) (imm : Fin 16777216),
    oboeAt s.chip d n pc t (.ldi reg imm) → Done (.ldi d n) s (fun c =>
      let into := if 6 ≤ reg.val ∧ reg.val < 12 then 4 + (reg.val - 6) / 3 else reg.val
      let e := endsAs c d n into
      oboeNext s.chip c d n pc t 1 ∧ keepsRegs s.chip c d n [into] ∧
      (reg.val < 4 ∨ reg.val = Rc.mxv → e % 2 ^ 24 = imm.val) ∧
      (reg.val = 4 ∨ reg.val = 5 → e % 2 ^ 56 = unsigned 56 (signed 24 imm.val * 2 ^ 24)) ∧
      (reg.val = 6 ∨ reg.val = 9 → e / 2 ^ 48 % 2 ^ 8 = imm.val % 2 ^ 8 ∧ e % 2 ^ 48 = (s.chip.core d n).committed into % 2 ^ 48) ∧
      (reg.val = 7 ∨ reg.val = 10 → e / 2 ^ 24 % 2 ^ 24 = imm.val) ∧ (reg.val = 8 ∨ reg.val = 11 → e % 2 ^ 24 = imm.val) ∧
      (reg.val = Rc.lc → e % 2 ^ 16 = imm.val % 2 ^ 16) ∧ (reg.val = Rc.bex → e % 2 ^ 5 = min (imm.val % 32) 23) ∧
      (reg.val = Rc.sr → e % 2 ^ 5 = imm.val % 2 ^ 5 ∧ e / 2 ^ 5 % 2 ^ 4 = min (imm.val / 2 ^ 5 % 2 ^ 4) 8 ∧
        e.testBit Sr.fr = imm.val.testBit Sr.fr ∧ e.testBit Sr.lkb = false ∧
        e.testBit Sr.tv = ((s.chip.core d n).committed Rc.sr).testBit Sr.tv) ∧
      (0x10 ≤ reg.val → e % 2 ^ 13 = imm.val % 2 ^ 13))) ∧
  (∀ (s : State) (d : Die) (n : Fin 64) (pc t : Nat) (dst src : Fin 64), oboeAt s.chip d n pc t (.movr dst src) →
    let x := s.chip.core d n
    Done (.movr d n) s (fun c => oboeNext s.chip c d n pc t 1 ∧
      (∀ code, code ≠ Rc.sr → endsAs c d n code = ((x.writeReg dst (x.readReg src t pc).1 (t + 3)).commit (t + 5)).committed code) ∧
      (dst.val ≠ Rc.sr → (endsAs c d n Rc.sr).testBit Sr.v = ((x.committed Rc.sr).testBit Sr.v || (x.readReg src t pc).2)))) ∧
  (∀ (s : State) (d : Die) (n : Fin 64) (pc t : Nat) (dst : Fin 64) (h : Fin 2) (off : Fin 65536),
    oboeAt s.chip d n pc t (.movcRead dst h off) → off.val ≠ 1 → off.val ≠ 7 → off.val < 0x100 →
    let w := s.chip.reg d (Reg.OBE_CTRL n + off)
    Done (.movc d n) s (fun c => oboeNext s.chip c d n pc t 4 ∧
      (dst.val < 4 → endsAs c d n dst % 2 ^ 24 = (if h = 1 then bits w 24 12 else bits w 0 24) ∧
        keepsRegs s.chip c d n [dst.val]))) ∧
  (∀ (s : State) (d : Die) (n : Fin 64) (pc t : Nat) (src : Fin 64) (off : Fin 65536),
    oboeAt s.chip d n pc t (.movcWrite src 1 off) → Done (.movc d n) s (fun c =>
      (c.core d n).hlatch = ((s.chip.core d n).readReg src t pc).1 % 2 ^ 12 ∧ (c.core d n).pc = (pc + 1) % 8192 ∧
      keepsRegs s.chip c d n [Rc.sr] ∧ c.coreMem = s.chip.coreMem ∧ SameBut (coreKey d n) s.chip.cores c.cores)) ∧
  (∀ (s : State) (d : Die) (n : Fin 64) (pc t : Nat) (src : Fin 64) (off : Fin 65536),
    oboeAt s.chip d n pc t (.movcWrite src 0 off) → off.val ∈ [2, 3, 4] →
    let v := word ((s.chip.core d n).hlatch * 2 ^ 24 + ((s.chip.core d n).readReg src t pc).1 % 2 ^ 24)
    Done (.movc d n) s (fun c =>
      c.reg d (Reg.OBE_CTRL n + off) = (s.chip.plainWrite d (Reg.OBE_CTRL n + off) v).reg d (Reg.OBE_CTRL n + off) ∧
      (c.core d n).hlatch = 0 ∧ (c.core d n).pc = (pc + 1) % 8192 ∧ c.coreMem = s.chip.coreMem)) ∧
  (∀ (s : State) (d : Die) (n : Fin 64) (pc t : Nat) (y : Fin 2) (reg : Fin 64) (mode p : Fin 8) (addr : Fin 8192) (v a : Nat)
    (md : Option Int),
    oboeAt s.chip d n pc t (.mem 0 y reg mode p addr) → (s.chip.core d n).memAddress t mode p addr = (a, md) →
    s.chip.coreWord d n (1 + y) a = (v, 0) → Done (.memoryMove d n) s (fun c =>
      oboeNext s.chip c d n pc t 1 ∧ ∀ code, endsAs c d n code =
        ((((s.chip.core d n).writeReg reg v (t + 3)).postModify p t md).commit (t + 5)).committed code)) ∧
  (∀ (s : State) (d : Die) (n : Fin 64) (pc t : Nat) (y : Fin 2) (reg : Fin 64) (mode p : Fin 8) (addr : Fin 8192) (a : Nat)
    (md : Option Int),
    oboeAt s.chip d n pc t (.mem 1 y reg mode p addr) → (s.chip.core d n).memAddress t mode p addr = (a, md) →
    let x := s.chip.core d n
    let v := (x.readReg reg t pc).1 % 2 ^ 24
    Done (.memoryMove d n) s (fun c =>
      (c.core d n).stores = [{ land := t + 3, mem := 1 + y, addr := a % 8192, value := v }] ∧ (c.core d n).pc = (pc + 1) % 8192 ∧
      endsAs c d n Rc.bex = min (x.committed Rc.bex) (headroom v) ∧
      endsAs c d n (Rc.ap p) = ((x.postModify p t md).commit (t + 5)).committed (Rc.ap p) ∧
      keepsRegs s.chip c d n [Rc.bex, Rc.sr, Rc.ap p] ∧ c.coreMem = s.chip.coreMem ∧
      SameBut (coreKey d n) s.chip.cores c.cores)) ∧
  (∀ (s : State) (d : Die) (n : Fin 64) (pc t : Nat) (p : Fin 8) (md r : Fin 4) (inY : Bool) (v : Nat),
    oboeAt s.chip d n pc t (if inY then .alu .move 0 0 0 0 .none (.load p md r) else .alu .move 0 0 0 0 (.load p md r) .none) →
    let x := s.chip.core d n
    s.chip.coreWord d n (if inY then 2 else 1) (x.committed (Rc.ap p)) = (v, 0) →
    Done (.move d n) s (fun c => oboeNext s.chip c d n pc t 1 ∧ endsAs c d n r % 2 ^ 24 = v % 2 ^ 24 ∧
      endsAs c d n (Rc.ap p) = ((x.postModify p t (x.modifier p t md)).commit (t + 5)).committed (Rc.ap p) ∧
      keepsRegs s.chip c d n [r.val, Rc.ap p])) ∧
  (∀ (s : State) (d : Die) (n : Fin 64) (pc t : Nat) (p : Fin 8) (m : Fin 8192), oboeAt s.chip d n pc t (.moda p m) →
    let x := s.chip.core d n
    Done (.moda d n) s (fun c => oboeNext s.chip c d n pc t 1 ∧
      endsAs c d n (Rc.ap p) % 2 ^ 13 =
        updatePointer (x.committed (Rc.ap p)) (signed 13 m) (x.committed (Rc.ab p)) (x.committed (Rc.al p)) % 2 ^ 13 ∧
      keepsRegs s.chip c d n [Rc.ap p])) ∧
  (∀ (s : State) (d : Die) (n : Fin 64) (pc t : Nat), oboeAt s.chip d n pc t .bexr →
    Done (.bexr d n) s (fun c => oboeNext s.chip c d n pc t 1 ∧ endsAs c d n Rc.bex % 2 ^ 5 = 23 ∧
      keepsRegs s.chip c d n [Rc.bex])) ∧
  (∀ (s : State) (d : Die) (n : Fin 64) (pc t : Nat) (level : Fin 16), oboeAt s.chip d n pc t (.setipl level) →
    Done (.setipl d n) s (fun c => oboeNext s.chip c d n pc t 1 ∧ endsAs c d n Rc.sr / 2 ^ 5 % 2 ^ 4 = level ∧
      (∀ b, b < 5 ∨ 9 ≤ b → (endsAs c d n Rc.sr).testBit b = ((s.chip.core d n).committed Rc.sr).testBit b) ∧
      keepsRegs s.chip c d n [Rc.sr])) ∧
  (∀ (s : State) (d : Die) (n : Fin 64) (pc t : Nat), oboeAt s.chip d n pc t .nop →
    Done (.nop d n) s (fun c => oboeNext s.chip c d n pc t 1 ∧ keepsRegs s.chip c d n [])) ∧
  (∀ (s : State) (d : Die) (n : Fin 64) (pc t : Nat), oboeAt s.chip d n pc t .kick →
    Done (.kick d n) s (fun c => (c.core d n).wdogBase = t ∧ (c.core d n).wdogLeft = s.chip.wdogPeriod d n ∧ (c.core d n).pc = (pc + 1) % 8192 ∧ keepsRegs s.chip c d n [] ∧
      c.coreMem = s.chip.coreMem ∧ SameBut (coreKey d n) s.chip.cores c.cores))

/-! ### Oboe cores: control flow, tasks, faults and interrupts, states, port and DMA (R245 to R277, R288 to R295) -/

/-- Branches and calls with their two delay slots, returns, the instruction in a slot, DO, the end of a loop, ENDDO, REP and what it
repeats, LOCK (R257, R261, R262, R265, R268, R288 to R295). -/
def Obligations.OboeControlFlow : Prop :=
  (∀ (s : State) (d : Die) (n : Fin 64) (pc t : Nat) (i : OInstr) (call : Fin 2) (cond : Fin 16) (dest : Nat),
    oboeAt s.chip d n pc t i →
    let x := s.chip.core d n
    ((∃ target : Fin 8192, i = .branch call cond target ∧ dest = target) ∨
      (∃ p : Fin 8, i = .branchAp call cond p ∧ dest = x.committed (Rc.ap p))) →
    (x.condition t cond = false ∨ call = 0 ∨ x.sys.length < 16) →
    Done (oboeRow i.mnemonic d n) s (fun c =>
      (c.core d n = { x with
        agPc := pc, pc := (pc + 1) % 8192, cycle := t + 1, slots := 2
        target := if x.condition t cond then some dest else none
        sys := if x.condition t cond && call == 1 then ((pc + 3) % 8192, x.committed Rc.sr) :: x.sys else x.sys }) ∧
      SameBut (coreKey d n) s.chip.cores c.cores ∧ c.coreMem = s.chip.coreMem)) ∧
  (∀ (s : State) (d : Die) (n : Fin 64) (pc t a sr : Nat) (rest : List (Nat × Nat)), oboeAt s.chip d n pc t .rts →
    (s.chip.core d n).sys = (a, sr) :: rest → Done (.rts d n) s (fun c =>
      c.core d n = { s.chip.core d n with
        agPc := pc, pc := (pc + 1) % 8192, cycle := t + 1, slots := 2, target := some a, sys := rest } ∧
      SameBut (coreKey d n) s.chip.cores c.cores ∧ c.coreMem = s.chip.coreMem)) ∧
  (∀ (s : State) (d : Die) (n : Fin 64) (pc t : Nat), oboeReady s.chip d n pc t .nop →
    let x := s.chip.core d n
    x.rep = 0 → x.lock = 0 → x.loops = [] → 1 ≤ x.slots → Done (.nop d n) s (fun c =>
      (c.core d n).slots = x.slots - 1 ∧ (c.core d n).cycle = t + 1 ∧
      (c.core d n).pc = (if x.slots = 1 then x.target.getD ((pc + 1) % 8192) % 8192 else (pc + 1) % 8192) ∧
      (x.slots = 1 → (c.core d n).target = none) ∧ keepsRegs s.chip c d n [])) ∧
  (∀ (s : State) (d : Die) (n : Fin 64) (pc t a sr : Nat) (rest : List (Nat × Nat)), oboeAt s.chip d n pc t .rti →
    ((s.chip.core d n).inPoison = false ∨ (s.chip.core d n).poisonAt < (s.chip.core d n).sys.length) →
    (s.chip.core d n).sys = (a, sr) :: rest → Done (.rti d n) s (fun c =>
      (c.core d n).pc = a % 8192 ∧ (c.core d n).sys = rest ∧ (c.core d n).cycle = t + 3 ∧ (c.core d n).slots = 0 ∧
      (endsAs c d n Rc.sr).testBit Sr.nmi = false ∧
      (∀ b, b = Sr.lk ∨ b = Sr.tv → (endsAs c d n Rc.sr).testBit b = ((s.chip.core d n).committed Rc.sr).testBit b) ∧
      (∀ b, b ≠ Sr.lk → b ≠ Sr.tv → b ≠ Sr.nmi → (endsAs c d n Rc.sr).testBit b = sr.testBit b) ∧
      keepsRegs s.chip c d n [Rc.sr])) ∧
  (∀ (s : State) (d : Die) (n : Fin 64) (pc t : Nat) (i : OInstr) (count : Nat) (fin : Fin 8192), oboeAt s.chip d n pc t i →
    ((∃ k : Fin 65536, i = .doImm k fin ∧ count = k) ∨
      (∃ r : Fin 64, i = .doReg r fin ∧ count = zeroExtended r ((s.chip.core d n).readReg r t pc).1)) → pc + 1 ≤ fin →
    Done (.doLoop d n) s (fun c =>
      (count = 0 → (c.core d n).loops = [] ∧ (c.core d n).pc = (fin + 1) % 8192 ∧ (c.core d n).cycle = t + 3 ∧
        keepsRegs s.chip c d n [Rc.sr]) ∧
      (count ≠ 0 → (c.core d n).loops =
          [{ prev := (s.chip.core d n).committed Rc.lc, start := (pc + 1) % 8192, fin := fin, count := count }] ∧
        (c.core d n).pc = (pc + 1) % 8192 ∧ (c.core d n).cycle = t + 1 ∧ endsAs c d n Rc.lc % 2 ^ 16 = count ∧
        keepsRegs s.chip c d n [Rc.lc, Rc.sr]))) ∧
  (∀ (s : State) (d : Die) (n : Fin 64) (pc t : Nat) (l : LoopRec), oboeReady s.chip d n pc t .nop →
    let x := s.chip.core d n
    x.slots = 0 → x.rep = 0 → x.lock = 0 → x.loops = [l] → l.fin = pc → Done (.nop d n) s (fun c =>
      (x.committed Rc.lc = 1 → (c.core d n).loops = [] ∧ (c.core d n).pc = (pc + 1) % 8192 ∧
        endsAs c d n Rc.lc % 2 ^ 16 = l.prev % 2 ^ 16) ∧
      (2 ≤ x.committed Rc.lc → x.committed Rc.lc < 2 ^ 16 → (c.core d n).loops = [l] ∧ (c.core d n).pc = l.start ∧
        endsAs c d n Rc.lc % 2 ^ 16 = x.committed Rc.lc - 1) ∧
      keepsRegs s.chip c d n [Rc.lc])) ∧
  (∀ (s : State) (d : Die) (n : Fin 64) (pc t : Nat) (l : LoopRec), oboeReady s.chip d n pc t .enddo →
    let x := s.chip.core d n
    x.slots = 0 → x.rep = 0 → x.lock = 0 → x.loops = [l] → Done (.enddo d n) s (fun c =>
      (c.core d n).loops = [] ∧ (c.core d n).pc = (pc + 1) % 8192 ∧ endsAs c d n Rc.lc % 2 ^ 16 = l.prev % 2 ^ 16 ∧
      keepsRegs s.chip c d n [Rc.lc])) ∧
  (∀ (s : State) (d : Die) (n : Fin 64) (pc t : Nat) (k : Fin 4096), oboeAt s.chip d n pc t (.rep k) →
    Done (.rep d n) s (fun c => (c.core d n).rep = k + 1 ∧ (c.core d n).pc = (pc + 1) % 8192 ∧ (c.core d n).cycle = t + 1 ∧
      keepsRegs s.chip c d n [])) ∧
  (∀ (s : State) (d : Die) (n : Fin 64) (pc t : Nat), oboeAt s.chip d n pc t .repLc →
    let m := (s.chip.core d n).committed Rc.lc
    Done (.repLc d n) s (fun c => (c.core d n).rep = m ∧ (c.core d n).pc = (if m = 0 then pc + 2 else pc + 1) % 8192 ∧
      keepsRegs s.chip c d n [])) ∧
  (∀ (s : State) (d : Die) (n : Fin 64) (pc t : Nat), oboeReady s.chip d n pc t .nop →
    let x := s.chip.core d n
    x.slots = 0 → x.lock = 0 → x.loops = [] → 1 ≤ x.rep → Done (.nop d n) s (fun c =>
      (c.core d n).rep = x.rep - 1 ∧ (c.core d n).pc = (if x.rep = 1 then (pc + 1) % 8192 else pc) ∧
      (c.core d n).cycle = t + 1)) ∧
  (∀ (s : State) (d : Die) (n : Fin 64) (pc t : Nat) (k : Fin 16), oboeAt s.chip d n pc t (.lock k) →
    Done (.lock d n) s (fun c => (c.core d n).lock = k + 1 ∧ (c.core d n).pc = (pc + 1) % 8192 ∧
      (endsAs c d n Rc.sr).testBit Sr.lk = true ∧ keepsRegs s.chip c d n [Rc.sr])) ∧
  (∀ (s : State) (d : Die) (n : Fin 64) (pc t : Nat), oboeReady s.chip d n pc t .nop →
    let x := s.chip.core d n
    x.slots = 0 → x.rep = 0 → x.loops = [] → 1 ≤ x.lock → Done (.nop d n) s (fun c =>
      (c.core d n).lock = x.lock - 1 ∧ (x.lock = 1 → (endsAs c d n Rc.sr).testBit Sr.lk = false)))

/-- The task instructions and the interface behind them: WAITTASK waits, announcing READY where it is due, or takes a task area already
written; EMIT queues a token, or waits while both places are full; ABORT ends the task; SLEEP and its wake; a token leaves; a DISPATCH
of one part starts a waiting worker (R245, R271 to R273, R321, R330). -/
def Obligations.OboeTasks : Prop :=
  (∀ (s : State) (d : Die) (n : Fin 64) (pc t : Nat), oboeAt s.chip d n pc t .waittask →
    let x := s.chip.core d n
    (x.committed Rc.sr).testBit Sr.tv = false →
    (x.areaReady = false → Done (.waittask d n) s (fun c =>
      c.coreState d n = Obe.waittask ∧ (c.core d n).pc = pc ∧ (c.core d n).inPoison = false ∧
      (s.chip.readyDue d n = false → c.ports = s.chip.ports) ∧
      (s.chip.readyDue d n = true → x.tokens = [] → s.chip.hasRoom (coreRouter d n) 2 = true →
        (c.port (coreRouter d n) 2).waiting = (s.chip.port (coreRouter d n) 2).waiting ++
          [x.numbered (s.chip.emitPacket d 0 (2 * 2 ^ 16) 0 0 0)]) ∧
      (s.chip.readyDue d n = true → x.tokens ≠ [] ∨ s.chip.hasRoom (coreRouter d n) 2 = false →
        (c.core d n).tokens = x.tokens ++ [x.numbered (s.chip.emitPacket d 0 (2 * 2 ^ 16) 0 0 0)]) ∧
      keepsRegs s.chip c d n [])) ∧
    (x.areaReady = true → Done (.waittask d n) s (fun c =>
      c.coreState d n = Obe.run ∧ (c.core d n).pc = (pc + 1) % 8192 ∧ (c.core d n).areaReady = false ∧
      (endsAs c d n Rc.sr).testBit Sr.tv = true ∧ keepsRegs s.chip c d n [Rc.sr]))) ∧
  (∀ (s : State) (d : Die) (n : Fin 64) (pc t : Nat) (tk : HeldTask), oboeAt s.chip d n pc t .emit →
    let x := s.chip.core d n
    (x.committed Rc.sr).testBit Sr.tv = true → x.task = some tk →
    (∀ i, i < 8 → (s.chip.coreWord d n 1 (0x1FD8 + i)).2 = 0) →
    let last := (s.chip.coreWord d n 1 0x1FD9).1 % 2 = 1
    (x.tokens.length < 2 → Done (.emit d n) s (fun c =>
      (∃ p : Packet, (c.core d n).tokens = x.tokens ++ [p] ∧ p.typ = Typ.emit ∧ p.flow = tk.flow ∧ p.router = gatewayOf d ∧
        p.port = 3 ∧ p.body.length = 1) ∧
      (c.core d n).pc = (pc + 1) % 8192 ∧ (c.core d n).cycle = t + 9 ∧ (c.core d n).lastFailed = false ∧
      (last → (c.core d n).task = none ∧ (endsAs c d n Rc.sr).testBit Sr.tv = false) ∧
      (¬ last → (c.core d n).task = some tk ∧ (endsAs c d n Rc.sr).testBit Sr.tv = true) ∧
      keepsRegs s.chip c d n [Rc.sr] ∧ c.coreMem = s.chip.coreMem)) ∧
    (2 ≤ x.tokens.length → Done (.emit d n) s (fun c =>
      c.core d n = { x with agPc := pc, cycle := t + 1 } ∧ c.ports = s.chip.ports))) ∧
  (∀ (s : State) (d : Die) (n : Fin 64) (pc t : Nat) (tk : HeldTask), oboeAt s.chip d n pc t .abort →
    let x := s.chip.core d n
    (x.committed Rc.sr).testBit Sr.tv = true → x.task = some tk → x.tokens = [] → s.chip.hasRoom (coreRouter d n) 2 = true →
    Done (.abort d n) s (fun c =>
      (c.core d n).task = none ∧ (c.core d n).pc = (pc + 1) % 8192 ∧ (endsAs c d n Rc.sr).testBit Sr.tv = false ∧
      (c.port (coreRouter d n) 2).waiting = (s.chip.port (coreRouter d n) 2).waiting ++
        [x.numbered (s.chip.emitPacket d tk.flow (2 ^ 16 + taskBits tk) (word 0) 0 0)] ∧
      keepsRegs s.chip c d n [Rc.sr])) ∧
  (∀ (s : State) (d : Die) (n : Fin 64) (pc t : Nat), oboeAt s.chip d n pc t .sleep → Done (.sleep d n) s (fun c =>
      c.coreState d n = Obe.sleep ∧ (c.core d n).pc = (pc + 1) % 8192 ∧ (c.core d n).wakeNoted = false ∧
      keepsRegs s.chip c d n [])) ∧
  (∀ (s : State) (d : Die) (n : Fin 64), s.chip.coreClocked d n = true → s.chip.coreState d n = Obe.sleep →
    (s.chip.core d n).wakeNoted = true → (s.chip.core d n).stepping = false → Done (.sleepWake d n) s (fun c =>
      c.coreState d n = Obe.run ∧
      c.core d n = { s.chip.core d n with cycle := (s.chip.core d n).cycle + 2, wakeNoted := false } ∧
      SameBut (coreKey d n) s.chip.cores c.cores)) ∧
  (∀ (s : State) (d : Die) (n : Fin 64) (p : Packet) (rest : List Packet), s.chip.runs d = true →
    (s.chip.core d n).tokens = p :: rest → s.chip.fits (coreRouter d n) 2 p = true →
    s.chip.hasRoom (coreRouter d n) 2 = true → Done (.emitTokenSend d n) s (fun c =>
      (c.core d n).tokens = rest ∧
      (c.port (coreRouter d n) 2).waiting = (s.chip.port (coreRouter d n) 2).waiting ++ [p] ∧
      c = { s.chip with cores := c.cores, ports := c.ports })) ∧
  (∀ (s : State) (d : Die) (n : Fin 64) (f : Flit) (rest : List Flit),
    let x := s.chip.core d n
    s.chip.coreClocked d n = true → (x.committed Rc.sr).testBit Sr.lk = false →
    (s.chip.port (coreRouter d n) 2).delivered = f :: rest → f.typ = Typ.dispatch → s.chip.flag d (F.OBE_CTRL_WORKER n) = true →
    s.chip.coreState d n = Obe.waittask → bits f.w2 0 2 = 0 → bit f.w2 7 = true → f.poison = false →
    s.chip.flipArmed d 3 n = false → x.pend = [] → x.stores = [] → x.stepping = false → Done (.dispatch d n) s (fun c =>
      (c.port (coreRouter d n) 2).delivered = rest ∧ c.coreState d n = Obe.run ∧
      (c.core d n).task = some { flow := f.flow, seq := bits f.w4 0 20, attempt := bits f.w3 11 3 } ∧
      (endsAs c d n Rc.sr).testBit Sr.tv = true ∧ (c.core d n).areaReady = false ∧ (c.core d n).pc = (x.pc + 1) % 8192 ∧
      c.coreWord d n 1 0x1FE0 = (bits f.w3 0 14, 0) ∧ c.coreWord d n 1 0x1FE1 = (f.flow, 0) ∧
      c.coreWord d n 1 0x1FE2 = (bits f.w4 0 20, 0) ∧ c.coreWord d n 1 0x1FE8 = (0, 0)))

/-- What stops or diverts a core: a word that R279 makes ILLEGAL enters the NMI, and halts the core under it; a word stored poisoned
traps, to the handler or to a restart; interrupts and recorded NMI causes are taken; the watchdog and the timer expire; the doorbell
and the kick (R263 to R270, R274, R275, R279). -/
def Obligations.OboeFaultsAndInterrupts : Prop :=
  (∀ (s : State) (d : Die) (n : Fin 64) (pc t w : Nat),
    let x := s.chip.core d n
    s.chip.coreClocked d n = true → s.chip.coreState d n = Obe.run → x.haltAsked = false → x.stepping = false → x.pend = [] →
    x.stores = [] → x.pc = pc → x.cycle = t → s.chip.coreWord d n 0 pc = (w, 0) → OInstr.decode w = none →
    ((x.committed Rc.sr).testBit Sr.nmi = false → x.sys.length < 16 → s.chip.vectorCheck d n 0 = 0 →
      Done (oboeRow (mnemonicOf w) d n) s (fun c =>
      c.flag d (F.OBE_NMI_CAUSE_ILLEGAL n) = true ∧ c.fld d (F.OBE_NMI_CAUSE_PC n) = pc % 2 ^ 13 ∧
      c.coreState d n = Obe.run ∧ (c.core d n).pc = s.chip.vectorAddr d n 0 ∧ (∃ sr, (c.core d n).sys = (pc, sr) :: x.sys ∧
        ∀ b, b ≠ Sr.lk → sr.testBit b = (x.committed Rc.sr).testBit b) ∧
      (endsAs c d n Rc.sr).testBit Sr.nmi = true ∧ endsAs c d n Rc.sr / 2 ^ 5 % 2 ^ 4 = 8 ∧
      (c.core d n).slots = 0 ∧ (c.core d n).rep = 0 ∧ (c.core d n).lock = 0 ∧ keepsRegs s.chip c d n [Rc.sr] ∧
      c.coreMem = s.chip.coreMem)) ∧
    ((x.committed Rc.sr).testBit Sr.nmi = true → Done (oboeRow (mnemonicOf w) d n) s (fun c =>
      c.flag d (F.OBE_NMI_CAUSE_ILLEGAL n) = true ∧ c.flag d (F.OBE_NMI_CAUSE_FAULT_HALT n) = true ∧
      c.coreState d n = Obe.faultHalt ∧ (c.core d n).task = none ∧
      Logged s.chip c d Ev.obeFaultHalt (n + bits (c.reg d (Reg.OBE_NMI_CAUSE n)) 0 4 * 2 ^ 6)))) ∧
  (∀ (s : State) (d : Die) (n : Fin 64) (pc t w : Nat),
    let x := s.chip.core d n
    s.chip.coreClocked d n = true → s.chip.coreState d n = Obe.run → x.haltAsked = false → x.stepping = false → x.pend = [] →
    x.stores = [] → x.pc = pc → x.cycle = t → pc < 8192 → s.chip.coreWord d n 0 pc = (w, 15#4) →
    (s.chip.flag d (F.OBE_CTRL_POISON_USER n) = true → s.chip.vectorCheck d n 1 = 0) →
    Done (oboeRow (mnemonicOf w) d n) s (fun c =>
      c.fld d (F.OBE_TRAP_PC n) = pc ∧ c.fld d (F.OBE_TRAP_ADDR n) = pc ∧ c.fld d (F.OBE_TRAP_MEM n) = 0 ∧
      c.flag d (F.OBE_TRAP_STORED n) = true ∧ c.flag d (F.OBE_TRAP_SEEN n) = true ∧
      Logged s.chip c d Ev.obePoison (n + bits (c.reg d (Reg.OBE_TRAP n)) 0 29 * 2 ^ 6) ∧ c.coreState d n = Obe.run ∧
      (s.chip.flag d (F.OBE_CTRL_POISON_USER n) = true →
        (c.core d n).pc = s.chip.vectorAddr d n 1 ∧ (c.core d n).inPoison = true ∧ (c.core d n).poisonAt = x.sys.length ∧
        endsAs c d n Rc.sr / 2 ^ 5 % 2 ^ 4 = 8) ∧
      (s.chip.flag d (F.OBE_CTRL_POISON_USER n) = false →
        (c.core d n).pc = s.chip.fld d (F.OBE_START_ADDR n) ∧ (c.core d n).sys = [] ∧ (c.core d n).loops = [] ∧
        (c.core d n).task = (if (x.committed Rc.sr).testBit Sr.tv then none else x.task) ∧
        (c.core d n).areaReady = x.areaReady ∧ endsAs c d n Rc.sr = 0x100))) ∧
  (∀ (s : State) (d : Die) (n : Fin 64),
    let x := s.chip.core d n
    let wanted := s.chip.wantedInt d n (x.readAt Rc.sr x.cycle / 2 ^ 5 % 16)
    (∀ src level, s.chip.canAccept d n = true → wanted = some (src, level) → x.sys.length < 16 → x.pend = [] → x.stores = [] →
      s.chip.vectorCheck d n (2 + src) = 0 →
      Done (.interruptAccept d n) s (fun c =>
        (c.core d n).pc = s.chip.vectorAddr d n (2 + src) ∧ (c.core d n).sys = (x.pc, x.committed Rc.sr) :: x.sys ∧
        endsAs c d n Rc.sr / 2 ^ 5 % 2 ^ 4 = (level + 1) % 2 ^ 4 ∧ c.coreState d n = Obe.run ∧ (c.core d n).hlatch = 0 ∧
        (c.core d n).cycle = x.cycle + 6 ∧ keepsRegs s.chip c d n [Rc.sr])) ∧
    (s.chip.canAccept d n = false ∨ wanted = none → NoEffect (.interruptAccept d n) s)) ∧
  (∀ (s : State) (d : Die) (n : Fin 64),
    let x := s.chip.core d n
    s.chip.canAccept d n = true → x.nmiWdog = true ∨ x.nmiClk = true → (x.committed Rc.sr).testBit Sr.nmi = false →
    x.sys.length < 16 → x.pend = [] → x.stores = [] → s.chip.vectorCheck d n 0 = 0 → Done (.nmiEntry d n) s (fun c =>
      (c.core d n).pc = s.chip.vectorAddr d n 0 ∧ (∃ sr, (c.core d n).sys = (x.pc, sr) :: x.sys) ∧
      (endsAs c d n Rc.sr).testBit Sr.nmi = true ∧ endsAs c d n Rc.sr / 2 ^ 5 % 2 ^ 4 = 8 ∧ c.coreState d n = Obe.run ∧
      (c.core d n).nmiWdog = false ∧ (c.core d n).nmiClk = (x.nmiClk && x.nmiWdog))) ∧
  (∀ (s : State) (d : Die) (n : Fin 64),
    let x := s.chip.core d n
    s.chip.coreClocked d n = true → s.chip.flag d (F.OBE_WDOG_EN n) = true → s.chip.coreState d n = Obe.run →
    ((x.committed Rc.sr).testBit Sr.nmi = false ∨ x.wdogSeen = false → Done (.watchdogExpire d n) s (fun c =>
      c.flag d (F.OBE_NMI_CAUSE_WDOG n) = true ∧ (c.core d n).nmiWdog = true ∧ (c.core d n).wdogBase = x.cycle ∧
      (c.core d n).wdogLeft = s.chip.wdogPeriod d n ∧
      c.coreState d n = Obe.run ∧ c = { s.chip with regs := c.regs, cores := c.cores, pmc := c.pmc })) ∧
    ((x.committed Rc.sr).testBit Sr.nmi = true → x.wdogSeen = true → x.pend = [] → x.stores = [] →
      Done (.watchdogExpire d n) s (fun c => c.coreState d n = Obe.faultHalt ∧ c.flag d (F.OBE_NMI_CAUSE_FAULT_HALT n) = true))) ∧
  (∀ (s : State) (d : Die) (n : Fin 64) (v : W36), s.chip.runs d = true → Done (.wdogKick d n v) s (fun c =>
      c.fld d (F.OBE_WDOG_PERIOD n) = bits v 0 16 ∧ c.flag d (F.OBE_WDOG_EN n) = bit v 16 ∧
      c.core d n = { s.chip.core d n with wdogBase := (s.chip.core d n).cycle, wdogLeft := 1024 * max 1 (bits v 0 16) } ∧
      SameBut (coreKey d n) s.chip.cores c.cores ∧ RegsBut (OneReg d (Reg.OBE_WDOG n)) s.chip c ∧
      c = { s.chip with regs := c.regs, cores := c.cores, pmc := c.pmc })) ∧
  (∀ (s : State) (d : Die) (n : Fin 64), s.chip.coreClocked d n = true → s.chip.flag d (F.OBE_TIMER_EN n) = true →
    s.chip.coreState d n = Obe.run ∨ s.chip.coreState d n = Obe.waittask → Done (.coreTimerExpire d n) s (fun c =>
      c.fld d (F.OBE_INT_PEND_PEND n) = s.chip.fld d (F.OBE_INT_PEND_PEND n) ||| 2 ^ 5 ∧
      RegsBut (OneReg d (Reg.OBE_INT_PEND n)) s.chip c ∧ c = { s.chip with regs := c.regs, pmc := c.pmc })) ∧
  (∀ (s : State) (d : Die) (n : Fin 64) (v : W36), s.chip.runs d = true → Done (.doorbell d n v) s (fun c =>
      (c.fld d (F.OBE_INT_PEND_PEND n)).testBit 4 = true ∧
      (∀ b, b < 7 → b ≠ 4 → (c.fld d (F.OBE_INT_PEND_PEND n)).testBit b =
        ((s.chip.fld d (F.OBE_INT_PEND_PEND n)).testBit b && !bit v b)) ∧
      RegsBut (OneReg d (Reg.OBE_INT_PEND n)) s.chip c ∧ OnlyRegs s.chip c))

/-- Core states, the OBOE port and DMA: RUN starts a core with the values of R248, its fall resets it; the clears; a read and a write
of one word; the inbox ring; the start and the end of a DMA transfer (R245 to R248, R250 to R252, R276, R277, R498). -/
def Obligations.OboeStatesPortDma : Prop :=
  (∀ (s : State) (d : Die) (n : Fin 64), s.chip.runs d = true → s.chip.coreState d n = Obe.reset →
    (s.chip.pastStage3 d = true → Done (.coreRun d n) s (fun c =>
      c.flag d (F.OBE_CTRL_RUN n) = true ∧ c.coreState d n = Obe.run ∧ (c.core d n).pc = s.chip.fld d (F.OBE_START_ADDR n) ∧
      (∀ code, endsAs c d n code = coreDefault code) ∧ (c.core d n).task = none ∧ (c.core d n).sys = [] ∧
      (c.core d n).loops = [] ∧ SameBut (coreKey d n) s.chip.cores c.cores ∧
      c = { s.chip with regs := c.regs, cores := c.cores })) ∧
    (s.chip.pastStage3 d = false → Done (.coreRun d n) s (fun c =>
      c.flag d (F.OBE_CTRL_RUN n) = true ∧ c.coreState d n = Obe.reset ∧ OnlyRegs s.chip c ∧
      RegsBut (OneReg d (Reg.OBE_CTRL n)) s.chip c))) ∧
  (∀ (s : State) (d : Die) (n : Fin 64), s.chip.runs d = true → s.chip.coreState d n ≠ Obe.reset →
    (s.chip.core d n).task = none → Done (.coreStop d n) s (fun c =>
      c.flag d (F.OBE_CTRL_RUN n) = false ∧ c.coreState d n = Obe.reset ∧ (c.core d n).pend = [] ∧ (c.core d n).sys = [] ∧
      (c.core d n).loops = [] ∧ (c.core d n).parts = [] ∧ (endsAs c d n Rc.sr).testBit Sr.tv = false ∧
      SameBut (coreKey d n) s.chip.cores c.cores ∧
      (s.chip.coreState d n ≠ Obe.halted → c = { s.chip with regs := c.regs, cores := c.cores }))) ∧
  (∀ (s : State) (d : Die) (n : Fin 64) (i : Instr) (m : Nat), s.chip.runs d = true →
    (i = .clrP d n ∧ m = 0) ∨ (i = .clrX d n ∧ m = 1) ∨ (i = .clrY d n ∧ m = 2) →
    (s.chip.coreState d n = Obe.reset → Done i s (fun c =>
      c.flag d (F.OBE_STATUS_CLR_BUSY n) = true ∧ (∀ a, c.coreWord d n m a = (0, 0)) ∧
      (∀ (m' : Fin 3) (a : Nat), m'.val ≠ m → c.coreWord d n m' a = s.chip.coreWord d n m' a) ∧
      RegsBut (OneReg d (Reg.OBE_STATUS n)) s.chip c ∧ c = { s.chip with regs := c.regs, coreMem := c.coreMem })) ∧
    (s.chip.coreState d n ≠ Obe.reset → Done i s (fun c =>
      c.flag d (F.OBE_STATUS_CLR_REFUSED n) = true ∧ OnlyRegs s.chip c ∧ RegsBut (OneReg d (Reg.OBE_STATUS n)) s.chip c))) ∧
  (∀ (s : State) (d : Die) (n : Fin 64), s.chip.runs d = true → Done (.coreClearDone d n) s (fun c =>
      c.flag d (F.OBE_STATUS_CLR_BUSY n) = false ∧ OnlyRegs s.chip c ∧ RegsBut (OneReg d (Reg.OBE_STATUS n)) s.chip c)) ∧
  (∀ (s : State) (d : Die) (n : Fin 64) (f : Flit) (rest : List Flit) (m a v : Nat),
    s.chip.coreClocked d n = true → ((s.chip.core d n).committed Rc.sr).testBit Sr.lk = false →
    (s.chip.port (coreRouter d n) 2).delivered = f :: rest → f.typ = Typ.readReq → bits f.w3 0 6 = 0 → (s.chip.core d n).stores = [] →
    oboeOffset f.w2.toNat = some (m, a) → s.chip.coreWord d n m a = (v, 0) → Done (.oboeReadReq d n) s (fun c =>
      (c.port (coreRouter d n) 2).delivered = rest ∧
      (c.port (coreRouter d n) 2).out = (s.chip.port (coreRouter d n) 2).out ++ [Flit.seal {
        w0 := head0 f.srcDev f.srcRouter f.srcPort Typ.readResp f.flow
        w1 := head1 s.chip.ownDevice (coreRouter d n) 2 (bits f.w3 6 12) true false
        w2 := word (if m = 0 then v else unsigned 36 (signed 24 v)) }] ∧
      SameBut (portKey (coreRouter d n) 2) s.chip.ports c.ports ∧ c = { s.chip with ports := c.ports, pmc := c.pmc })) ∧
  (∀ (s : State) (d : Die) (n : Fin 64) (f : Flit) (rest : List Flit) (m a : Nat),
    s.chip.coreClocked d n = true → ((s.chip.core d n).committed Rc.sr).testBit Sr.lk = false →
    (s.chip.port (coreRouter d n) 2).delivered = f :: rest → f.typ = Typ.writeReq → bits f.w3 0 6 = 0 → f.poison = false →
    oboeOffset f.w2.toNat = some (m, a) → s.chip.flipArmed d (2 + m) n = false → (s.chip.core d n).writing = [] →
    (s.chip.core d n).stores = [] →
    Done (.oboeWriteReq d n) s (fun c =>
      (c.port (coreRouter d n) 2).delivered = rest ∧
      c.coreWord d n m a = ((if m = 0 then f.w4.toNat else f.w4.toNat % 2 ^ 24), 0) ∧
      (∀ (n' : Fin 64) (m' : Fin 3) (a' : Fin 8192), ¬ (n' = n ∧ m'.val = m ∧ a'.val = a) →
        c.coreWord d n' m' a' = s.chip.coreWord d n' m' a') ∧ c.regs = s.chip.regs)) ∧
  (∀ (s : State) (d : Die) (n : Fin 64) (f : Flit) (rest : List Flit),
    s.chip.coreClocked d n = true → ((s.chip.core d n).committed Rc.sr).testBit Sr.lk = false →
    s.chip.flag d (F.OBE_INBOX_EN n) = true →
    let len := s.chip.inboxLen d n
    let wr := s.chip.fld d (F.OBE_INBOX_PTR_WR n)
    let base := s.chip.fld d (F.OBE_INBOX_BASE n)
    (s.chip.inboxFull d n = false → (s.chip.port (coreRouter d n) 2).delivered = f :: rest → f.typ = Typ.stream →
      f.poison = false → s.chip.flipArmed d 3 n = false → Done (.inboxStream d n) s (fun c =>
        (c.port (coreRouter d n) 2).delivered = rest ∧ c.fld d (F.OBE_INBOX_PTR_WR n) = (wr + 4) % len ∧
        c.coreWord d n 1 (base + wr % len) = (f.w2.toNat % 2 ^ 24, 0) ∧
        c.coreWord d n 1 (base + (wr + 1) % len) = (f.w3.toNat % 2 ^ 24, 0) ∧
        c.coreWord d n 1 (base + (wr + 2) % len) = (f.w4.toNat % 2 ^ 24, 0) ∧
        c.coreWord d n 1 (base + (wr + 3) % len) = (f.w5.toNat % 2 ^ 24, 0))) ∧
    (s.chip.inboxFull d n = true → Done (.inboxStream d n) s (fun c => c = { s.chip with pmc := c.pmc }))) ∧
  (∀ (s : State) (d : Die) (n : Fin 64) (k : Fin 4) (v : W36), s.chip.runs d = true →
    s.chip.flag d (F.OBE_DMA_STATUS_BUSY n k) = false →
    (dmaPaired (bits v 4 2) (bits v 2 2) (bits v 7 4) = true → Done (.dmaStart d n k v) s (fun c =>
      c.flag d (F.OBE_DMA_STATUS_BUSY n k) = true ∧
      c.fld d (F.OBE_DMA_STATUS_REMAIN n k) = s.chip.fld d (F.OBE_DMA_COUNT_WORDS n k) + 1 ∧
      ((c.core d n).chan k).words = s.chip.fld d (F.OBE_DMA_COUNT_WORDS n k) + 1 ∧ ((c.core d n).chan k).next = 0 ∧
      bits ((c.core d n).chan k).ctrl 1 16 = bits v 1 16 ∧ c = { s.chip with regs := c.regs, cores := c.cores })) ∧
    (dmaPaired (bits v 4 2) (bits v 2 2) (bits v 7 4) = false → Done (.dmaStart d n k v) s (fun c =>
      c.flag d (F.OBE_DMA_STATUS_BUSY n k) = false ∧ c.flag d (F.OBE_DMA_STATUS_ERR n k) = true ∧
      (c.fld d (F.OBE_INT_PEND_PEND n)).testBit k = true ∧ OnlyRegs s.chip c))) ∧
  (∀ (s : State) (d : Die) (n : Fin 64) (f : Flit) (rest : List Flit) (r : DmaRead),
    let x := s.chip.core d n
    s.chip.coreClocked d n = true → (x.committed Rc.sr).testBit Sr.lk = false →
    (s.chip.port (coreRouter d n) 2).delivered = f :: rest → f.typ = Typ.readResp → x.reads = [r] → r.chan < 4 →
    r.key = txKey f.srcDev f.srcRouter f.srcPort f.flow → r.left ≤ 4 → s.chip.flag d (F.OBE_DMA_STATUS_BUSY n r.chan) = true →
    (x.chan r.chan).words ≤ (x.chan r.chan).done + r.left → Done (.dmaResponse d n) s (fun c =>
      (c.port (coreRouter d n) 2).delivered = rest ∧ (c.core d n).reads = [] ∧
      c.flag d (F.OBE_DMA_STATUS_BUSY n r.chan) = false ∧ c.flag d (F.OBE_DMA_STATUS_DONE n r.chan) = true ∧
      c.fld d (F.OBE_DMA_STATUS_REMAIN n r.chan) = 0 ∧ (c.fld d (F.OBE_INT_PEND_PEND n)).testBit r.chan = true))

/-! ### Bellows (R305 to R351) -/

/-- A token taken at a die's gateway meets the first row of R311 that applies: discarded while Bellows does not run or for a bad
template or slot, forwarded, discarded behind the window, failing its item, a duplicate, or filling its slot; the task that it
completes joins the tail of its ready list. Where no token waits there nothing happens (R305, R311, R312). Dispatch takes the
head of the highest non-empty list of the class, and the least loaded eligible worker with its lowest free tag, and sends the
task's parts to that worker's port; without either, or while Bellows does not run, it does nothing (R314, R316). -/
def Obligations.BellowsTokensAndDispatch : Prop :=
  ((∀ (s : State) (d : Die), (∀ f r, (s.chip.port (gatewayOf d) 3).delivered = f :: r → f.typ ≠ Typ.token) →
      NoEffect (.token d) s) ∧
    (∀ (s : State) (d : Die) (f : Flit) (r : List Flit), s.chip.runs d = true →
      (s.chip.port (gatewayOf d) 3).delivered = f :: r → f.typ = Typ.token →
      let t := TokenIn.ofFlit f
      let key := blwKey d t.tpl t.flow t.seq
      let gate := s.chip.flag d (F.BLW_TPL_A_GATE t.tpl)
      let lawful := s.chip.flag d (F.BLW_TPL_A_VALID t.tpl) = true ∧ t.slot ≤ s.chip.fld d (F.BLW_TPL_A_ARITY_M1 t.tpl)
      let own := lawful ∧ s.chip.flag d (F.BLW_TPL_A_FORWARD t.tpl) = false
      let due := own ∧ (gate = true → s.chip.flag d (F.BLW_FLOW_EN t.flow) = true ∧ s.chip.distance d t.flow t.seq < 2 ^ 19 ∧
        s.chip.itemFailed d t.flow t.seq = false)
      let stat (c : Chip) (n : Nat) : Prop := c.fld d (F.BLW_STAT_COUNT n) = (s.chip.fld d (F.BLW_STAT_COUNT n) + 1) % 2 ^ 36
      let only (c : Chip) : Prop := c.blwStore = s.chip.blwStore ∧ c.blwWindow = s.chip.blwWindow ∧ c.blwReady = s.chip.blwReady ∧
        c.blwHeld = s.chip.blwHeld ∧ c.blwQueue = s.chip.blwQueue
      (s.chip.bellowsRuns d = false → Done (.token d) s (fun c =>
        (c.port (gatewayOf d) 3).delivered = r ∧ stat c 9 ∧ only c ∧ c.log = s.chip.log)) ∧
      (s.chip.bellowsRuns d = true → ¬ lawful → Done (.token d) s (fun c =>
        (c.port (gatewayOf d) 3).delivered = r ∧ stat c 0 ∧ stat c 9 ∧ only c ∧ c.log = s.chip.log)) ∧
      (s.chip.bellowsRuns d = true → lawful → s.chip.flag d (F.BLW_TPL_A_FORWARD t.tpl) = true → Done (.token d) s (fun c =>
        c.port (gatewayOf d) 3 = { s.chip.port (gatewayOf d) 3 with
          delivered := r
          waiting := (s.chip.port (gatewayOf d) 3).waiting ++ [{
            dev := s.chip.ownDevice, router := gatewayOf (s.chip.fld d (F.BLW_TPL_A_HOME t.tpl)), port := 3, typ := Typ.token
            flow := t.flow
            body := [{ w2 := t.word2 (s.chip.fld d (F.BLW_TPL_A_REMOTE t.tpl))
                       w3 := t.data.word 0, w4 := t.data.word 1, w5 := t.data.word 2,
                       poison := f.poison }]
            origin := .forward (s.chip.fld d (F.BLW_TPL_A_HOME t.tpl)) t.tpl }] } ∧ only c)) ∧
      (s.chip.bellowsRuns d = true → own → gate = true → s.chip.flag d (F.BLW_FLOW_EN t.flow) = false →
        Done (.token d) s (fun c => stat c 9 ∧ only c)) ∧
      (s.chip.bellowsRuns d = true → own → gate = true → s.chip.flag d (F.BLW_FLOW_EN t.flow) = true →
        (2 ^ 19 ≤ s.chip.distance d t.flow t.seq ∨ s.chip.itemFailed d t.flow t.seq = true) →
        Done (.token d) s (fun c => stat c 4 ∧ only c)) ∧
      (s.chip.bellowsRuns d = true → due → t.err = true → Done (.token d) s (fun c =>
        (s.chip.distance d t.flow t.seq < 2 ^ 19 → ∃ m, c.mark d t.flow t.seq = some m ∧ m.failed = some (Cause.tokenError, t.tpl) ∧ m.release = none) ∧
        (∀ x : Fin 256, s.chip.gated d x = true → c.blwStore.get (blwKey d x t.flow t.seq) = none) ∧
        c.flag d (F.BLW_FLOW_STATUS_ERR_SEEN t.flow) = true ∧ c.fld d F.BLW_FAULT_FLOW = t.flow ∧
        c.fld d F.BLW_FAULT_SEQUENCE = t.seq ∧ c.fld d F.BLW_FAULT_CAUSE = Cause.tokenError ∧ c.flag d F.BLW_FAULT_SEEN = true ∧
        Logged s.chip c d Ev.blwItemError (faultWord t.flow t.seq Cause.tokenError))) ∧
      (∀ e x, s.chip.bellowsRuns d = true → due → t.err = false → s.chip.blwStore.get key = some e →
        e.slots.get t.slot = some x → Done (.token d) s (fun c =>
        stat c 5 ∧ only c ∧ Logged s.chip c d Ev.blwSlotDup (t.tpl + t.flow * 2 ^ 8))) ∧
      (s.chip.bellowsRuns d = true → due → t.err = false → gate = false → s.chip.blwStore.get key = none →
        16384 ≤ s.chip.storeUsed d → Done (.token d) s (fun c =>
        stat c 7 ∧ only c ∧ Logged s.chip c d Ev.blwStoreFull (t.tpl + t.flow * 2 ^ 8))) ∧
      (s.chip.bellowsRuns d = true → due → t.err = false → (∀ i, s.chip.flipArmed d 6 i = false) →
        (s.chip.blwStore.get key ≠ none ∨ s.chip.storeUsed d < 16384) →
        let e := (s.chip.blwStore.get key).getD { first := s.chip.firstOf d t.flow t.seq }
        e.slots.get t.slot = none →
        let slots := e.slots.set t.slot (some t.data)
        let full := ∀ i, i ≤ s.chip.fld d (F.BLW_TPL_A_ARITY_M1 t.tpl) → slots.get i ≠ none
        Done (.token d) s (fun c =>
          (c.port (gatewayOf d) 3).delivered = r ∧ stat c 0 ∧ SameBut key s.chip.blwStore c.blwStore ∧ c.log = s.chip.log ∧
          (gate = true → c.mark d t.flow t.seq ≠ none) ∧
          (¬ full → c.blwStore.get key = some { e with slots := slots } ∧ c.blwReady = s.chip.blwReady) ∧
          (full → (gate = false ∨ s.chip.distance d t.flow t.seq < 256) →
            c.blwStore.get key = some { e with slots := slots, phase := .ready, joined := s.chip.now } ∧
            c.blwReady.get (s.chip.listOf d t.tpl) = s.chip.blwReady.get (s.chip.listOf d t.tpl) ++ [key]) ∧
          (full → gate = true → 256 ≤ s.chip.distance d t.flow t.seq →
            c.blwStore.get key = some { e with slots := slots, phase := .held } ∧ c.blwReady = s.chip.blwReady ∧
            c.blwHeld.get d = s.chip.blwHeld.get d ++ [key]))))) ∧
  ((∀ (c : Chip) (d : Die) (cls : Fin 16) (l key : Nat), c.nextTask d cls = some (l, key) →
      ∃ p rest, p < 8 ∧ l = (d * 16 + cls) * 8 + p ∧ c.blwReady.get l = key :: rest ∧
        ∀ q, p < q → q < 8 → c.blwReady.get ((d * 16 + cls) * 8 + q) = []) ∧
    (∀ (c : Chip) (d : Die) (cls : Fin 16) (w tag : Nat), c.pickWorker d cls = some (w, tag) →
      w < 192 ∧ c.freePlace d cls w = some tag ∧ ∀ v u, v < 192 → c.freePlace d cls v = some u →
        let n := (c.worker d w).tags.length
        let m := (c.worker d v).tags.length
        n < m ∨ (n = m ∧ ((c.worker d w).busyRatio < (c.worker d v).busyRatio ∨
          ((c.worker d w).busyRatio = (c.worker d v).busyRatio ∧ w ≤ v)))) ∧
    (∀ (s : State) (d : Die) (cls : Fin 16), (s.chip.bellowsRuns d = false ∨ s.chip.nextTask d cls = none ∨
      s.chip.pickWorker d cls = none) → NoEffect (.dispatchStart d cls) s) ∧
    (∀ (s : State) (d : Die) (cls : Fin 16) (l key w tag : Nat) (e : BlwEntry), s.chip.runs d = true →
      s.chip.bellowsRuns d = true → s.chip.nextTask d cls = some (l, key) → s.chip.pickWorker d cls = some (w, tag) →
      s.chip.blwStore.get key = some e → (∀ i x, e.slots.get i = some x → x.bad = false) →
      Done (.dispatchStart d cls) s (fun c =>
        c.blwReady.get l = (s.chip.blwReady.get l).drop 1 ∧ SameBut l s.chip.blwReady c.blwReady ∧
        c.blwStore.get key = some { e with phase := .out w tag, staged := [], declared := false } ∧
        SameBut key s.chip.blwStore c.blwStore ∧
        (c.worker d w).tags = (s.chip.worker d w).tags ++ [(tag, some key)] ∧ c.workerState d w = Wrk.busy ∧
        c.fld d (F.BLW_STAT_COUNT 1) = (s.chip.fld d (F.BLW_STAT_COUNT 1) + 1) % 2 ^ 36 ∧
        c.port (gatewayOf d) 3 = { s.chip.port (gatewayOf d) 3 with
          waiting := (s.chip.port (gatewayOf d) 3).waiting ++ (s.chip.dispatchParts d key tag e).map (fun b => {
            dev := s.chip.ownDevice, router := s.chip.fld d (F.BLW_WORKER_ROUTER w), port := s.chip.fld d (F.BLW_WORKER_PORT w)
            typ := Typ.dispatch, flow := blwFlow key, body := [b], origin := .dispatch w }) } ∧
        c.log = s.chip.log)))

/-- What workers send: an EMIT staged with its task, its LAST one ending the task, with a RELEASE put in its flow's window; a stale
EMIT counted; an ABORT and a TIMEOUT that re-dispatch the task at the head of its list; READY that leaves its worker IDLE (R320,
R321, R331 to R336). -/
def Obligations.BellowsResults : Prop :=
  (∀ (s : State) (d : Die) (f : Flit) (r : List Flit) (w key : Nat) (e : BlwEntry), s.chip.runs d = true →
    s.chip.bellowsRuns d = true → (s.chip.port (gatewayOf d) 3).delivered = f :: r → f.typ = Typ.emit → bits f.w2 16 2 = 0 →
    s.chip.emitWorker d f = some w → s.chip.emitTask d w f = some (key, e) → (∀ i, s.chip.flipArmed d 6 i = false) →
    let x : BlwSlot := { count := bits f.w2 10 2, ref := bit f.w2 12, w0 := f.w3, w1 := f.w4, w2 := f.w5, poison := f.poison }
    let g : BlwStaged := { tpl := bits f.w2 0 8, slot := bits f.w2 8 2, release := bit f.w2 15, data := x }
    let seq := blwSeq key
    (e.staged.length < 8 → bit f.w2 13 = false → Done (.emitPacket d) s (fun c =>
      (c.port (gatewayOf d) 3).delivered = r ∧
      c.blwStore.get key = some { e with staged := e.staged ++ [g], declared := e.declared || bit f.w2 14 } ∧
      SameBut key s.chip.blwStore c.blwStore ∧ c = { s.chip with blwStore := c.blwStore, ports := c.ports })) ∧
    (e.staged.length < 8 → bit f.w2 13 = true → s.chip.fld d (F.BLW_TPL_B_FREE_TPL (blwTpl key)) = 255 →
      Done (.emitPacket d) s (fun c =>
        c.blwStore.get key = none ∧ (∀ t ∈ (c.worker d w).tags, t.1 ≠ bits f.w2 21 2) ∧
        ((e.declared || bit f.w2 14) = true → s.chip.gated d (blwTpl key) = true → s.chip.distance d (blwFlow key) seq < 2 ^ 19 →
          ∃ m, c.mark d (blwFlow key) seq = some m ∧ m.failed = some (Cause.declared, blwTpl key)) ∧
        ((e.declared || bit f.w2 14) = false → e.staged = [] → bit f.w2 15 = true →
          (∀ m, s.chip.mark d (blwFlow key) seq = some m → m.release = none ∧ m.failed = none) →
          s.chip.distance d (blwFlow key) seq < 2 ^ 19 → s.chip.storeUsed d + 1 < 16384 →
          ∃ m, c.mark d (blwFlow key) seq = some m ∧ m.failed = none ∧ m.release = some (x, blwTpl key)))) ∧
    (8 ≤ e.staged.length → s.chip.gated d (blwTpl key) = true → s.chip.distance d (blwFlow key) seq < 2 ^ 19 → Done (.emitPacket d) s (fun c =>
      (∃ m, c.mark d (blwFlow key) seq = some m ∧ m.failed = some (Cause.stageOverflow, blwTpl key)) ∧
      (blwDie key = d → c.blwStore.get key = none) ∧
      (c.worker d w).tags.any (fun t => t.1 = bits f.w2 21 2 && t.2.isSome) = false))) ∧
  (∀ (s : State) (d : Die) (f : Flit) (r : List Flit), s.chip.runs d = true → s.chip.bellowsRuns d = true →
    (s.chip.port (gatewayOf d) 3).delivered = f :: r → f.typ = Typ.emit →
    (∀ w, s.chip.emitWorker d f = some w → s.chip.emitTask d w f = none) →
    (bits f.w2 16 2 = 0 ∨ bits f.w2 16 2 = 3 → Done (.emitPacket d) s (fun c =>
      c.fld d (F.BLW_STAT_COUNT 6) = (s.chip.fld d (F.BLW_STAT_COUNT 6) + 1) % 2 ^ 36 ∧ c.blwStore = s.chip.blwStore ∧
      c.blwWindow = s.chip.blwWindow ∧ (c.port (gatewayOf d) 3).delivered = r)) ∧
    (bits f.w2 16 2 = 1 → bits f.w3 0 4 ≠ 2 → Done (.emitAbort d) s (fun c =>
      c.fld d (F.BLW_STAT_COUNT 6) = (s.chip.fld d (F.BLW_STAT_COUNT 6) + 1) % 2 ^ 36 ∧ c.blwStore = s.chip.blwStore ∧
      ∀ w, s.chip.emitWorker d f = some w → ∀ t ∈ (c.worker d w).tags, t ≠ (bits f.w2 21 2, none)))) ∧
  (∀ (s : State) (d : Die) (f : Flit) (r : List Flit) (w key : Nat) (e : BlwEntry), s.chip.runs d = true →
    s.chip.bellowsRuns d = true → (s.chip.port (gatewayOf d) 3).delivered = f :: r → f.typ = Typ.emit → bits f.w2 16 2 = 1 →
    s.chip.emitWorker d f = some w → s.chip.emitTask d w f = some (key, e) →
    let l := s.chip.listOf d (blwTpl key)
    (bits f.w3 0 4 < 2 → e.attempt < s.chip.fld d (F.BLW_TPL_A_RETRY_MAX (blwTpl key)) → Done (.emitAbort d) s (fun c =>
      c.blwStore.get key = some { e with phase := .ready, joined := s.chip.now, attempt := e.attempt + 1, staged := []
                                         declared := false, retried := true } ∧
      c.blwReady.get l = key :: s.chip.blwReady.get l ∧
      c.fld d (F.BLW_STAT_COUNT 2) = (s.chip.fld d (F.BLW_STAT_COUNT 2) + 1) % 2 ^ 36 ∧
      (∀ t ∈ (c.worker d w).tags, t.1 ≠ bits f.w2 21 2) ∧ c.log = s.chip.log)) ∧
    (bits f.w3 0 4 = 2 → (s.chip.worker d w).tags = [(bits f.w2 21 2, some key)] →
      (s.chip.workerState d w = Wrk.idle ∨ s.chip.workerState d w = Wrk.busy ∨ s.chip.workerState d w = Wrk.lost) → w < 192 →
      Done (.emitAbort d) s (fun c =>
        c.blwStore.get key = some { e with phase := .ready, joined := s.chip.now, staged := [], declared := false
                                           retried := true } ∧
        c.blwReady.get l = key :: s.chip.blwReady.get l ∧ c.workerState d w = Wrk.lost ∧ (c.worker d w).tags = []))) ∧
  (∀ (s : State) (d : Die) (f : Flit) (r : List Flit), s.chip.runs d = true → s.chip.bellowsRuns d = true →
    (s.chip.port (gatewayOf d) 3).delivered = f :: r → f.typ = Typ.emit → bits f.w2 16 2 = 2 →
    (s.chip.workerAt d f.srcRouter f.srcPort = none → Done (.ready d) s (fun c =>
      c.port (gatewayOf d) 3 = { s.chip.port (gatewayOf d) 3 with delivered := r } ∧ c = { s.chip with ports := c.ports })) ∧
    (∀ w, s.chip.workerAt d f.srcRouter f.srcPort = some w → f.srcDev = s.chip.ownDevice →
      (s.chip.workerState d w = Wrk.idle ∨ s.chip.workerState d w = Wrk.busy ∨ s.chip.workerState d w = Wrk.lost) →
      Done (.ready d) s (fun c => c.workerState d w = Wrk.idle ∧ (c.worker d w).tags = [] ∧
        ((s.chip.worker d w).tags = [] → c.blwStore = s.chip.blwStore ∧ c.log = s.chip.log)))) ∧
  (∀ (s : State) (d : Die) (key w tag : Nat) (e : BlwEntry), s.chip.runs d = true → s.chip.blwStore.get key = some e →
    e.phase = .out w tag → blwDie key = d →
    (s.chip.fld d (F.BLW_TPL_B_TIMEOUT (blwTpl key)) ≠ 0 → s.chip.workerState d w ≠ Wrk.held → s.chip.finalWaits d w tag = false →
      e.attempt < s.chip.fld d (F.BLW_TPL_A_RETRY_MAX (blwTpl key)) → Done (.blwTimeout d key) s (fun c =>
        c.blwStore.get key = some { e with phase := .ready, joined := s.chip.now, attempt := e.attempt + 1, staged := []
                                           declared := false, retried := true } ∧
        c.blwReady.get (s.chip.listOf d (blwTpl key)) = key :: s.chip.blwReady.get (s.chip.listOf d (blwTpl key)) ∧
        (c.worker d w).tags = (s.chip.worker d w).tags.map (fun t => if t.1 = tag then (tag, none) else t) ∧
        Logged s.chip c d Ev.blwTimeout (blwTpl key + w * 2 ^ 8))) ∧
    (s.chip.fld d (F.BLW_TPL_B_TIMEOUT (blwTpl key)) = 0 ∨ s.chip.workerState d w = Wrk.held ∨ s.chip.finalWaits d w tag = true →
      NoEffect (.blwTimeout d key) s))

/-- Release in order: the position at BASE goes where its template's REL_KIND sends it, a failed one as an ERROR item, and BASE
moves on; a full result queue holds it; BLW_RESULT_POP takes the oldest item, and says EMPTY where there is none (R340 to R343).
The registers of Bellows: FAIL_HEAD fails the item at BASE where the window holds one; BASE and EN of a flow that holds an item,
the registers of a template in use, and the fields of an enabled worker are refused; an enabled worker becomes IDLE (HELD
where debug holds its core, UNAVAILABLE on a region that is not ACTIVE) and a disabled one OFF; HIST_CLR zeroes the histogram (R307, R318 to R320, R345,
R346, R351). FAB port mailboxes: a port that is enabled starts both rings at slot 0 of lap 0 with nothing pending, unless its
tile is cascaded; the engine takes a FULL transmit slot, frees it and goes on to the next, and sends a whole packet at its LAST
slot; it writes a failure record, or else the next delivered flit, with its FULL mark into the next free receive slot (R324 to
R328). -/
def Obligations.BellowsReleaseAndRegisters : Prop :=
  ((∀ (s : State) (d : Die) (flow : Fin 1024), s.chip.runs d = true →
      let base := s.chip.fld d (F.BLW_FLOW_BASE flow)
      let q := s.chip.blwQueue.get d
      let moved (c : Chip) : Prop := c.fld d (F.BLW_FLOW_BASE flow) = (base + 1) % 2 ^ 20
      (∀ m, s.chip.mark d flow base = some m → m.failed = none → m.release = none → NoEffect (.releaseItem d flow) s) ∧
      (s.chip.mark d flow base = none → NoEffect (.releaseItem d flow) s) ∧
      (∀ m x tpl, s.chip.mark d flow base = some m → m.failed = none → m.release = some (x, tpl) → x.bad = false →
        (s.chip.fld d (F.BLW_TPL_B_REL_KIND tpl) = 0 → q.length < 512 → Done (.releaseItem d flow) s (fun c =>
          moved c ∧ c.mark d flow base = none ∧
          c.blwQueue.get d = q ++ [{ head := itemHead flow base x false, data := x }])) ∧
        (s.chip.fld d (F.BLW_TPL_B_REL_KIND tpl) = 0 → 512 ≤ q.length → Done (.releaseItem d flow) s (fun c =>
          c.flag d F.BLW_RQ_FULL_SEEN = true ∧ OnlyRegs s.chip c ∧ RegsBut (OneReg d Reg.BLW_RQ) s.chip c)) ∧
        (s.chip.fld d (F.BLW_TPL_B_REL_KIND tpl) = 2 → Done (.releaseItem d flow) s (fun c =>
          moved c ∧ c.mark d flow base = none ∧ c.blwQueue = s.chip.blwQueue ∧ c.log = s.chip.log))) ∧
      (∀ m cause tpl, s.chip.mark d flow base = some m → m.failed = some (cause, tpl) → q.length < 512 →
        (tpl = 256 ∨ cause = Cause.failHead ∨ s.chip.fld d (F.BLW_TPL_B_REL_KIND tpl) ≠ 1) → Done (.releaseItem d flow) s (fun c =>
          moved c ∧ c.mark d flow base = none ∧ c.blwQueue.get d = q ++ [{ head := itemHead flow base {} true, data := {} }] ∧
          c.fld d (F.BLW_STAT_COUNT 3) = (s.chip.fld d (F.BLW_STAT_COUNT 3) + 1) % 2 ^ 36))) ∧
    (∀ (s : State) (d : Die), s.chip.runs d = true →
      (s.chip.blwQueue.get d = [] → Done (.blwResultPop d) s (fun c =>
        c.returned = [word (2 ^ 35)] ∧ c = { s.chip with returned := c.returned })) ∧
      (∀ i rest, s.chip.blwQueue.get d = i :: rest → Done (.blwResultPop d) s (fun c =>
        c.returned = [i.head] ∧ c.blwQueue.get d = rest ∧
        c.reg d (Reg.BLW_RESULT_DATA 0) = (if 0 < i.data.count then i.data.w0 else 0) ∧
        c.reg d (Reg.BLW_RESULT_DATA 1) = (if 1 < i.data.count then i.data.w1 else 0) ∧
        c.reg d (Reg.BLW_RESULT_DATA 2) = (if 2 < i.data.count then i.data.w2 else 0) ∧
        RegsBut (fun d' off => d' = d ∧ ∃ k < 3, off = Reg.BLW_RESULT_DATA k) s.chip c ∧
        c = { s.chip with returned := c.returned, blwQueue := c.blwQueue, regs := c.regs, pmc := c.pmc })))) ∧
  ((∀ (s : State) (d : Die) (flow : Fin 1024) (v : W36), s.chip.runs d = true →
      let base := s.chip.fld d (F.BLW_FLOW_BASE flow)
      ((s.chip.marksOf d flow).any (fun m => s.chip.distance d flow m.1 < 256) = true → Done (.failHead d flow v) s (fun c =>
        (∃ m, c.mark d flow base = some m ∧ m.failed = some (Cause.failHead, 256) ∧ m.release = none) ∧
        c.fld d (F.BLW_FLOW_BASE flow) = base ∧ c.fld d F.BLW_FAULT_CAUSE = Cause.failHead ∧
        Logged s.chip c d Ev.blwItemError (faultWord flow base Cause.failHead))) ∧
      ((s.chip.marksOf d flow).any (fun m => s.chip.distance d flow m.1 < 256) = false →
        Done (.failHead d flow v) s (fun c => c.blwWindow = s.chip.blwWindow ∧ c.log = s.chip.log)) ∧
      (bit v 21 = false → s.chip.marksOf d flow = [] →
        s.chip.blwStore.any (fun e => blwDie e.1 = d && blwFlow e.1 = flow && s.chip.gated d (blwTpl e.1)) = false →
        Done (.blwFlowWrite d flow v) s (fun c => c.fld d (F.BLW_FLOW_BASE flow) = bits v 0 20 ∧
          c.flag d (F.BLW_FLOW_EN flow) = bit v 20 ∧ OnlyRegs s.chip c ∧ RegsBut (OneReg d (Reg.BLW_FLOW flow)) s.chip c)) ∧
      (bit v 21 = false → s.chip.marksOf d flow ≠ [] →
        (bits v 0 20 ≠ base ∨ (s.chip.flag d (F.BLW_FLOW_EN flow) = true ∧ bit v 20 = false)) →
        Done (.blwFlowWrite d flow v) s (fun c => c.flag d F.BLW_STATUS_REFUSED = true ∧ OnlyRegs s.chip c ∧
          RegsBut (OneReg d Reg.BLW_STATUS) s.chip c))) ∧
    (∀ (s : State) (d : Die) (t : Fin 256) (isB : Bool) (v : W36), s.chip.runs d = true →
      (s.chip.tplInUse d t = true → Done (.blwTplWrite d t isB v) s (fun c =>
        c.flag d F.BLW_STATUS_REFUSED = true ∧ OnlyRegs s.chip c ∧ RegsBut (OneReg d Reg.BLW_STATUS) s.chip c)) ∧
      (s.chip.tplInUse d t = false → isB = false → Done (.blwTplWrite d t isB v) s (fun c =>
        c.fld d (F.BLW_TPL_A_ARITY_M1 t) = bits v 0 2 ∧ c.fld d (F.BLW_TPL_A_CLASS t) = bits v 2 4 ∧
        c.fld d (F.BLW_TPL_A_PRIORITY t) = bits v 6 3 ∧ c.fld d (F.BLW_TPL_A_RETRY_MAX t) = bits v 9 3 ∧
        c.flag d (F.BLW_TPL_A_GATE t) = bit v 12 ∧ c.flag d (F.BLW_TPL_A_VALID t) = bit v 13 ∧
        c.flag d (F.BLW_TPL_A_FORWARD t) = bit v 14 ∧ c.fld d (F.BLW_TPL_A_HOME t) = bits v 15 2 ∧
        c.fld d (F.BLW_TPL_A_REMOTE t) = bits v 17 8 ∧ OnlyRegs s.chip c ∧ RegsBut (OneReg d (Reg.BLW_TPL_A t)) s.chip c)) ∧
      (s.chip.tplInUse d t = false → isB = true → Done (.blwTplWrite d t isB v) s (fun c =>
        c.fld d (F.BLW_TPL_B_TIMEOUT t) = bits v 0 12 ∧ c.fld d (F.BLW_TPL_B_REL_KIND t) = bits v 12 2 ∧
        c.fld d (F.BLW_TPL_B_REL_TPL t) = bits v 14 8 ∧ c.fld d (F.BLW_TPL_B_REL_SLOT t) = bits v 22 2 ∧
        c.fld d (F.BLW_TPL_B_FREE_TPL t) = bits v 24 8 ∧ OnlyRegs s.chip c ∧ RegsBut (OneReg d (Reg.BLW_TPL_B t)) s.chip c))) ∧
    (∀ (s : State) (d : Die) (w : Fin 192) (v : W36), s.chip.runs d = true →
      let lawful : Prop := if w.val < 64 then bits v 8 2 = 2 ∧ dieOf (bits v 0 8) = d else bits v 8 2 < 2
      let on := s.chip.flag d (F.BLW_WORKER_EN w)
      let held : Bool := decide (w.val < 64) && (List.range 64).any (fun n =>
        s.chip.coreState d n == Obe.halted && coreRouter d n == bits v 0 8)
      (bit v 16 = true → ¬ lawful → Done (.blwWorkerWrite d w v) s (fun c => c.flag d F.BLW_STATUS_REFUSED = true ∧
        OnlyRegs s.chip c ∧ RegsBut (OneReg d Reg.BLW_STATUS) s.chip c)) ∧
      (bit v 16 = true → lawful → on = true → bits v 0 16 ≠ bits (s.chip.reg d (Reg.BLW_WORKER w)) 0 16 →
        Done (.blwWorkerWrite d w v) s (fun c => c.flag d F.BLW_STATUS_REFUSED = true ∧
          OnlyRegs s.chip c ∧ RegsBut (OneReg d Reg.BLW_STATUS) s.chip c)) ∧
      (bit v 16 = false → on = true → Done (.blwWorkerWrite d w v) s (fun c =>
        c.flag d (F.BLW_WORKER_EN w) = false ∧ c.workerState d w = Wrk.off ∧
        bits (c.reg d (Reg.BLW_WORKER w)) 0 16 = bits (s.chip.reg d (Reg.BLW_WORKER w)) 0 16)) ∧
      (on = false → (bit v 16 = true → lawful) → Done (.blwWorkerWrite d w v) s (fun c =>
        bits (c.reg d (Reg.BLW_WORKER w)) 0 17 = bits v 0 17 ∧
        (bit v 16 = true → c.workerState d w =
          if held then Wrk.held
          else if w.val < 64 ∨ s.chip.regionState (dieOf (bits v 0 8)) (regionOf (bits v 0 8)) = Rgn.active then
            (if (s.chip.worker d w).tags = [] then Wrk.idle else Wrk.busy)
          else Wrk.unavailable) ∧
        (bit v 16 = false → c.workerState d w = s.chip.workerState d w) ∧
        (bit v 16 = true ∧ held = true ∨ OnlyRegs s.chip c)))) ∧
    (∀ (s : State) (d : Die) (v : W36), s.chip.runs d = true → Done (.histClr d v) s (fun c =>
      (∀ cls b : Fin 16, c.fld d (F.BLW_WAIT_COUNT cls b) = 0) ∧ c.flag d F.BLW_CTRL_RUN = bit v 0 ∧
      c.flag d F.BLW_CTRL_DEBUG_STEAL = bit v 1 ∧ (bit v 1 = false → OnlyRegs s.chip c)))) ∧
  ((∀ (s : State) (d : Die) (q : Fin 128) (v : W36), s.chip.runs d = true →
      (bit v 0 = true → s.chip.cascaded d (fabRam d q) = true → Done (.blwFabportWrite d q v) s (fun c =>
        c.flag d F.BLW_STATUS_REFUSED = true ∧ OnlyRegs s.chip c ∧ RegsBut (OneReg d Reg.BLW_STATUS) s.chip c)) ∧
      (bit v 0 = true → s.chip.cascaded d (fabRam d q) = false → Done (.blwFabportWrite d q v) s (fun c =>
        c.flag d (F.BLW_FABPORT_EN q) = true ∧ bits (c.reg d (Reg.BLW_FABPORT q)) 1 14 = 0 ∧ c.mail d q = {} ∧
        (bit v 15 = true → c.flag d (F.BLW_FABPORT_CHECK_SEEN q) = false))) ∧
      (bit v 0 = false → Done (.blwFabportWrite d q v) s (fun c =>
        c.flag d (F.BLW_FABPORT_EN q) = false ∧
        bits (c.reg d (Reg.BLW_FABPORT q)) 1 14 = bits (s.chip.reg d (Reg.BLW_FABPORT q)) 1 14 ∧ OnlyRegs s.chip c ∧
        RegsBut (OneReg d (Reg.BLW_FABPORT q)) s.chip c))) ∧
    (∀ (s : State) (d : Die) (q : Fin 128), s.chip.runs d = true →
      let i := s.chip.fld d (F.BLW_FABPORT_TX_NEXT q)
      let word6 (k : Nat) : W36 := (s.chip.ramWord d (fabRam d q) (512 + 8 * i + k)).value
      let phase := !s.chip.flag d (F.BLW_FABPORT_TX_LAP q)
      let port := s.chip.port (fabRouter d q) (q % 2)
      (s.chip.fabServed d q = false ∨ port.waiting ≠ [] ∨ bit (word6 6) 0 ≠ phase → NoEffect (.fabTxSlot d q) s) ∧
      (s.chip.fabServed d q = true → port.waiting = [] → bit (word6 6) 0 = phase → s.chip.flipArmed d 1 (fabRam d q) = false →
        (∀ k, k < 6 → (s.chip.ramWord d (fabRam d q) (512 + 8 * i + k)).syndrome = 0) →
        let f : Flit := { w0 := word6 0, w1 := word (bits (word6 1) 0 2), w2 := word6 2, w3 := word6 3, w4 := word6 4, w5 := word6 5 }
        let parts := (s.chip.mail d q).parts ++ [f]
        Done (.fabTxSlot d q) s (fun c =>
          (c.ramWord d (fabRam d q) (512 + 8 * i + 7)).value = word (ofBool phase) ∧
          c.fld d (F.BLW_FABPORT_TX_NEXT q) = (i + 1) % 64 ∧
          c.flag d (F.BLW_FABPORT_TX_LAP q) = (if i = 63 then phase else !phase) ∧
          (bit (word6 1) 1 = false → (c.mail d q).parts = parts ∧ c.ports = s.chip.ports) ∧
          (bit (word6 1) 1 = true → (c.mail d q).parts = [] ∧
            let h := parts.headD f
            let p : Packet := {
              dev := h.dstDev, router := h.dstRouter, port := h.dstPort, typ := h.typ, flow := h.flow
              body := parts.map (fun x => { w2 := x.w2, w3 := x.w3, w4 := x.w4, w5 := x.w5, poison := x.poison })
              resp := responsesFor h.typ h.w3, origin := .fabSlot q i }
            c.port (fabRouter d q) (q % 2) =
              if s.chip.fits (fabRouter d q) (q % 2) p then { port with waiting := [p] }
              else { port with refusedOwn := port.refusedOwn ++ [p] })))) ∧
    (∀ (s : State) (d : Die) (q : Fin 128), s.chip.runs d = true →
      let i := s.chip.fld d (F.BLW_FABPORT_RX_NEXT q)
      let phase := !s.chip.flag d (F.BLW_FABPORT_RX_LAP q)
      let port := s.chip.port (fabRouter d q) (q % 2)
      let wrote (c : Chip) (ws : List W36) (fail : Nat) : Prop :=
        (∀ k : Fin 6, (c.ramWord d (fabRam d q) (8 * i + k)).value = ws.getD k 0) ∧
        (c.ramWord d (fabRam d q) (8 * i + 6)).value = word (ofBool phase + 2 * fail) ∧
        c.fld d (F.BLW_FABPORT_RX_NEXT q) = (i + 1) % 64 ∧ (c.mail d q).rxLapped = ((s.chip.mail d q).rxLapped || i == 63) ∧
        c.flag d (F.BLW_FABPORT_RX_LAP q) = (if i = 63 then phase else !phase)
      (s.chip.fabServed d q = false ∨ s.chip.fabRxFree d q = false ∨ ((s.chip.mail d q).failures = [] ∧ port.delivered = []) →
        NoEffect (.fabRxFlit d q) s) ∧
      (s.chip.fabServed d q = true → s.chip.fabRxFree d q = true → s.chip.flipArmed d 1 (fabRam d q) = false →
        (∀ w0 w1 rest, (s.chip.mail d q).failures = (w0, w1) :: rest → Done (.fabRxFlit d q) s (fun c =>
          wrote c [w0, w1] 1 ∧ (c.mail d q).failures = rest ∧ c.ports = s.chip.ports)) ∧
        (∀ f rest, (s.chip.mail d q).failures = [] → port.delivered = f :: rest → Done (.fabRxFlit d q) s (fun c =>
          wrote c [f.w0, f.w1, f.w2, f.w3, f.w4, f.w5] 0 ∧
          c.port (fabRouter d q) (q % 2) = { port with delivered := rest })))))

/-! ### The position timebase (R353 to R372) -/

/-- One step along the forward sequence 00, 10, 11, 01 of levels AB (R355). -/
def forwardStep (a b a' b' : Bool) : Prop :=
  (a, b, a', b') ∈ [(false, false, true, false), (true, false, true, true), (true, true, false, true), (false, true, false, false)]

/-- Encoder channels: what an accepted change of A, B and Z does, on one die and, one after another, on every die of a set; the faults of a pair, how a faulted channel holds or coasts, and the
reads that latch a high part (R355 to R360). -/
def Obligations.EncoderChannels : Prop :=
  (∀ (s : State) (dies : BitVec 4) (ch : Fin 2) (a b z : Bool) (stamp : BitVec 64),
    (dies = 0 → NoEffect (.acceptedChange dies ch a b z stamp) s) ∧
    (∀ d : Die, dies.getLsbD d = true → (∀ e : Die, e < d → dies.getLsbD e = false) → ∃ t : State,
      exec (.acceptedChange (1 <<< d.val) ch a b z stamp) s = .next t ∧
      exec (.acceptedChange dies ch a b z stamp) s = exec (.acceptedChange (dies &&& ~~~(1#4 <<< d.val)) ch a b z stamp) t)) ∧
  (∀ (s : State) (d : Die) (ch : Fin 2) (a b z : Bool) (stamp : BitVec 64),
    s.chip.chnRuns d = false → NoEffect (.acceptedChange (1 <<< d.val) ch a b z stamp) s) ∧
  (∀ (s : State) (d : Die) (ch : Fin 2) (a b z : Bool) (stamp : BitVec 64), s.chip.chnRuns d = true →
    let x := s.chip.chan d ch
    let counts := s.chip.flag d (F.CHN_CH_CFG_EN ch) = true ∧ s.chip.flag d (F.CHN_CH_STATUS_FAULTED ch) = false ∧
      s.chip.chnFollows ch = false
    let inv := s.chip.flag d (F.CHN_CH_CFG_DIR_INV ch)
    Done (.acceptedChange (1 <<< d.val) ch a b z stamp) s (fun c =>
      let y := c.chan d ch
      y.a = a ∧ y.b = b ∧ y.z = z ∧ SameBut (2 * d.val + ch.val) s.chip.chn c.chn ∧
      (counts → (forwardStep x.a x.b a b ∧ inv = false) ∨ (forwardStep a b x.a x.b ∧ inv = true) →
        y.int = addInt x.int 1 ∧ y.frac = 0 ∧ y.stamp = some stamp.toNat ∧ y.forward = true ∧
        y.period = (if x.forward then x.stamp.map (fun t => stamp.toNat - t) else none) ∧ y.revRun = 0 ∧
        y.accepted = s.chip.time d ∧ c.log = s.chip.log ∧ c.regs = s.chip.regs) ∧
      (counts → (forwardStep x.a x.b a b ∧ inv = true) ∨ (forwardStep a b x.a x.b ∧ inv = false) →
        y.int = addInt x.int (-1) ∧ y.frac = 0 ∧ y.stamp = some stamp.toNat ∧ y.forward = false ∧ y.period = none ∧
        y.revRun = x.revRun + 1 ∧
        (s.chip.fld d (F.CHN_CH_CFG_REV_LIMIT ch) ≠ 0 → x.revRun + 1 = s.chip.fld d (F.CHN_CH_CFG_REV_LIMIT ch) →
          c.flag d (F.CHN_CH_STATUS_REVERSED ch) = true ∧ Logged s.chip c d Ev.chnReversed ch ∧
          (s.chip.flag d (F.CHN_CH_CFG_AUTO_REV ch) = true → y.revFix = true)) ∧
        (x.revRun + 1 ≠ s.chip.fld d (F.CHN_CH_CFG_REV_LIMIT ch) → c.log = s.chip.log ∧ c.regs = s.chip.regs)) ∧
      (counts → a ≠ x.a → b ≠ x.b → y.int = x.int ∧ y.stamp = x.stamp ∧
        c.fld d (F.CHN_CH_STATUS_QERR ch) = min (s.chip.fld d (F.CHN_CH_STATUS_QERR ch) + 1) 255 ∧
        (x.quadLog = none → Logged s.chip c d Ev.chnQuadErr ch)) ∧
      (¬ counts ∨ (a = x.a ∧ b = x.b) → y.int = x.int ∧ y.stamp = x.stamp ∧ y.period = x.period ∧ c.regs = s.chip.regs ∧
        c.log = s.chip.log) ∧
      (z = true → x.z = false → a = true → b = true → y.zlat = c.chnPos d ch ∧ y.zseen = true) ∧
      (z = false ∨ x.z = true ∨ a = false ∨ b = false → y.zlat = x.zlat ∧ y.zseen = x.zseen))) ∧
  (∀ (s : State) (d : Die) (ch : Fin 2) (line : Fin 3) (short : Bool), s.chip.chnRuns d = true →
    let f := if short then F.CHN_CH_STATUS_SHORT ch else F.CHN_CH_STATUS_OPEN ch
    let i : Instr := if short then .chnEncShort d ch line else .chnEncOpen d ch line
    ((s.chip.fld d f).testBit line = true → NoEffect i s) ∧
    ((s.chip.fld d f).testBit line = false → Done i s (fun c =>
      c.fld d f = s.chip.fld d f + 2 ^ line.val ∧ c.chnPos d ch = s.chip.chnPos d ch ∧
      Logged s.chip c d (if short then Ev.chnEncShort else Ev.chnEncOpen) (ch.val + line.val * 2) ∧
      (line.val < 2 → c.flag d (F.CHN_CH_STATUS_FAULTED ch) = true) ∧
      (line.val = 2 → c.flag d (F.CHN_CH_STATUS_FAULTED ch) = s.chip.flag d (F.CHN_CH_STATUS_FAULTED ch) ∧ c.chn = s.chip.chn) ∧
      (line.val < 2 → s.chip.flag d (F.CHN_CH_STATUS_FAULTED ch) = false → s.chip.flag d (F.CHN_CH_CFG_ON_FAULT ch) = true →
        (s.chip.chan d ch).intervals ≠ [] → c.flag d (F.CHN_CH_STATUS_COASTING ch) = true ∧
        (c.chan d ch).coast = (s.chip.chan d ch).meanGap ∧ (c.chan d ch).coastUp = (s.chip.chan d ch).forward) ∧
      (line.val < 2 → s.chip.flag d (F.CHN_CH_STATUS_FAULTED ch) = false → s.chip.flag d (F.CHN_CH_CFG_ON_FAULT ch) = false →
        (c.chan d ch).period = none ∧ c.flag d (F.CHN_CH_STATUS_COASTING ch) =
          s.chip.flag d (F.CHN_CH_STATUS_COASTING ch))))) ∧
  (∀ (s : State) (d : Die) (ch : Fin 2) (line : Fin 3), s.chip.chnRuns d = true →
    Done (.encoderFaultClear d ch line) s (fun c =>
      (∀ k : Fin 3, (c.fld d (F.CHN_CH_STATUS_OPEN ch)).testBit k =
          (decide (k ≠ line) && (s.chip.fld d (F.CHN_CH_STATUS_OPEN ch)).testBit k) ∧
        (c.fld d (F.CHN_CH_STATUS_SHORT ch)).testBit k =
          (decide (k ≠ line) && (s.chip.fld d (F.CHN_CH_STATUS_SHORT ch)).testBit k)) ∧
      c.chnPos d ch = s.chip.chnPos d ch ∧ c.log = s.chip.log ∧
      (c.fld d (F.CHN_CH_STATUS_OPEN ch) % 4 = 0 → c.fld d (F.CHN_CH_STATUS_SHORT ch) % 4 = 0 → s.chip.chnFollows ch = false →
        c.flag d (F.CHN_CH_STATUS_FAULTED ch) = false))) ∧
  (∀ (s : State) (d : Die) (ch : Fin 2), s.chip.chnRuns d = true →
    (s.chip.flag d (F.CHN_CH_STATUS_COASTING ch) = true → Done (.coastMaxExpire d ch) s (fun c =>
      c.flag d (F.CHN_CH_STATUS_COASTING ch) = false ∧ c.chnPos d ch = s.chip.chnPos d ch ∧ (c.chan d ch).coast = none ∧
      (c.chan d ch).period = none)) ∧
    (s.chip.flag d (F.CHN_CH_STATUS_COASTING ch) = false → NoEffect (.coastMaxExpire d ch) s) ∧
    (∀ m, (s.chip.chan d ch).coast = some m → Done (.coastCount d ch) s (fun c =>
      (c.chan d ch).int = addInt (s.chip.chan d ch).int (if (s.chip.chan d ch).coastUp then 1 else -1) ∧
      (c.chan d ch).period = (if (s.chip.chan d ch).coastUp then some m else none) ∧
      (c.chan d ch).forward = (s.chip.chan d ch).coastUp ∧ (c.chan d ch).stamp = some (s.chip.time d) ∧ c = { s.chip with chn := c.chn })) ∧
    ((s.chip.chan d ch).coast = none → NoEffect (.coastCount d ch) s) ∧
    (s.chip.chnFollows ch = true → Done (.krnPosTimeout d ch) s (fun c =>
      c.flag d (F.CHN_CH_STATUS_FAULTED ch) = true ∧ c.chnPos d ch = s.chip.chnPos d ch ∧ c.log = s.chip.log)) ∧
    (s.chip.chnFollows ch = false → NoEffect (.krnPosTimeout d ch) s) ∧
    Done (.chnPosLo d ch) s (fun c =>
      c.returned = [word (s.chip.chnPos d ch)] ∧ c.fld d (F.CHN_CH_POS_HI_Q ch) = s.chip.chnPos d ch / 2 ^ 36 % 2 ^ 20 ∧
      c = { s.chip with returned := c.returned, regs := c.regs } ∧ RegsBut (OneReg d (Reg.CHN_CH_POS_HI ch)) s.chip c) ∧
    Done (.chnZlatLo d ch) s (fun c =>
      c.returned = [word (s.chip.chan d ch).zlat] ∧
      c.fld d (F.CHN_CH_ZLAT_HI_Q ch) = (s.chip.chan d ch).zlat / 2 ^ 36 % 2 ^ 20 ∧
      c.flag d (F.CHN_CH_ZLAT_HI_SEEN ch) = (s.chip.chan d ch).zseen ∧ (c.chan d ch) = { s.chip.chan d ch with zseen := false }))

/-- Device time: the master drives the pulses and hands the role over at one; another die slews a small error away, steps a
large one or its first after reset, and relays the pulse; rate and step act on the master alone; a read of TIME_LO latches
TIME_HI (R363 to R366). Agreement across the dies: the tick's snapshots and frames, the vote of a dissenting die, what a
received frame leaves, the operations that D0 queues, and a LOADING channel's time-out (R367 to R372). -/
def Obligations.DeviceTimeAndPosition : Prop :=
  ((∀ (s : State) (d : Die), s.chip.chnRuns d = true →
      (s.chip.chnAll.master = d → pulseTime (s.chip.time d) = true → Done (.timePulseSend d) s (fun c =>
        (c.chnDies.get d).pulse = s.chip.time d ∧ c.devTime = s.chip.devTime ∧
        let m := c.chnAll.master
        m ≤ d ∧ s.chip.dieInReset m = false ∧ (m = d ∨ s.chip.flag m F.CHN_TIME_STATUS_TIME_OK = true) ∧
        c.flag m F.CHN_TIME_STATUS_TIME_OK = true ∧
        ∀ e, e < m → s.chip.dieInReset e = true ∨ s.chip.flag e F.CHN_TIME_STATUS_TIME_OK = false)) ∧
      (s.chip.chnAll.master ≠ d ∨ s.chip.time d < 2 ^ 20 ∨ 1 < s.chip.time d % 2 ^ 20 → NoEffect (.timePulseSend d) s)) ∧
    (∀ (s : State) (d : Die) (e : Fin 2) (t : BitVec 64), s.chip.chnRuns d = true →
      let err : Int := signed 64 (unsigned 64 ((s.chip.time d : Int) - t.toNat))
      (s.chip.chnAll.master = d → Done (.timePulseReceive d e t) s (fun c =>
        OnlyRegs s.chip c ∧ RegsBut (OneReg d Reg.CRL_SIDEBAND) s.chip c ∧
        (c.fld d F.CRL_SIDEBAND_TPULSE_SEEN).testBit e = true)) ∧
      (s.chip.chnAll.master ≠ d → Done (.timePulseReceive d e t) s (fun c =>
        (c.fld d F.CRL_SIDEBAND_TPULSE_SEEN).testBit e = true ∧
        (c.chnDies.get d).rate = signed 24 (s.chip.fld s.chip.chnAll.master F.CHN_TIME_RATE_RATE) ∧
        (d ≠ 0 → d.val < s.chip.chnAll.master → c.chnAll.master ≤ d) ∧
        c.flag d F.CHN_TIME_STATUS_TIME_OK = true ∧ (c.chnDies.get d).pulse = t.toNat ∧
        c.fld d F.CHN_TIME_STATUS_LAST_ERR = unsigned 20 (clampInt (-524288) 524287 err) ∧
        (-1000 ≤ err → err ≤ 1000 → (s.chip.chnDies.get d).afterReset = false →
          (c.chnDies.get d).slew = err ∧ (c.chnDies.get d).slewDone = 0 ∧ c.devTime = s.chip.devTime ∧
          c.flag d F.CHN_TIME_STATUS_STEPPED = s.chip.flag d F.CHN_TIME_STATUS_STEPPED) ∧
        (err < -1000 ∨ 1000 < err ∨ (s.chip.chnDies.get d).afterReset = true →
          c.time d = t.toNat ∧ c.flag d F.CHN_TIME_STATUS_STEPPED = true ∧ (c.chnDies.get d).slew = 0 ∧
          (c.chnDies.get d).afterReset = false)))) ∧
    (∀ (s : State) (d : Die) (v : W36), s.chip.chnRuns d = true →
      (s.chip.chnAll.master = d → Done (.chnTimeStep d v) s (fun c =>
        c.time d = unsigned 64 ((s.chip.time d : Int) + signed 36 v.toNat) ∧
        (∀ ch : Fin 2, c.chan d ch = { s.chip.chan d ch with
          stamp := (s.chip.chan d ch).stamp.map (fun t => unsigned 64 ((t : Int) + signed 36 v.toNat))
          accepted := unsigned 64 (((s.chip.chan d ch).accepted : Int) + signed 36 v.toNat)
          quadLog := (s.chip.chan d ch).quadLog.map (fun t => unsigned 64 ((t : Int) + signed 36 v.toNat))
          due := (s.chip.chan d ch).due.map (fun q => (q.1, unsigned 64 ((q.2.1 : Int) + signed 36 v.toNat), q.2.2)) }) ∧
        c = { s.chip with devTime := c.devTime, chn := c.chn })) ∧
      (s.chip.chnAll.master = d → Done (.chnTimeRate d v) s (fun c => c.fld d F.CHN_TIME_RATE_RATE = bits v 0 24 ∧
        OnlyRegs s.chip c ∧ RegsBut (OneReg d Reg.CHN_TIME_RATE) s.chip c)) ∧
      (s.chip.chnAll.master ≠ d → ∀ i ∈ [Instr.chnTimeStep d v, Instr.chnTimeRate d v], Done i s (fun c =>
        c.flag d F.CHN_TIME_STATUS_REFUSED = true ∧ OnlyRegs s.chip c ∧
        RegsBut (OneReg d Reg.CHN_TIME_STATUS) s.chip c)) ∧
      Done (.chnTimeLo d) s (fun c =>
        c.returned = [word (s.chip.time d)] ∧ c.fld d F.CHN_TIME_HI_TIME = s.chip.time d / 2 ^ 36 % 2 ^ 28 ∧
        c = { s.chip with returned := c.returned, regs := c.regs } ∧ RegsBut (OneReg d Reg.CHN_TIME_HI) s.chip c))) ∧
  ((∀ s : State, s.chip.updates = [] → (∀ x, (s.chip.regions.get x).act = none) → DoneFabric .agreementTick s (fun c =>
      let n := s.chip.chnAll.tick + 1
      c.chnAll.tick = n ∧ ∀ d : Die, s.chip.chnRuns d = true →
        (∀ ch : Fin 2, s.chip.flag d (F.CHN_CH_STATUS_LOADING ch) = false →
          (n, s.chip.chnPos d ch, s.chip.chnValid d ch) ∈ (c.chan d ch).snaps) ∧
        ∃ f : BitVec 256, (0, f) ∈ (c.chnDies.get d).out ∧ (1, f) ∈ (c.chnDies.get d).out ∧ bits f 0 8 = 0xA7 ∧ posOrigin f = d ∧
          posRelay f = false ∧ posTick f = n % 256 ∧
          ∀ e ∈ (c.chnDies.get d).out, e.2 = f ∨ (posRelay e.2 = true ∧ posTick e.2 = (n + 255) % 256))) ∧
    (∀ votes : List (Nat × Nat), votes ≠ [] → median votes ∈ votes.map (·.2)) ∧
    (∀ (s : Chip) (d : Die) (ch : Fin 2) (n own : Nat),
      let votes := s.votes d ch n
      let m := median votes
      let x := s.chan d ch
      (x.corrected = 0 ∨ x.corrected < n) → (d.val, own) ∈ votes → 1 < (diff48 own m).natAbs →
      votes.length < 2 * votes.countP (fun v => (diff48 v.2 m).natAbs ≤ 1) →
      let c := s.vote d ch n
      (c.chan d ch).int = addInt x.int (diff48 m own) ∧ (c.chan d ch).corrected = s.chnAll.tick ∧
        c.flag d (F.CHN_CH_STATUS_SPLIT ch) = false ∧ c.flag d F.CHN_AGREE_SEEN = true) ∧
    (∀ (s : State) (d : Die) (e : Fin 2) (f : BitVec 256), s.chip.chnRuns d = true →
      (posGood f = false → NoEffect (.posDFrame d e f) s) ∧
      (posGood f = true → Done (.posDFrame d e f) s (fun c =>
        (∃ l, (c.chnDies.get d).frames = l ++ [(e.val, f)]) ∧
        (let ahead := (bits f 184 8 + 256 - s.chip.chnAll.tick % 256) % 256
         let op := (bits f 181 3, bits f 192 56, bits f 184 8)
         (1 ≤ bits f 181 3 → bits f 181 3 ≤ 4 → 1 ≤ ahead → ahead ≤ 4 → op ∈ (c.chnDies.get d).ops) ∧
         (bits f 181 3 = 0 ∨ 4 < bits f 181 3 ∨ ahead = 0 ∨ 4 < ahead → (c.chnDies.get d).ops = (s.chip.chnDies.get d).ops)) ∧
        (∀ k, { (c.chn.get k) with heard := (s.chip.chn.get k).heard } = s.chip.chn.get k) ∧
        ∀ ch : Fin 2, posRelay f = false → (s.chip.chnDies.get d).frames = [] → posValid f ch = true →
          s.chip.flag d (F.CHN_CH_STATUS_LOADING ch) = true → (s.chip.chan d ch).adopted = none →
          c.reg d (Reg.CHN_CH_CFG ch) = word (posCfg f ch) ∧ (c.chan d ch).heard = true))) ∧
    (∀ (s : State) (ch : Fin 2) (v : W36), s.chip.chnRuns 0 = true → s.chip.flag 0 (F.CHN_CH_STATUS_PENDING ch) = false →
      Done (.chnChCfgWrite 0 ch v) s (fun c =>
        c.chnAll = { s.chip.chnAll with queue := s.chip.chnAll.queue ++ [(1 + ch.val, bits v 0 24)] } ∧
        c.flag 0 (F.CHN_CH_STATUS_PENDING ch) = true ∧ c.reg 0 (Reg.CHN_CH_CFG ch) = s.chip.reg 0 (Reg.CHN_CH_CFG ch)) ∧
      Done (.presetGo 0 ch v) s (fun c =>
        c.chnAll = { s.chip.chnAll with
          queue := s.chip.chnAll.queue ++ [(3 + ch.val, s.chip.fld 0 (F.CHN_CH_PRESET_LO_Q ch) + bits v 0 20 * 2 ^ 36)] } ∧
        c.flag 0 (F.CHN_CH_STATUS_PENDING ch) = true ∧ c.chn = s.chip.chn)) ∧
    (∀ (s : State) (d : Die) (ch : Fin 2) (v : W36), s.chip.chnRuns d = true →
      (d ≠ 0 ∨ s.chip.flag 0 (F.CHN_CH_STATUS_PENDING ch) = true) →
      ∀ i ∈ [Instr.chnChCfgWrite d ch v, Instr.presetGo d ch v], Done i s (fun c =>
        c.flag d (F.CHN_CH_STATUS_REFUSED ch) = true ∧ OnlyRegs s.chip c ∧
        RegsBut (OneReg d (Reg.CHN_CH_STATUS ch)) s.chip c)) ∧
    (∀ (s : State) (d : Die) (ch : Fin 2), s.chip.chnRuns d = true →
      (s.chip.flag d (F.CHN_CH_STATUS_LOADING ch) = true → (s.chip.chan d ch).heard = false →
        (s.chip.chan d ch).adopted = none →
        Done (.loadingTimeout d ch) s (fun c => c.flag d (F.CHN_CH_STATUS_LOADING ch) = false ∧ OnlyRegs s.chip c ∧
          RegsBut (OneReg d (Reg.CHN_CH_STATUS ch)) s.chip c)) ∧
      (s.chip.flag d (F.CHN_CH_STATUS_LOADING ch) = false ∨ (s.chip.chan d ch).heard = true ∨
          (s.chip.chan d ch).adopted ≠ none →
        NoEffect (.loadingTimeout d ch) s)))

/-! ### Cues, pattern RAMs and the pad ring (R373 to R382, R388, R397 to R407) -/

/-- Cue words from the fabric or a register, words of a pattern RAM, the firing of a repetition, the end of its pattern, the
wake before it, and FLUSH (R373 to R382). The pad ring: PAD_RELEASE by command and by register, a pin turned off by its monitor
and on again by W1C, and a pair's word boundary (R388, R400 to R407). -/
def Obligations.PadsCuesAndPatterns : Prop :=
  ((∀ (s : State) (d : Die) (k : Fin 48) (v : W36) (fabric : Bool), s.chip.runs d = true →
      let i : Instr := if fabric then .cueWr d k v else .uioCuePush d k v
      let x := s.chip.cue d k
      let base := s.chip.wordStart d (k / 24)
      let only (c : Chip) (y : Cue) : Prop := c.cue d k = y ∧ SameBut (48 * d.val + k.val) s.chip.cues c.cues
      (s.chip.bankFed d (k / 24) = false → NoEffect (.cueWr d k v) s) ∧
      ((fabric = true → s.chip.bankFed d (k / 24) = true) →
        (s.chip.flag d (F.CHN_CUE_CFG_EN k) = false → NoEffect i s) ∧
        (s.chip.flag d (F.CHN_CUE_CFG_EN k) = true → x.skipOne = true → x.fifo.length < 64 → Done i s (fun c =>
          only c { x with skipOne := false } ∧ c = { s.chip with cues := c.cues })) ∧
        (s.chip.flag d (F.CHN_CUE_CFG_EN k) = true → 64 ≤ x.fifo.length → Done i s (fun c =>
          only c { x with skipOne := !x.skipOne && x.half.isNone } ∧ c.flag d (F.CHN_CUE_STAT_OVERRUN_SEEN k) = true ∧
          Logged s.chip c d Ev.cueOverrun k.val)) ∧
        (s.chip.flag d (F.CHN_CUE_CFG_EN k) = true → x.skipOne = false → x.fifo.length < 64 → x.half = none → Done i s (fun c =>
          only c { x with half := some v } ∧ c = { s.chip with cues := c.cues })) ∧
        (∀ w0, s.chip.flag d (F.CHN_CUE_CFG_EN k) = true → x.skipOne = false → x.fifo.length < 64 → x.half = some w0 →
          let y := { x with half := none, fifo := x.fifo ++ [(w0, v)] }
          (x.fifo ≠ [] ∨ s.chip.cueCompares d k = false → Done i s (fun c => only c y ∧ c = { s.chip with cues := c.cues })) ∧
          (∀ u h, x.fifo = [] → x.sending = none → x.lateLogged = false → s.chip.cueCompares d k = true → y.due = some u →
            atOrBeyond (s.chip.chnPos d (s.chip.fld d (F.CHN_CUE_CFG_CHANNEL k))) u = true →
            s.chip.flag d (F.CHN_CUE_CFG_LATE_POLICY k) = false → s.chip.patWord d (k / 24) (bits v 20 16) = (h, false) →
            Done i s (fun c =>
              (c.cue d k).sending = some {
                addr := bits v 20 16, len := bits h 0 16 + 1, base := base, masked := !s.chip.cueShown d k
                step := s.chip.stepAt d k base (64 * s.chip.now + 64 * s.chip.cueLat d k) } ∧
              c.fld d (F.CHN_CUE_STAT_LATE_COUNT k) = min (s.chip.fld d (F.CHN_CUE_STAT_LATE_COUNT k) + 1) 255 ∧
              Logged s.chip c d Ev.cueLate k.val))))) ∧
    (∀ (s : Chip) (d : Die) (k : Fin 48) (base at64 : Nat),
      let past := (at64 - 64 * base) * (8 * s.pairHz d k)
      past ≤ s.stepAt d k base at64 * 64000000000 ∧ s.stepAt d k base at64 * 64000000000 < past + 64000000000) ∧
    (∀ (s : State) (d : Die) (b : Fin 2) (a : BitVec 16) (v : W36), s.chip.runs d = true → s.chip.flipArmed d 5 b = false →
      (s.chip.bankFed d b = true → Done (.patWr d b a v) s (fun c => c.patWord d b a.toNat = (v, false) ∧
        ((∀ p, p < 24 → (s.chip.cue d (24 * b + p)).sending = none) →
          SameBut (patKey d b a.toNat) s.chip.patWords c.patWords ∧ c = { s.chip with patWords := c.patWords }))) ∧
      (s.chip.bankFed d b = false → NoEffect (.patWr d b a v) s) ∧
      ((∀ p, p < 24 → (s.chip.cue d (24 * b + p)).sending = none) → Done (.uioPatData d b v) s (fun c =>
        let at0 := s.chip.fld d (F.UIO_PAT_ADDR_ADDR b)
        c.patWord d b at0 = (v, false) ∧ c.fld d (F.UIO_PAT_ADDR_ADDR b) = (at0 + 1) % 65536 ∧
        SameBut (patKey d b at0) s.chip.patWords c.patWords ∧ c = { s.chip with patWords := c.patWords, regs := c.regs } ∧
        RegsBut (OneReg d (Reg.UIO_PAT_ADDR b)) s.chip c))) ∧
    (∀ (s : State) (d : Die) (k : Fin 48), s.chip.runs d = true →
      let x := s.chip.cue d k
      let base := s.chip.wordStart d (k / 24)
      let q := s.chip.chnPos d (s.chip.fld d (F.CHN_CUE_CFG_CHANNEL k))
      (∀ u w0 w1 rest, x.due = some u → x.fifo = (w0, w1) :: rest → x.sending = none → s.chip.cueCompares d k = true →
        atOrBeyond q u = true →
        (∀ h, s.chip.patWord d (k / 24) (bits w1 20 16) = (h, false) → Done (.cueFire d k) s (fun c =>
          (c.cue d k).sending = some {
            addr := bits w1 20 16, len := bits h 0 16 + 1, base := base, masked := !s.chip.cueShown d k
            step := s.chip.stepAt d k base
              (64 * s.chip.now + (s.chip.crossing d k u + 64 * s.chip.cueLat d k - 64 * s.chip.time d)) } ∧
          (x.reps < bits h 16 12 → (c.cue d k).fifo = x.fifo ∧ (c.cue d k).reps = x.reps + 1 ∧ (c.cue d k).header = some h) ∧
          (bits h 16 12 ≤ x.reps → (c.cue d k).fifo = rest ∧ (c.cue d k).reps = 0) ∧
          (s.chip.cueShown d k = false → c.flag d (F.CHN_CUE_STAT_MASKED_SEEN k) = true))) ∧
        (∀ h, s.chip.patWord d (k / 24) (bits w1 20 16) = (h, true) →
          (s.chip.patMems.get (2 * d + k / 24)).lastFail ≠ some (bits w1 20 16) → Done (.cueFire d k) s (fun c =>
            c.flag d (F.CHN_CUE_STAT_CHECK_SEEN k) = true ∧
            ((∀ u', x.popHead.due = some u' → atOrBeyond q u' = false) →
              (c.cue d k).fifo = rest ∧ (c.cue d k).sending = none ∧
              Logged s.chip c d Ev.cuePatternCheck (k + bits w1 20 16 * 2 ^ 6))))) ∧
      (x.fifo = [] ∨ x.sending ≠ none ∨ s.chip.cueCompares d k = false ∨ (∀ u, x.due = some u → atOrBeyond q u = false) →
        NoEffect (.cueFire d k) s) ∧
      (x.sending = none → NoEffect (.cuePatternEnd d k) s) ∧
      (x.sending ≠ none → s.chip.cueCompares d k = false → Done (.cuePatternEnd d k) s (fun c =>
        (c.cue d k).sending = none ∧ (c.cue d k).fifo = x.fifo)) ∧
      (∀ u, x.due = some u → s.chip.flag d (F.CHN_CUE_CFG_WAKE_EN k) = true → x.woken = false →
        s.chip.cueCompares d k = true → atOrBeyond q ((u + 2 ^ 56 - s.chip.fld d (F.CHN_CUE_CFG_LEAD k) * 256) % 2 ^ 56) = true →
        Done (.cuePreWake d k) s (fun c =>
          c.cue d k = { x with woken := true } ∧
          let dom := s.chip.fld d (F.CHN_CUE_CFG_WAKE_DOM k)
          (47 ≤ dom ∨ (dom < 16 ∧ s.chip.regionState d dom ≠ Rgn.sleeping) → c = { s.chip with cues := c.cues }))) ∧
      (s.chip.flag d (F.CHN_CUE_CFG_WAKE_EN k) = false ∨ x.woken = true → NoEffect (.cuePreWake d k) s)) ∧
    (∀ (s : State) (d : Die) (k : Fin 48) (v : W36), s.chip.runs d = true → Done (.flush d k v) s (fun c =>
      c.cue d k = { slips := (s.chip.cue d k).slips, lastSlip := (s.chip.cue d k).lastSlip
                    slipEdges := (s.chip.cue d k).slipEdges } ∧
      SameBut (48 * d.val + k.val) s.chip.cues c.cues ∧ c.flag d (F.CHN_CUE_CFG_EN k) = bit v 0 ∧
      c.fld d (F.CHN_CUE_CFG_CHANNEL k) = bits v 1 1 ∧ c.flag d (F.CHN_CUE_CFG_IDLE k) = bit v 2 ∧
      c.flag d (F.CHN_CUE_CFG_LATE_POLICY k) = bit v 3 ∧ c.flag d (F.CHN_CUE_CFG_WAKE_EN k) = bit v 4 ∧
      c.fld d (F.CHN_CUE_CFG_WAKE_DOM k) = bits v 5 6 ∧ c.fld d (F.CHN_CUE_CFG_LEAD k) = bits v 11 16 ∧
      ((s.chip.cue d k).sending = none →
        c = { s.chip with regs := c.regs, cues := c.cues } ∧ RegsBut (OneReg d (Reg.CHN_CUE_CFG k)) s.chip c)))) ∧
  ((∀ (s : State) (d : Die) (b : Fin 2) (v : W36), s.chip.runs d = true →
      let run (dom : Nat) : Prop := s.chip.domState d dom = 0 ∧ s.chip.domPhase d dom ≠ 2 ∧ s.chip.asleep d dom = false
      let free := run (Dom.bank b) ∧ run (bankRegion d b) ∧
        s.chip.flag d (F.CKM_SYN_STATUS_LOCK (s.chip.fld d (F.UIO_BANK_CFG_SYNTH b))) = true
      let released (c : Chip) : Prop := (c.bank d b).latched = false ∧ (c.bank d b).drive = 0 ∧
        c.fld d (F.UIO_BANK_STATUS_LATCH_CAUSE b) = 0 ∧ RegsBut (OneReg d (Reg.UIO_BANK_STATUS b)) s.chip c
      ((s.chip.bank d b).latched = false → NoEffect (.bankCtrlRelease d b v) s) ∧
      ((s.chip.bank d b).latched = true → free → Done (.bankCtrlRelease d b v) s (fun c => released c ∧
        c = { s.chip with regs := c.regs, banks := c.banks })) ∧
      ((s.chip.bank d b).latched = true → ¬ free → Done (.bankCtrlRelease d b v) s (fun c =>
        c.flag d (F.UIO_BANK_STATUS_REFUSED b) = true ∧ OnlyRegs s.chip c ∧
        RegsBut (OneReg d (Reg.UIO_BANK_STATUS b)) s.chip c)) ∧
      (∀ (p : Fin 5) (h : W36) (ws : List W36), Accepts s.chip p 0x280 h ws → cmdDie h = d.val → bits (ws.headD 0) 0 1 = b.val →
        ((s.chip.bank d b).latched = false → Done (.padRelease p) s (fun c => Replied c p h St.ok [] ∧ OnlyPort p s.chip c)) ∧
        ((s.chip.bank d b).latched = true → free → Done (.padRelease p) s (fun c => released c ∧ Replied c p h St.ok [] ∧
          OnlyPort p { s.chip with regs := c.regs, banks := c.banks } c)) ∧
        ((s.chip.bank d b).latched = true → ¬ free → Done (.padRelease p) s (fun c =>
          Replied c p h St.refused [] ∧ OnlyPort p s.chip c)))) ∧
    (∀ (s : State) (d : Die) (b : Fin 2) (pin : Fin 48), s.chip.runs d = true →
      let k := pinPair b pin
      let limit := s.chip.fld d (F.UIO_BANK_CFG_SHORT_LIMIT b)
      let watched := s.chip.flag d (F.UIO_PAIR_HM_EN k) = true ∧ limit ≠ 0 ∧ s.chip.shorted d b pin = false ∧
        (s.chip.pinOut d b pin).1 = true
      (¬ watched → NoEffect (.uioShort d b pin) s) ∧
      (watched → Done (.uioShort d b pin) s (fun c =>
        (∀ q : Fin 48, c.shorted d b q = (s.chip.shorted d b q || decide (q = pin) ||
          (s.chip.flag d (F.UIO_PAIR_DIFF k) && decide (q.val = 2 * (pin.val / 2) + 1 - pin.val % 2)))) ∧
        c.fld d (if pin.val % 2 = 0 then F.UIO_PAIR_STAT_PEAK_P k else F.UIO_PAIR_STAT_PEAK_N k) =
          max (s.chip.fld d (if pin.val % 2 = 0 then F.UIO_PAIR_STAT_PEAK_P k else F.UIO_PAIR_STAT_PEAK_N k)) limit ∧
        c.flag d (F.UIO_BANK_STATUS_SHORT_SEEN b) = true ∧ Logged s.chip c d Ev.uioShort (b.val + pin.val * 2)))) ∧
    (∀ (s : State) (d : Die) (b : Fin 2) (hi : Bool) (v : W36), s.chip.runs d = true → Done (.uioShortClear d b hi v) s (fun c =>
      (∀ q : Fin 48, c.shorted d b q = (s.chip.shorted d b q &&
        !(if q.val < 36 then !hi && v.getLsbD q.val else hi && v.getLsbD (q.val - 36)))) ∧
      (∀ q : Fin 48, c.health.get (pinKey d b q) =
        if (if q.val < 36 then !hi && v.getLsbD q.val else hi && v.getLsbD (q.val - 36)) then (0, 0)
        else s.chip.health.get (pinKey d b q)) ∧
      c = { s.chip with regs := c.regs, health := c.health } ∧
      RegsBut (OneReg d (if hi then Reg.UIO_SHORT_HI b else Reg.UIO_SHORT_LO b)) s.chip c)) ∧
    (∀ (s : State) (d : Die) (k : Fin 48), s.chip.runs d = true →
      let x := s.chip.cue d k
      let p := 2 * (k.val % 24)
      let isIn (pin : Nat) : Prop := s.chip.pinMode d (k / 24) pin = .user ∧ s.chip.pinFunc d (k / 24) pin = 0
      (s.chip.bankFed d (k / 24) = true → (isIn p ∨ isIn (p + 1)) →
        (∀ t, x.lastSlip = some t → 4000000000 < (s.chip.now - t) * s.chip.wordHz d (k / 24) ∨ 4 ≤ x.slipEdges) →
        Done (.slip d k) s (fun c =>
          c.cue d k = { x with slips := x.slips + 1, lastSlip := some s.chip.now, slipEdges := 0 } ∧
          SameBut (48 * d.val + k.val) s.chip.cues c.cues ∧ c = { s.chip with cues := c.cues })) ∧
      (s.chip.bankFed d (k / 24) = false ∨ ¬ (isIn p ∨ isIn (p + 1)) ∨
          (∃ t, x.lastSlip = some t ∧ (s.chip.now - t) * s.chip.wordHz d (k / 24) ≤ 4000000000 ∧ x.slipEdges < 4) →
        NoEffect (.slip d k) s)))

/-! ### Transceivers and Ethernet (R412 to R445) -/

/-- A group that stays out of DISABLED and out of LOOPBACK: every lane enabled, the PLL locked, its domain running, no LOOP set. -/
def groupUp (s : Chip) (d q l : Nat) : Prop :=
  s.groupOn d q (s.groupOf d q l) = true ∧ ∀ x ∈ s.groupOf d q l, s.fld d (F.XCV_LANE_CFG_LOOP q x) = 0

/-- Where a group stands that has passed DETECT: in LOCK where no lane trains, else in TRAIN (R430). -/
def afterDetect (s : Chip) (d q l : Nat) : Nat :=
  if (s.groupOf d q l).all (fun x => s.fld d (F.XCV_LANE_CFG_TRAIN_KIND q x) % 3 == 0) then 3 else 2

/-- Where a group stands that enters DETECT: it waits there unless no lane detects and no key is missing (R430, R464). -/
def fromDetect (s : Chip) (d q l : Nat) : Nat :=
  if (s.groupOf d q l).all (fun x => s.fld d (F.XCV_LANE_CFG_DETECT_KIND q x) % 3 == 0) && !s.keyMissing d q then
    afterDetect s d q l else 1

/-- What a bring-up failure leaves: its cause and count on every lane, the wait before the next attempt, and its first one logged. -/
def groupFailed (a c : Chip) (d q l cause : Nat) : Prop :=
  (∀ x ∈ a.groupOf d q l, c.fld d (F.XCV_LANE_STATUS_LAST_FAIL q x) = cause ∧
    c.fld d (F.XCV_LANE_STATUS_FAILS q x) = min (a.fld d (F.XCV_LANE_STATUS_FAILS q x) + 1) 4095 ∧
    (c.lane d q x).retryWait = true ∧ c.laneState d q x = a.laneState d q x) ∧
  ((a.lane d q l).failLogged = false → Logged a c d Ev.xcvBringupFail (q + l * 2 ^ 3 + cause * 2 ^ 5)) ∧
  ((a.lane d q l).failLogged = true → c.log = a.log)

/-- The events of a quad's PLL and of a lane group, row by row: lock and loss of the PLL, detection, training, locking, exchange, the
failures of an attempt, the wait after one, loss of lock, RETRAIN and BITSLIP (R414, R419, R430 to R433, R448). -/
def Obligations.LaneGroups : Prop :=
  (∀ (s : State) (d : Die) (q : Fin 8) (ref : BitVec 32), s.chip.runs d = true →
    let f2 := ref.toNat * s.chip.fld d (F.XCV_QUAD_CFG_NX2 q)
    let lawful := s.chip.flag d (F.XCV_QUAD_CFG_PLL_EN q) = true ∧ 100000000 ≤ ref.toNat ∧ ref.toNat ≤ 312500000 ∧
      14000000000 ≤ f2 ∧ f2 ≤ 28125000000
    (lawful → Done (.pllLock d q ref) s (fun c => c.flag d (F.XCV_QUAD_STATUS_PLL_LOCK q) = true ∧
      c.flag d (F.XCV_QUAD_STATUS_REF_OK q) = true ∧ c.refHz d q = ref.toNat)) ∧
    (¬ lawful → NoEffect (.pllLock d q ref) s) ∧
    (s.chip.flag d (F.XCV_QUAD_CFG_PLL_EN q) = true → s.chip.flag d (F.XCV_QUAD_STATUS_PLL_LOCK q) = true →
      Done (.xcvPllLost d q) s (fun c => c.flag d (F.XCV_QUAD_STATUS_PLL_LOCK q) = false ∧
        c.flag d (F.XCV_QUAD_STATUS_PLL_LOST q) = true ∧ (∀ l : Fin 4, c.laneState d q l = 0) ∧
        (q.val % 4 ≠ 0 → Logged s.chip c d Ev.xcvPllLost q.val))) ∧
    (s.chip.flag d (F.XCV_QUAD_CFG_PLL_EN q) = false ∨ s.chip.flag d (F.XCV_QUAD_STATUS_PLL_LOCK q) = false →
      NoEffect (.xcvPllLost d q) s)) ∧
  (∀ (s : State) (d : Die) (q : Fin 8) (l : Fin 4), s.chip.runs d = true →
    let lanes := s.chip.groupOf d q l
    let st := s.chip.laneState d q l
    let waits := (s.chip.lane d q l).retryWait
    (groupUp s.chip d q l → st = 1 → waits = false → s.chip.keyMissing d q = false → Done (.detectDone d q l) s (fun c =>
      ∀ x ∈ lanes, c.laneState d q x = afterDetect s.chip d q l)) ∧
    (st ≠ 1 ∨ waits = true ∨ s.chip.keyMissing d q = true → NoEffect (.detectDone d q l) s) ∧
    (st = 2 → waits = false → Done (.trainTimeout d q l) s (fun c => groupFailed s.chip c d q l 1)) ∧
    (st ≠ 2 ∨ waits = true → NoEffect (.trainTimeout d q l) s) ∧
    (st = 3 → waits = false → Done (.lockTimeout d q l) s (fun c => groupFailed s.chip c d q l 3)) ∧
    (st = 4 → waits = false → Done (.lockTimeout d q l) s (fun c => groupFailed s.chip c d q l 4)) ∧
    ((st ≠ 3 ∧ st ≠ 4) ∨ waits = true → NoEffect (.lockTimeout d q l) s) ∧
    (groupUp s.chip d q l → waits = true → Done (.retryWaitExpire d q l) s (fun c =>
      ∀ x ∈ lanes, c.laneState d q x = fromDetect s.chip d q l ∧ (c.lane d q x).retryWait = false)) ∧
    (waits = false → NoEffect (.retryWaitExpire d q l) s) ∧
    (st = 5 → Done (.xcvLockLost d q l) s (fun c =>
      (∀ x ∈ lanes, c.laneState d q x = 3 ∧ c.fld d (F.XCV_LANE_STATUS_LAST_FAIL q x) = 5) ∧
      c.flag d (F.XCV_LANE_STATUS_WORD_LOCK q l) = false ∧
      (q.val % 4 ≠ 0 → Logged s.chip c d Ev.xcvLockLost (q.val + l.val * 8)))) ∧
    (st ≠ 5 → NoEffect (.xcvLockLost d q l) s)) ∧
  (∀ (s : State) (d : Die) (q : Fin 8) (l : Fin 4) (inverted : BitVec 4) (order : BitVec 8) (lat : BitVec 10),
    s.chip.runs d = true → s.chip.laneState d q l = 2 → (s.chip.lane d q l).retryWait = false →
    let lanes := s.chip.groupOf d q l
    let n := lanes.length
    let straight := lanes.all (fun x => bits order (2 * x) 2 == x % n)
    let turned := lanes.all (fun x => bits order (2 * x) 2 == n - 1 - x % n)
    let native := s.chip.fld d (F.XCV_LANE_CFG_TRAIN_KIND q l) = 1
    (native → straight = false → turned = false → Done (.trainingComplete d q l inverted order lat) s (fun c =>
      groupFailed s.chip c d q l 2)) ∧
    (groupUp s.chip d q l → (native → straight = true ∨ turned = true) →
      Done (.trainingComplete d q l inverted order lat) s (fun c =>
        (∀ x ∈ lanes, c.laneState d q x = 3 ∧
          c.flag d (F.XCV_LANE_CFG_RX_INV q x) = (inverted.getLsbD x || s.chip.flag d (F.XCV_LANE_CFG_RX_INV q x))) ∧
        (native → (c.fld d (F.XCV_QUAD_STATUS_REVERSED q)).testBit (l / n) = !straight) ∧
        (s.chip.flag d (F.XCV_QUAD_CFG_KARN q) = true → c.fld d (F.KRN_LINK_STATUS_LAT (q / 2)) = lat.toNat)))) ∧
  (∀ (s : State) (d : Die) (q : Fin 8) (l : Fin 4) (slips : BitVec 28) (probes : List (Fin 65 × Fin 65)), s.chip.runs d = true →
    s.chip.laneState d q l = 3 → (s.chip.lane d q l).retryWait = false →
    let lanes := s.chip.groupOf d q l
    let result (x : Nat) : Bool × Bool := s.chip.probe d q x ((probes[x]?).getD (0, 0)).1 ((probes[x]?).getD (0, 0)).2
    (groupUp s.chip d q l → (∀ x ∈ lanes, (result x).1 = true) → Done (.lockDone d q l slips probes) s (fun c =>
      ∀ x ∈ lanes, c.flag d (F.XCV_LANE_STATUS_CDR_LOCK q x) = true ∧ c.flag d (F.XCV_LANE_STATUS_WORD_LOCK q x) = true ∧
        c.flag d (F.XCV_LANE_CFG_RX_INV q x) = ((result x).2 || s.chip.flag d (F.XCV_LANE_CFG_RX_INV q x)) ∧
        (s.chip.flag d (F.XCV_LANE_CFG_ALIGN q x) = false → c.fld d (F.XCV_LANE_STATUS_SLIP q x) =
          bits slips (7 * x) 7 % lineBits (s.chip.lanePcs d q x) (s.chip.laneWidth d q x)) ∧
        c.laneState d q x =
          if s.chip.ethMode d q ≠ 0 ∨ ∀ y ∈ lanes, s.chip.flag d (F.XCV_LANE_CFG_EXCH_KIND q y) = false then 5 else 4)) ∧
    ((∃ x ∈ lanes, (result x).1 = false) → NoEffect (.lockDone d q l slips probes) s)) ∧
  (∀ (s : State) (d : Die) (q : Fin 8) (l : Fin 4) (dev : BitVec 11) (link : BitVec 4) (enc : Bool) (keyId : BitVec 16)
      (assign : BitVec 11) (unnumbered : Bool), s.chip.runs d = true → s.chip.cfg.mode ≠ 5 →
    let i : Instr := .exchangeDone d q l dev link enc keyId assign unnumbered
    let k := q.val / 2
    let keyed := ∃ key, (s.chip.link d k).active = some key ∧ key.id = keyId.toNat
    let agrees := enc = s.chip.flag d (F.KRN_LINK_CFG_ENC k) ∧ (enc = true → keyed) ∧
      (dev.toNat ≠ s.chip.ownDevice ∨ unnumbered = true ∨ s.chip.flag 0 F.KRN_DEVNUM_UNNUMBERED = true)
    (s.chip.laneState d q l ≠ 4 ∨ (s.chip.lane d q l).retryWait = true → NoEffect i s) ∧
    (s.chip.laneState d q l = 4 → (s.chip.lane d q l).retryWait = false →
      (s.chip.flag d (F.XCV_QUAD_CFG_KARN q) = false → Done i s (fun c =>
        ∀ x ∈ s.chip.groupOf d q l, c.laneState d q x = 5 ∧ (c.lane d q x).live = true)) ∧
      (s.chip.flag d (F.XCV_QUAD_CFG_KARN q) = true → ¬ agrees → Done i s (fun c => groupFailed s.chip c d q l 4)) ∧
      (s.chip.flag d (F.XCV_QUAD_CFG_KARN q) = true → agrees → Done i s (fun c =>
        (∀ x : Fin 4, c.laneState d q x = 5) ∧ c.linkUp d k = true ∧ c.fld d (F.KRN_LINK_STATUS_PEER_DEV k) = dev.toNat ∧
        c.fld d (F.KRN_LINK_STATUS_PEER_LINK k) = link.toNat ∧ (s.chip.linkUp d k = false → (c.link d k).credits = 256) ∧
        (s.chip.flag 0 F.KRN_DEVNUM_UNNUMBERED = true → d = 0 → k = 0 → assign ≠ 0x7FF →
          c.ownDevice = assign.toNat ∧ c.flag 0 F.KRN_DEVNUM_UNNUMBERED = false))))) ∧
  (∀ (s : State) (d : Die) (q : Fin 8) (l : Fin 4) (v : W36), s.chip.runs d = true →
    (s.chip.flag d (F.XCV_QUAD_CFG_KARN q) = true → ∀ i ∈ [Instr.xcvRetrain d q l v, Instr.bitslip d q l v], Done i s (fun c =>
      c.flag d (F.XCV_QUAD_STATUS_REFUSED q) = true ∧ OnlyRegs s.chip c ∧ RegsBut (OneReg d (Reg.XCV_QUAD_STATUS q)) s.chip c)) ∧
    (s.chip.flag d (F.XCV_QUAD_CFG_KARN q) = false → bit v 0 = false → groupUp s.chip d q l → s.chip.laneState d q l = 5 →
      Done (.xcvRetrain d q l v) s (fun c => ∀ x ∈ s.chip.groupOf d q l, c.laneState d q x = fromDetect s.chip d q l)) ∧
    (s.chip.flag d (F.XCV_QUAD_CFG_KARN q) = false → bit v 0 = false → s.chip.laneState d q l ≠ 5 →
      NoEffect (.xcvRetrain d q l v) s) ∧
    (s.chip.flag d (F.XCV_QUAD_CFG_KARN q) = false → bit v 1 = false →
      (s.chip.flag d (F.XCV_LANE_CFG_ALIGN q l) = true → Done (.bitslip d q l v) s (fun c =>
        c.fld d (F.XCV_LANE_STATUS_SLIP q l) = (s.chip.fld d (F.XCV_LANE_STATUS_SLIP q l) + 1) %
          lineBits (s.chip.lanePcs d q l) (s.chip.laneWidth d q l) ∧
        OnlyRegs s.chip c ∧ RegsBut (OneReg d (Reg.XCV_LANE_STATUS q l)) s.chip c)) ∧
      (s.chip.flag d (F.XCV_LANE_CFG_ALIGN q l) = false → NoEffect (.bitslip d q l v) s)))

/-- Words on the lanes and frames at the MACs: words stored while there is room, received words presented, frames timed, counted,
consumed as PAUSE or dropped (R417, R427, R437 to R442). -/
def Obligations.LaneWordsAndFrames : Prop :=
  (∀ (s : State) (d : Die) (q : Fin 8) (l : Fin 4) (w : BitVec 72), s.chip.runs d = true →
    let x := s.chip.lane d q l
    let key := (8 * d.val + q.val) * 4 + l.val
    (s.chip.quadFed d q = true → s.chip.laneState d q l = 5 → x.txFifo.length < 16 → Done (.laneTxWord d q l w) s (fun c =>
      c.lane d q l = { x with txFifo := x.txFifo ++ [w] } ∧ SameBut key s.chip.lanes c.lanes ∧ c = { s.chip with lanes := c.lanes })) ∧
    (s.chip.quadFed d q = false ∨ (s.chip.laneState d q l ≠ 5 ∧ s.chip.laneState d q l ≠ 6) ∨ 16 ≤ x.txFifo.length →
      NoEffect (.laneTxWord d q l w) s)) ∧
  (∀ (s : State) (d : Die) (q : Fin 8) (l : Fin 4) (w : BitVec 80), s.chip.runs d = true →
    let x := s.chip.lane d q l
    let key := (8 * d.val + q.val) * 4 + l.val
    let v := if s.chip.flag d (F.XCV_LANE_CFG_RX_INV q l) then ~~~w else w
    let r := s.chip.decoded d q l (s.chip.framed d q l v)
    (s.chip.laneState d q l = 5 → s.chip.ethMode d q = 0 → s.chip.flag d (F.XCV_QUAD_CFG_KARN q) = false →
      s.chip.fld d (F.XCV_LANE_CFG_PRBS q l) = 0 → x.errs = [] → r.2.1 < 8 → Done (.laneRxWord d q l w) s (fun c =>
        (x.shown = none → x.rxFifo = [] → (c.lane d q l).shown = some r.1 ∧ (c.lane d q l).rxFifo = []) ∧
        (x.shown ≠ none ∨ x.rxFifo ≠ [] → (c.lane d q l).shown = x.shown ∧
          (c.lane d q l).rxFifo = (if x.rxFifo.length < 16 then x.rxFifo ++ [r.1] else x.rxFifo)) ∧
        c.fld d (F.XCV_LANE_ERR_CODE_ERR q l) = min (s.chip.fld d (F.XCV_LANE_ERR_CODE_ERR q l) + r.2.1) (2 ^ 24 - 1) ∧ (c.lane d q l).prev = v ∧
        SameBut key s.chip.lanes c.lanes ∧ c = { s.chip with lanes := c.lanes, regs := c.regs } ∧
        RegsBut (OneReg d (Reg.XCV_LANE_ERR q l)) s.chip c)) ∧
    (s.chip.laneState d q l ≠ 5 → s.chip.laneState d q l ≠ 6 → NoEffect (.laneRxWord d q l w) s)) ∧
  (∀ (s : State) (d : Die) (m : Fin 2) (sub : Fin 4) (w : ClientWord), s.chip.runs d = true →
    let p := s.chip.ethPort d m sub
    let x := s.chip.sub d m p
    (s.chip.macFed d m = false → NoEffect (.macTxWord d m sub w) s) ∧
    (s.chip.macFed d m = true → x.txq.length + 4 ≤ s.chip.ethDepth d m → Done (.macTxWord d m sub w) s (fun c =>
      c.sub d m p = { x with txq := x.txq ++ [w] } ∧ SameBut (subKey d m p) s.chip.subs c.subs ∧
      c = { s.chip with subs := c.subs })) ∧
    (s.chip.macFed d m = true → s.chip.ethDepth d m < x.txq.length + 4 → Done (.macTxWord d m sub w) s (fun c =>
      c.fld d (F.ETH_STAT_COUNT m p 3) = (s.chip.fld d (F.ETH_STAT_COUNT m p 3) + 1) % 2 ^ 36 ∧ OnlyRegs s.chip c ∧
      RegsBut (OneReg d (Reg.ETH_STAT m p 3)) s.chip c)) ∧
    (∀ v rest, x.cur = none → x.txq = v :: rest → v.sop = true → asksTime v = true → s.chip.mayStart d m p = true →
      v.eop = false → let t := tsAdjust (s.chip.time d) (s.chip.fld d (F.ETH_TS_ADJ_TX m))
      Done (.txTimestamp d m sub) s (fun c =>
        (c.sub d m p).cur = some (clientOctets v) ∧ (c.sub d m p).txq = rest ∧
        (v.tsReq = 1 → (s.chip.macs.get (2 * d + m)).tsShown = none →
          (c.macs.get (2 * d + m)).tsShown = some (p, v.tsTag.toNat, t)) ∧
        (v.tsReq = 1 → (s.chip.macs.get (2 * d + m)).tsShown ≠ none →
          (c.macs.get (2 * d + m)).tsq = (s.chip.macs.get (2 * d + m)).tsq ++ [(p, v.tsTag.toNat, t)]) ∧
        (v.tsReq = 2 → (c.sub d m p).step = some (t, v.tsOff.toNat) ∧ c.macs = s.chip.macs))) ∧
    (x.cur ≠ none ∨ x.txq = [] ∨ s.chip.mayStart d m p = false → NoEffect (.txTimestamp d m sub) s)) ∧
  (∀ (s : State) (d : Die) (m : Fin 2) (sub : Fin 4) (os : List (BitVec 8)) (pcsBad : Bool) (fixed bad : Nat) (ago : BitVec 16),
    s.chip.runs d = true →
    let p := s.chip.ethPort d m sub
    let i : Instr := .macRxFrame d m sub os pcsBad fixed bad ago
    let fcsGood := fcsOctets (crc32 (os.take (os.length - 4))) = os.drop (os.length - 4)
    let stat (c : Chip) (n k : Nat) : Prop := c.fld d (F.ETH_STAT_COUNT m p n) = (s.chip.fld d (F.ETH_STAT_COUNT m p n) + k) % 2 ^ 36
    ((s.chip.fld d (F.ETH_STATUS_LINK m)).testBit p = false → NoEffect i s) ∧
    ((s.chip.fld d (F.ETH_STATUS_LINK m)).testBit p = true → Done i s (fun c =>
      stat c 5 os.length ∧ (¬ fcsGood → stat c 6 1) ∧ (fcsGood → stat c 6 0) ∧
      (s.chip.fld d (F.ETH_CFG_MAXLEN m) < os.length → stat c 7 1) ∧ (os.length < 64 → stat c 8 1) ∧
      (¬ fcsGood ∨ pcsBad = true → s.chip.flag d (F.ETH_CFG_DROP_BAD m) = true → c.macs = s.chip.macs ∧ stat c 4 0) ∧
      (fcsGood → pcsBad = false → (s.chip.fld d (F.ETH_CFG_FEC m)).testBit p = false → 64 ≤ os.length →
        os.length ≤ s.chip.fld d (F.ETH_CFG_MAXLEN m) → stat c 4 1 ∧
        (pauseQuanta os = none → (s.chip.macs.get (2 * d + m)).shown = none → (s.chip.macs.get (2 * d + m)).rxq = [] →
          os.length < 4096 →
          let shown := if s.chip.flag d (F.ETH_CFG_FCS_STRIP m) then os.take (os.length - 4) else os
          let t := tsAdjust (s.chip.time d - ago.toNat) (s.chip.fld d (F.ETH_TS_ADJ_RX m))
          ∃ w rest, frameWords p t false true (shown.length + 1) shown = w :: rest ∧ w.sop = true ∧ w.port = p ∧ w.ts = t ∧
            (c.macs.get (2 * d + m)).shown = some w ∧ (c.macs.get (2 * d + m)).rxq = rest) ∧
        (∀ n, pauseQuanta os = some n → s.chip.flag d (F.ETH_CFG_PAUSE_EN m) = true →
          (c.fld d (F.ETH_STATUS_PAUSED m)).testBit p = (n != 0) ∧ stat c 10 1 ∧ c.macs = s.chip.macs)))) ∧
    Done (.pauseQuantaExpire d m sub) s (fun c =>
      (∀ x : Fin 4, (c.fld d (F.ETH_STATUS_PAUSED m)).testBit x =
        (decide (x ≠ sub) && (s.chip.fld d (F.ETH_STATUS_PAUSED m)).testBit x)) ∧
      OnlyRegs s.chip c ∧ RegsBut (OneReg d (Reg.ETH_STATUS m)) s.chip c))

/-! ### Karn links (R446 to R464) -/

/-- Frames and flits of a link: what a received frame leaves (taken, out of sequence, with a bad CRC, with a bad tag), and how the
oldest buffered flit enters the network or is refused by the KRN port's authority; u is the state in which the router's port has its
turn (R452, R453, R457, R463, R464). -/
def Obligations.KarnFramesAndIngress : Prop :=
  (∀ (s : State) (d : Die) (k : Fin 4) (f : KarnFrame), s.chip.runs d = true →
    let x := s.chip.link d k
    let good := karnCrc (bits f.ctrl 0 32) f.slots = BitVec.ofNat 32 (bits f.ctrl 32 32) ∧
      validCount (KarnCtl.valid f.ctrl) = f.slots.length
    let next := ∀ l, x.lastSeq = some l → (KarnCtl.fseq f.ctrl + 2 ^ 15 - l) % 2 ^ 15 = 1
    let own := KarnCtl.phase f.ctrl = s.chip.fld d (F.KRN_LINK_STATUS_KEY_PHASE k)
    let key := if own then x.active else x.pending
    let count := match key with
      | some y => if KarnCtl.phase f.ctrl = x.rxPhase then y.rx else 0
      | none => 0
    let sealed := s.chip.flag d (F.KRN_LINK_CFG_ENC k) = true ∧ f.slots ≠ []
    let stat (c : Chip) (n m : Nat) : Prop :=
      c.fld d (F.KRN_LINK_STAT_COUNT k n) = (s.chip.fld d (F.KRN_LINK_STAT_COUNT k n) + m) % 2 ^ 36
    let taken (c : Chip) (slots : List (BitVec 256)) : Prop :=
      (c.link d k).rxBuf = (x.rxBuf ++ slots.map (flitOf (karnRouter (4 * d + k)))).take 256 ∧
      (c.link d k).credits = (if KarnCtl.fseq f.ctrl % 1024 = 0 then KarnCtl.credit f.ctrl
        else min 256 (x.credits + KarnCtl.credit f.ctrl)) ∧
      (c.link d k).lastSeq = some (KarnCtl.fseq f.ctrl) ∧ stat c 1 slots.length ∧ c.log = s.chip.log
    let left (c : Chip) : Prop := (c.link d k).rxBuf = x.rxBuf ∧ (c.link d k).credits = x.credits
    (s.chip.linkUp d k = false → NoEffect (.karnFrame d k f) s) ∧
    (s.chip.linkUp d k = true → ¬ good → Done (.karnFrame d k f) s (fun c => stat c 2 1 ∧ c.karn = s.chip.karn ∧
      OnlyRegs s.chip c ∧ RegsBut (OneReg d (Reg.KRN_LINK_STAT k 2)) s.chip c)) ∧
    (s.chip.linkUp d k = true → good → ¬ next → Done (.karnFrame d k f) s (fun c =>
      stat c 2 1 ∧ left c ∧ (c.link d k).lastSeq = some (KarnCtl.fseq f.ctrl))) ∧
    (s.chip.linkUp d k = true → good → next → ¬ sealed → Done (.karnFrame d k f) s (fun c => taken c f.slots)) ∧
    (∀ slots, s.chip.linkUp d k = true → good → next → sealed → openFrame key count f = some slots →
      Done (.karnFrame d k f) s (fun c => taken c slots)) ∧
    (s.chip.linkUp d k = true → good → next → sealed → openFrame key count f = none → Done (.karnFrame d k f) s (fun c =>
      stat c 3 1 ∧ left c ∧ Logged s.chip c d Ev.krnAuthFail k.val ∧
      (x.tagFails.length < 7 → c.linkUp d k = true)))) ∧
  (∀ (s : State) (d : Die) (k : Fin 4), (s.chip.link d k).rxBuf = [] → NoEffect (.karnIngressInject d k) s) ∧
  (∀ (s : State) (d : Die) (k : Fin 4) (u : Chip) (fl : Flight) (r : List Flight), s.chip.runs d = true →
    let router := karnRouter (4 * d + k)
    u = s.chip.takeTurn router 3 → (s.chip.link d k).rxBuf = fl :: r →
    let i : Instr := .karnIngressInject d k
    let f := fl.flit
    let age := min 255 (fl.age + (u.fld d (F.KRN_LINK_STATUS_LAT k) + 15) / 16)
    let admitted := (u.portAuth Port.krn = 0 → f.typ = Typ.cmd ∧ f.last = true ∧ loadMessage f.w2 = true) ∧
      (u.portAuth Port.krn = 1 → f.typ = Typ.cmd)
    let left (c : Chip) : Prop := c.link d k = { u.link d k with rxBuf := r, freed := (u.link d k).freed + 1 } ∧
      SameBut (4 * d.val + k.val) u.karn c.karn
    let refusal : Flit := Flit.seal {
      w0 := head0 f.srcDev f.srcRouter f.srcPort Typ.unreachable f.flow, w1 := head1 u.ownDevice router 3 0 true false
      w2 := f.w0, w3 := f.w1, w4 := word 2 }
    (¬ admitted → isAnswer f.typ = true ∨ f.typ = Typ.readResp → Done i s (fun c => left c ∧ c = { u with karn := c.karn })) ∧
    (¬ admitted → isAnswer f.typ = false → f.typ ≠ Typ.readResp → refusal.dstDev = u.ownDevice →
      refusal.dstRouter ≠ router → ∀ p n, u.route router refusal = .dir p → bundleAt router p = none → neighbour router p = some n →
      (u.portFree router p = true → Done i s (fun c => left c ∧
        c.flights = u.flights ++ [{ flit := refusal, router := n, inPort := (p + 2) % 4, age := 0 }] ∧
        (c.useOf router).ports = p :: (u.useOf router).ports ∧ SameBut router u.ncUse c.ncUse ∧
        c.fld (dieOf router) (F.NOC_STAT_COUNT 7) = (u.fld (dieOf router) (F.NOC_STAT_COUNT 7) + 1) % 2 ^ 36 ∧
        NewestIs c (dieOf router) Ev.nocBadPort (f.srcRouter + f.srcPort * 2 ^ 8 + f.dstRouter * 2 ^ 11 + f.dstPort * 2 ^ 19 +
          2 * 2 ^ 22))) ∧
      (u.portFree router p = false → Done i s (fun c => c = u))) ∧
    (∀ p n, admitted → f.syndrome 0 = 0 → f.syndrome 1 = 0 → f.typ ≠ 15 → u.route router f = .dir p →
      bundleAt router p = none → neighbour router p = some n →
      (u.portFree router p = true → Done i s (fun c => left c ∧
        c.flights = u.flights ++ [{ flit := f, router := n, inPort := (p + 2) % 4, age := age }] ∧
        (c.useOf router).ports = p :: (u.useOf router).ports ∧ SameBut router u.ncUse c.ncUse ∧
        c = { u with karn := c.karn, flights := c.flights, ncUse := c.ncUse })) ∧
      (u.portFree router p = false → Done i s (fun c => c = u))) ∧
    (∀ c', admitted → f.syndrome 0 = 0 → f.syndrome 1 = 0 → f.typ ≠ 15 → u.route router f = .eject →
      ((u.useOf router).locals.contains f.dstPort = true → Done i s (fun c => c = u)) ∧
      ((u.useOf router).locals.contains f.dstPort = false → u.eject router f = (c', .gone) → Done i s (fun c =>
        (c.link d k).rxBuf = r ∧ (c.useOf router).locals = f.dstPort :: (c'.useOf router).locals ∧
        c = { c' with karn := c.karn, ncUse := c.ncUse }))))

/-- Keys, numbering and what devices tell each other: KEY_SWITCH and LINK_KEY, the device number, the messages of a boot, and device time
and position across a link (R458 to R464). -/
def Obligations.KarnKeysAndMessages : Prop :=
  (∀ (s : State) (d : Die) (k : Fin 4) (v : W36), s.chip.runs d = true →
    bits v 0 2 = bits (s.chip.reg d (Reg.KRN_LINK_CFG k)) 0 2 →
    (∀ key, (s.chip.link d k).pending = some key → Done (.keySwitch d k v) s (fun c =>
      (c.link d k).active = some { key with tx := 0 } ∧ (c.link d k).pending = (s.chip.link d k).active ∧
      c.fld d (F.KRN_LINK_STATUS_KEY_PHASE k) = 1 - s.chip.fld d (F.KRN_LINK_STATUS_KEY_PHASE k) ∧
      c.flag d (F.KRN_LINK_STATUS_KEY_OK k) = true)) ∧
    ((s.chip.link d k).pending = none → Done (.keySwitch d k v) s (fun c =>
      c.flag d (F.KRN_LINK_CFG_ENC k) = bit v 2 ∧ c.flag d (F.KRN_LINK_CFG_TIME_TX k) = bit v 4 ∧
      c.flag d (F.KRN_LINK_CFG_POS_TX k) = bit v 5 ∧ c.fld d (F.KRN_LINK_CFG_PEER_NUM k) = bits v 6 11 ∧
      OnlyRegs s.chip c ∧ RegsBut (OneReg d (Reg.KRN_LINK_CFG k)) s.chip c))) ∧
  (∀ (s : State) (p : Fin 5) (h : W36) (ws : List W36), Accepts s.chip p 0x386 h ws → s.chip.dieInReset (cmdDie h) = false →
    Done (.linkKey p) s (fun c =>
      let w := ws.headD 0
      (∃ key : KarnKey, (c.link (cmdDie h) (bits w 0 2)).pending = some key ∧ key.id = bits w 2 16 ∧ key.tx = 0 ∧ key.rx = 0 ∧
        key.salt.toNat = bits (ws.getD 9 0) 0 32 ∧ ∀ i : Fin 8, bits key.key (32 * (7 - i.val)) 32 = bits (ws.getD (i.val + 1) 0) 0 32) ∧
      (c.link (cmdDie h) (bits w 0 2)).active = (s.chip.link (cmdDie h) (bits w 0 2)).active ∧
      (c.link (cmdDie h) (bits w 0 2)).needKey = false ∧ Replied c p h St.ok [] ∧
      (s.chip.flag (cmdDie h) (F.XCV_QUAD_CFG_KARN (2 * bits w 0 2 + 1)) = false →
        OnlyPort p { s.chip with karn := c.karn } c))) ∧
  (∀ (s : State) (d : Die) (v : W36), s.chip.runs d = true →
    (d = 0 → (∀ l, l < 16 → s.chip.karnActive l = false) → Done (.krnDevnumWrite d v) s (fun c =>
      c.ownDevice = bits v 0 11 ∧ OnlyRegs s.chip c ∧ RegsBut (OneReg 0 Reg.KRN_DEVNUM) s.chip c)) ∧
    ((d ≠ 0 ∨ ∃ l, l < 16 ∧ s.chip.karnActive l = true) → Done (.krnDevnumWrite d v) s (fun c =>
      c.flag d F.KRN_DEVNUM_REFUSED = true ∧ c.ownDevice = s.chip.ownDevice ∧ OnlyRegs s.chip c))) ∧
  (∀ s : State, Done .krnTimeSend s (fun c => c = { s.chip with karn := c.karn } ∧ ∀ (d : Die) (k : Fin 4),
    c.link d k = if s.chip.flag d (F.KRN_LINK_CFG_TIME_TX k) && s.chip.linkUp d k then
      { s.chip.link d k with msgs := (s.chip.link d k).msgs ++ [.time (s.chip.time d)] } else s.chip.link d k)) ∧
  (∀ (s : State) (d : Die) (k : Fin 4) (src : BitVec 11), s.chip.runs d = true → s.chip.linkUp d k = true →
    s.chip.ownDevice = 0 →
    (s.chip.dev = .releasing → Done (.krnLoaded d k src) s (fun c =>
      let seen := if s.chip.cfg.loadedFrom.contains src.toNat then s.chip.cfg.loadedFrom else s.chip.cfg.loadedFrom ++ [src.toNat]
      c.cfg.loadedFrom = seen ∧ (s.chip.fld 0 F.KRN_SYS_EXPECT ≤ seen.length → c.cfg.systemDone = true) ∧
      (seen.length < s.chip.fld 0 F.KRN_SYS_EXPECT → c = { s.chip with cfg := c.cfg } ∧
        c.cfg.systemDone = s.chip.cfg.systemDone))) ∧
    (s.chip.dev = .user → src ≠ 0 → Done (.krnLoaded d k src) s (fun c =>
      c.cfg = s.chip.cfg ∧ (c.port (gatewayOf 0) 3).waiting = (s.chip.port (gatewayOf 0) 3).waiting ++
        [{ dev := src.toNat, router := gatewayOf 0, port := 3, typ := Typ.cmd, body := [{ w2 := word (0x381 * 2 ^ 26) }] }])) ∧
    (s.chip.dev ≠ .releasing → s.chip.dev ≠ .user → NoEffect (.krnLoaded d k src) s)) ∧
  (∀ (s : State) (d : Die) (k : Fin 4), s.chip.runs d = true →
    (s.chip.linkUp d k = true → s.chip.dev = .releasing ∨ s.chip.dev = .user → Done (.krnSystemDone d k) s (fun c =>
      c.cfg.systemDone = true ∧ c = { s.chip with cfg := c.cfg } ∧
      (s.chip.dev = .releasing → s.chip.fld s.chip.lead F.CFG_RELEASE_DONE_SRC = 1 → c.cfg.releasing = true))) ∧
    (s.chip.linkUp d k = false ∨ (s.chip.dev ≠ .releasing ∧ s.chip.dev ≠ .user) → NoEffect (.krnSystemDone d k) s)) ∧
  (∀ (s : State) (d : Die) (k : Fin 4) (slotB : Bool) (first : BitVec 28) (count : BitVec 8), s.chip.runs d = true →
    (s.chip.linkUp d k = true → s.chip.dev ∈ [.blank, .backoff, .releasing, .user] →
      Done (.krnBootReq d k slotB first count) s (fun c =>
        let byte := if slotB then s.chip.fld d (F.KRN_LINK_BOOT_B_ADDR k) else s.chip.fld d (F.KRN_LINK_BOOT_A_ADDR k)
        let n := if s.chip.flag d (F.KRN_LINK_CFG_BOOT_SERVE k) then min 248 count.toNat else 0
        c.link d k = { s.chip.link d k with msgs := (s.chip.link d k).msgs ++
          [.imageData first.toNat ((List.range n).map (fun i => flashWord s.flash 0 byte (first.toNat + i)))] } ∧
        SameBut (4 * d.val + k.val) s.chip.karn c.karn ∧ c = { s.chip with karn := c.karn })) ∧
    (s.chip.linkUp d k = false → NoEffect (.krnBootReq d k slotB first count) s)) ∧
  (∀ (s : State) (d : Die) (k : Fin 4) (first : BitVec 28) (ws : List W36), s.chip.runs d = true →
    (s.chip.linkUp d k = false → NoEffect (.krnImageData d k first ws) s) ∧
    (∀ l slot, s.chip.linkUp d k = true → s.chip.cfg.probe = none → ws ≠ [] → s.chip.loads.get 4 = some l →
      l.src = .karn (4 * d + k) slot → l.queue = [] → l.count = first.toNat → Done (.krnImageData d k first ws) s (fun c =>
        c.loads.get 4 = some { l with queue := ws.take 248 } ∧ c = { s.chip with loads := c.loads })) ∧
    (s.chip.linkUp d k = true → s.chip.cfg.probe = some [] → s.chip.dev = .blank → d = 0 → k = 0 →
      Done (.krnImageData d k first ws) s (fun c => c.cfg = { s.chip.cfg with probe := some [ws] } ∧
        (c.link 0 0).msgs = (s.chip.link 0 0).msgs ++ [.bootReq true 0 32] ∧
        c = { s.chip with cfg := c.cfg, karn := c.karn }))) ∧
  (∀ (s : State) (d : Die) (k : Fin 4) (t : BitVec 64), s.chip.runs d = true →
    let m := s.chip.chnAll.master
    let far := t.toNat + s.chip.latNs d k
    let err : Int := signed 64 (unsigned 64 ((s.chip.time m : Int) - far))
    let ours := s.chip.flag 0 F.KRN_SYS_TIME_EN = true ∧ s.chip.fld 0 F.KRN_SYS_TIME_LINK = 4 * d.val + k.val
    (s.chip.linkUp d k = false → NoEffect (.krnTime d k t) s) ∧
    (s.chip.linkUp d k = true → ¬ ours → Done (.krnTime d k t) s (fun c =>
      c.link d k = { s.chip.link d k with timeOff := (s.chip.time m : Int) - far } ∧ c = { s.chip with karn := c.karn })) ∧
    (s.chip.linkUp d k = true → ours → m < 4 → Done (.krnTime d k t) s (fun c =>
      (c.link d k).timeOff = 0 ∧ c.flag m F.CHN_TIME_STATUS_TIME_OK = true ∧
      (-1000 ≤ err → err ≤ 1000 → (s.chip.chnDies.get m).afterReset = false →
        (c.chnDies.get m).slew = err ∧ c.devTime = s.chip.devTime) ∧
      (err < -1000 ∨ 1000 < err → c.time m = far % 2 ^ 64 ∧ c.flag m F.CHN_TIME_STATUS_STEPPED = true)))) ∧
  (∀ (s : State) (d : Die) (k : Fin 4) (ch : Fin 2) (i : BitVec 48) (t : BitVec 64) (p : BitVec 32), s.chip.runs d = true →
    let ours := s.chip.linkUp d k = true ∧ s.chip.fld 0 F.KRN_SYS_POS_LINK = 4 * d.val + k.val ∧ s.chip.chnFollows ch = true
    (¬ ours → NoEffect (.krnPos d k [(ch, i, t, p)]) s) ∧
    (ours → Done (.krnPos d k [(ch, i, t, p)]) s (fun c => ∀ e : Die,
      let x := s.chip.chan e ch
      let last := match x.due.getLast? with
        | some (n, _, _) => n
        | none => x.int
      (c.chan e ch).due = x.due ++ followCounts last i.toNat
        (unsigned 64 ((t.toNat : Int) + (s.chip.link d k).timeOff + s.chip.fld 0 F.KRN_SYS_FOLLOW_DELAY * 10)) p.toNat ∧
      c.flag e (F.CHN_CH_STATUS_FAULTED ch) = false ∧ c.log = s.chip.log)))

/-! ### DRAM channels and the integrity engine (R466 to R531) -/

/-- Between a and c nothing changed but the registers, the counters and the record of channel ch of die d, and its stored lines. -/
def onlyChannel (d ch : Nat) (a c : Chip) : Prop :=
  SameBut (2 * d + ch) a.ddr c.ddr ∧ c = { a with regs := c.regs, pmc := c.pmc, ddr := c.ddr, dram := c.dram }

/-- Bring-up and training: the steps of R474 follow one another on an enabled channel; training goes rank by rank up to READY; a
failing mapped rank is replaced by a free spare, a failing spare is given up, any other failure makes the channel FAILED, and REINIT
starts a FAILED channel anew with SPARE_FREE as it stood (R474, R475). -/
def Obligations.DdrBringUp : Prop :=
  (∀ (s : State) (d : Die) (ch : Fin 2), s.chip.runs d = true →
    let x := s.chip.ddrChan d ch
    let on := s.chip.flag d (F.DDR_CFG_EN ch)
    (on = false ∨ x.step ∉ [1, 2, 3] → NoEffect (.ddrBringupStep d ch) s) ∧
    (on = true → x.step = 1 ∨ x.step = 2 → Done (.ddrBringupStep d ch) s (fun c =>
      c.ddrChan d ch = { x with step := x.step + 1 } ∧ c.regs = s.chip.regs ∧ onlyChannel d ch s.chip c)) ∧
    (∀ p, on = true → x.step = 3 → s.chip.nextRank d ch 0 = some p → Done (.ddrBringupStep d ch) s (fun c =>
      c.ddrChan d ch = { x with step := 4, rank := p } ∧ c.fld d (F.DDR_STATUS_STATE ch) = 2 ∧
      RegsBut (OneReg d (Reg.DDR_STATUS ch)) s.chip c ∧ onlyChannel d ch s.chip c))) ∧
  (∀ (s : State) (d : Die) (ch : Fin 2) (pass : Bool), s.chip.runs d = true →
    let x := s.chip.ddrChan d ch
    let spare := s.chip.fld d (F.DDR_CFG_SPARE_RANK ch)
    let free := s.chip.flag d (F.DDR_RANK_MAP_SPARE_FREE ch)
    let failed (c : Chip) : Prop := c.fld d (F.DDR_STATUS_TRAIN_FAIL ch) =
      s.chip.fld d (F.DDR_STATUS_TRAIN_FAIL ch) ||| 2 ^ x.rank
    let goesOn (c : Chip) : Prop := ∀ p, s.chip.nextRank d ch (x.rank + 1) = some p →
      c.ddrChan d ch = { x with rank := p } ∧ c.fld d (F.DDR_STATUS_STATE ch) = s.chip.fld d (F.DDR_STATUS_STATE ch)
    (x.step ≠ 4 → NoEffect (.rankTrainingDone d ch pass) s) ∧
    (x.step = 4 → pass = true → Done (.rankTrainingDone d ch pass) s (fun c => goesOn c ∧ c.log = s.chip.log ∧
      (s.chip.nextRank d ch (x.rank + 1) = none → c.fld d (F.DDR_STATUS_STATE ch) = 3 ∧ (c.ddrChan d ch).step = 5 ∧
        (x.selfRefreshed = true → c.flag d (F.DDR_STATUS_KEPT ch) = true ∧ c.dram = s.chip.dram) ∧
        (x.selfRefreshed = false → s.chip.mieMode d ch = 0 →
          c.flag d (F.MIE_CH_STATUS_INIT_BUSY ch) = s.chip.flag d (F.MIE_CH_CFG_INIT ch)) ∧
        (s.chip.mieMode d ch = 2 → c.flag d (F.MIE_CH_STATUS_INIT_BUSY ch) = true ∧
          c.fld d (F.MIE_CH_PTR_PTR ch) = mbOf (s.chip.lineCount d ch) % 2 ^ 32 ∧ (c.ddrChan d ch).cache = [] ∧
          (c.ddrChan d ch).keys.isSome = true ∧ ∀ r ∈ (c.ddrChan d ch).root, r = (some 0, some 0))))) ∧
    (∀ r, x.step = 4 → x.rank < 4 → pass = false → s.chip.logicalOf d ch x.rank = some r → free = true →
      s.chip.nextRank d ch (x.rank + 1) ≠ none → Done (.rankTrainingDone d ch pass) s (fun c => failed c ∧
        c.physRank d ch r = spare ∧ (∀ r', r' < 4 → r' ≠ r → c.physRank d ch r' = s.chip.physRank d ch r') ∧
        c.fld d (F.DDR_RANK_MAP_RETIRED ch) = s.chip.fld d (F.DDR_RANK_MAP_RETIRED ch) ||| 2 ^ x.rank ∧
        c.flag d (F.DDR_RANK_MAP_SPARE_FREE ch) = false ∧
        Logged s.chip c d Ev.ddrRankRetired (ch.val + x.rank * 2 + spare * 8))) ∧
    (x.step = 4 → x.rank < 4 → pass = false → s.chip.logicalOf d ch x.rank = none →
      s.chip.flag d (F.DDR_CFG_SPARE_EN ch) = true → x.rank = spare → Done (.rankTrainingDone d ch pass) s (fun c => failed c ∧
        c.flag d (F.DDR_RANK_MAP_SPARE_FREE ch) = false ∧ c.log = s.chip.log)) ∧
    (∀ r, x.step = 4 → x.rank < 4 → pass = false → s.chip.logicalOf d ch x.rank = some r → free = false →
      Done (.rankTrainingDone d ch pass) s (fun c => failed c ∧ c.fld d (F.DDR_STATUS_STATE ch) = 5 ∧
        (c.ddrChan d ch).step = 0 ∧ Logged s.chip c d Ev.ddrTrainFail (ch.val + x.rank * 2)))) ∧
  (∀ (s : State) (d : Die) (ch : Fin 2) (v : W36), s.chip.runs d = true →
    let old := s.chip.reg d (Reg.DDR_CFG ch)
    bit v 0 = true → bit old 0 = true → bits v 1 18 = bits old 1 18 →
    (s.chip.fld d (F.DDR_STATUS_STATE ch) = 5 → (s.chip.ddrChan d ch).spareSet = true → Done (.reinit d ch v) s (fun c =>
      c.fld d (F.DDR_STATUS_STATE ch) = 1 ∧ (c.ddrChan d ch).step = 1 ∧
      c.reg d (Reg.DDR_RANK_MAP ch) = s.chip.reg d (Reg.DDR_RANK_MAP ch) ∧ onlyChannel d ch s.chip c)) ∧
    (s.chip.fld d (F.DDR_STATUS_STATE ch) ≠ 5 → Done (.reinit d ch v) s (fun c =>
      OnlyRegs s.chip c ∧ RegsBut (OneReg d (Reg.DDR_CFG ch)) s.chip c)))

/-- Requests of a channel: one at the port is taken only when both queues have room, beyond the usable capacity it is answered
UNREACHABLE, a write of a read-only channel is not performed; issuing an access of a Plain channel delivers or stores the line;
refresh and retraining take nothing from a channel's contents (R466, R472, R476 to R482, R484, R485). -/
def Obligations.DdrRequests : Prop :=
  (∀ (s : State) (d : Die) (ch : Fin 2), s.chip.runs d = true →
    let home := ddrHome d ch
    let x := s.chip.ddrChan d ch
    let at0 := (s.chip.port home 3).delivered
    let rest (c : Chip) (r : List Flit) : Prop := (c.port home 3).delivered = r
    ((∀ f r, at0 = f :: r → f.typ ≠ Typ.readReq) → NoEffect (.ddrReadReq d ch) s) ∧
    ((∀ f r, at0 = f :: r → f.typ ≠ Typ.writeReq) → NoEffect (.ddrWriteReq d ch) s) ∧
    (∀ f r, at0 = f :: r → f.typ = Typ.readReq →
      let lines := linesOf f.w2.toNat (bits f.w3 0 6 + 1)
      (x.room false lines = false → NoEffect (.ddrReadReq d ch) s) ∧
      (x.room false lines = true → s.chip.beyond d ch lines = none → Done (.ddrReadReq d ch) s (fun c => rest c r ∧
        (c.ddrChan d ch).queue.map (fun a => (a.line, a.write)) =
          x.queue.map (fun a => (a.line, a.write)) ++ lines.map (fun l => (l, false)) ∧
        (c.ddrChan d ch).jobs = x.jobs ++ [{ id := x.order, flit := f, left := lines.length }] ∧
        c.dram = s.chip.dram ∧ c.regs = s.chip.regs)) ∧
      (∀ l, x.room false lines = true → s.chip.beyond d ch lines = some l → Done (.ddrReadReq d ch) s (fun c => rest c r ∧
        (c.ddrChan d ch).queue = x.queue ∧ c.flag d (F.DDR_STATUS_RANGE_SEEN ch) = true ∧ c.dram = s.chip.dram))) ∧
    (∀ f r, at0 = f :: r → f.typ = Typ.writeReq → bits f.w3 0 6 < 2 → (∀ j ∈ x.taking, j.key ≠ streamKey f) →
      let count := bits f.w3 0 6 + 1
      let lines := linesOf f.w2.toNat count
      (x.room true lines = false → NoEffect (.ddrWriteReq d ch) s) ∧
      (x.room true lines = true → s.chip.beyond d ch lines = none → s.chip.flag d (F.DDR_STATUS_READ_ONLY ch) = false →
        Done (.ddrWriteReq d ch) s (fun c => rest c r ∧
          (c.ddrChan d ch).queue.map (fun a => (a.line, a.write)) =
            x.queue.map (fun a => (a.line, a.write)) ++ lines.map (fun l => (l, true)) ∧ c.dram = s.chip.dram)) ∧
      (x.room true lines = true → s.chip.beyond d ch lines = none → s.chip.flag d (F.DDR_STATUS_READ_ONLY ch) = true →
        Done (.ddrWriteReq d ch) s (fun c => rest c r ∧ c.ddr = s.chip.ddr ∧ c.dram = s.chip.dram)))) ∧
  (∀ (s : State) (d : Die) (ch sub : Fin 2), s.chip.runs d = true →
    let x := s.chip.ddrChan d ch
    let issue : Instr := .ddrAccessIssue d ch sub 0 0 0
    (s.chip.fld d (F.DDR_STATUS_STATE ch) ≠ 3 → NoEffect issue s) ∧
    (s.chip.chooseAccess d ch sub = none → NoEffect issue s) ∧
    (∀ a, s.chip.fld d (F.DDR_STATUS_STATE ch) = 3 → s.chip.chooseAccess d ch sub = some a → x.cache = [] →
      s.chip.mieMode d ch = 0 → s.chip.flag d (F.DDR_STATUS_MIGRATING ch) = false → s.chip.flag d F.MIE_FLIP_SEL_ARM = false →
      let p := s.chip.place d ch a.line
      let key := dramKey d ch (s.chip.physRank d ch p.rank) p.index
      let gone (c : Chip) : Prop := (c.ddrChan d ch).queue = x.queue.filter (fun b => b.order != a.order) ∧
        (c.ddrChan d ch).rows.get (s.chip.bankKey d ch a.line) = p.row + 1 ∧ c.log = s.chip.log ∧ c.regs = s.chip.regs
      (a.write = true → (∀ t, t < 16 → ∃ e ∈ a.words, e.1 = t) → Done issue s (fun c => gone c ∧
        c.dram.get key = { data := mergeWords 0 a.words, chk := withCrc 0 (mergeWords 0 a.words) 0 a.poison } ∧
        SameBut key s.chip.dram c.dram)) ∧
      (a.write = true → (∃ t, t < 16 ∧ ∀ e ∈ a.words, e.1 ≠ t) → lineVerdict 0 (s.chip.dram.get key) = .pass →
        Done issue s (fun c => gone c ∧ SameBut key s.chip.dram c.dram ∧
          let v := mergeWords (s.chip.dram.get key).data a.words
          c.dram.get key = { data := v, chk := withCrc 0 v 0 a.poison })) ∧
      (a.write = false → lineVerdict 0 (s.chip.dram.get key) = .pass → Done issue s (fun c => gone c ∧ c.dram = s.chip.dram ∧
        ∀ j, x.jobs.find? (fun j => j.id = a.req) = some j → 1 < j.left →
          let got := (List.range 16).map (fun t => (16 * a.line + t, lineWord (s.chip.dram.get key).data t, a.poison))
          (c.ddrChan d ch).jobs = x.jobs.filter (fun y => y.id != j.id) ++
            [{ j with left := j.left - 1, words := j.words ++ got }])))) ∧
  (∀ (s : State) (d : Die) (ch : Fin 2) (rank : Fin 4), s.chip.runs d = true →
    Done (.refreshTimer d ch rank) s (fun c => c = { s.chip with pmc := c.pmc }) ∧
    (s.chip.fld d (F.DDR_STATUS_STATE ch) ≠ 3 → NoEffect (.refreshTimer d ch rank) s ∧ NoEffect (.retrainTimer d ch) s) ∧
    (s.chip.fld d (F.DDR_STATUS_STATE ch) = 3 → Done (.retrainTimer d ch) s (fun c =>
      c.ddrChan d ch = { s.chip.ddrChan d ch with rows := [] } ∧ c.regs = s.chip.regs ∧ onlyChannel d ch s.chip c)))

/-- Errors, retirement and migration: command and address alerts are reissued up to CA_RETRY times, past them the queued reads of the
rank are delivered poisoned and its writes lost, or kept for the spare where migration starts; DDR_MIG_START starts migration only with
a free spare and none running; each copy step moves one stored line and CP downward, the last one puts the spare in the map; DDR_ERRQ
gives the oldest record (R488 to R492). -/
def Obligations.DdrErrorsAndMigration : Prop :=
  (∀ (s : State) (d : Die) (ch sub : Fin 2) (alerts : Nat), s.chip.runs d = true →
    let x := s.chip.ddrChan d ch
    let retry := s.chip.fld d (F.DDR_RAS_CFG_CA_RETRY ch)
    let rank (a : LineAccess) : Nat := s.chip.physRank d ch (s.chip.place d ch a.line).rank
    (s.chip.chooseAccess d ch sub = none → NoEffect (.caParityAlert d ch sub alerts) s) ∧
    (∀ a, s.chip.chooseAccess d ch sub = some a →
      let count (c : Chip) (n : Nat) : Prop := c.fld d (F.DDR_RANK_ERR_CA ch (rank a)) =
        min (s.chip.fld d (F.DDR_RANK_ERR_CA ch (rank a)) + n) 4095
      let mine (b : LineAccess) : Prop := b.line % 2 = sub ∧ rank b = rank a
      let auto := s.chip.flag d (F.DDR_RAS_CFG_RETIRE_AUTO ch)
      let migrating := s.chip.flag d (F.DDR_STATUS_MIGRATING ch)
      (alerts ≤ retry → Done (.caParityAlert d ch sub alerts) s (fun c => count c alerts ∧
        RegsBut (OneReg d (Reg.DDR_RANK_ERR ch (rank a))) s.chip c ∧ c = { s.chip with regs := c.regs, pmc := c.pmc })) ∧
      (retry < alerts → auto = false → migrating = false → Done (.caParityAlert d ch sub alerts) s (fun c =>
        count c (retry + 1) ∧ (∀ b ∈ (c.ddrChan d ch).queue, ¬ mine b) ∧ c.dram = s.chip.dram ∧
        Logged s.chip c d Ev.ddrCaFail (ch.val + rank a * 2) ∧
        (x.errq.length < 64 → (c.ddrChan d ch).errq[x.errq.length]? = some (a.line, Err.caPersistent)))) ∧
      (∀ r, retry < alerts → auto = true → migrating = false → s.chip.logicalOf d ch (rank a) = some r →
        s.chip.flag d (F.DDR_RANK_MAP_SPARE_FREE ch) = true → (x.queue.map (·.order)).Nodup →
        Done (.caParityAlert d ch sub alerts) s (fun c => count c (retry + 1) ∧
          c.flag d (F.DDR_STATUS_MIGRATING ch) = true ∧ c.fld d (F.DDR_MIG_FROM ch) = rank a ∧
          c.fld d (F.DDR_MIG_CP ch) = s.chip.rankLines d ch % 2 ^ 32 ∧ (c.ddrChan d ch).held.getLsbD (rank a) = true ∧
          ∀ b ∈ x.queue, b.write = true → b ∈ (c.ddrChan d ch).queue)))) ∧
  (∀ (s : State) (d : Die) (ch : Fin 2) (v : W36), s.chip.runs d = true →
    let r := bits v 0 2
    let x := s.chip.ddrChan d ch
    let phys := s.chip.physRank d ch r
    let can := s.chip.flag d (F.DDR_RANK_MAP_SPARE_FREE ch) = true ∧ s.chip.flag d (F.DDR_STATUS_MIGRATING ch) = false
    (s.chip.lranks d ch ≤ r → NoEffect (.ddrMigStart d ch v) s) ∧
    (r < s.chip.lranks d ch → can → Done (.ddrMigStart d ch v) s (fun c =>
      c.flag d (F.DDR_STATUS_MIGRATING ch) = true ∧ c.fld d (F.DDR_MIG_FROM ch) = phys ∧
      c.fld d (F.DDR_MIG_CP ch) = s.chip.rankLines d ch % 2 ^ 32 ∧ c.ddrChan d ch = { x with migRank := r } ∧
      c.dram = s.chip.dram ∧ onlyChannel d ch s.chip c)) ∧
    (r < s.chip.lranks d ch → ¬ can → x.errq.length < 64 → Done (.ddrMigStart d ch v) s (fun c =>
      (c.ddrChan d ch).errq = x.errq ++ [(phys, Err.noSpare)] ∧
      c.flag d (F.DDR_STATUS_MIGRATING ch) = s.chip.flag d (F.DDR_STATUS_MIGRATING ch) ∧
      (x.noSpare.getLsbD phys = true → c.log = s.chip.log) ∧
      (x.noSpare.getLsbD phys = false → Logged s.chip c d Ev.ddrNoSpare (ch.val + phys * 2) ∧
        (c.ddrChan d ch).noSpare.getLsbD phys = true)))) ∧
  (∀ (s : State) (d : Die) (ch : Fin 2) (bad : Nat), s.chip.runs d = true →
    let x := s.chip.ddrChan d ch
    let spare := s.chip.fld d (F.DDR_CFG_SPARE_RANK ch)
    let old := s.chip.fld d (F.DDR_MIG_FROM ch)
    let ready := s.chip.flag d (F.DDR_STATUS_MIGRATING ch) = true ∧ s.chip.fld d (F.DDR_STATUS_STATE ch) = 3
    (¬ ready → NoEffect (.migrationCopy d ch bad) s) ∧
    (∀ i, ready → s.chip.fld d (F.DDR_MIG_CP ch) = i + 1 →
      let y := s.chip.dram.get (dramKey d ch old i)
      let copied (c : Chip) (z : DramLine) : Prop := c.dram.get (dramKey d ch spare i) = z ∧
        SameBut (dramKey d ch spare i) s.chip.dram c.dram ∧ c.fld d (F.DDR_MIG_CP ch) = i
      (lineVerdict (s.chip.mieMode d ch) y ≠ .fail → bad ≤ s.chip.fld d (F.DDR_RAS_CFG_READ_RETRY ch) →
        Done (.migrationCopy d ch bad) s (fun c => copied c y ∧
          (0 < i → c.flag d (F.DDR_STATUS_MIGRATING ch) = true ∧ c.log = s.chip.log) ∧
          (i = 0 → x.migRank < 4 → c.flag d (F.DDR_STATUS_MIGRATING ch) = false ∧ c.flag d (F.DDR_MIG_DONE ch) = true ∧
            c.flag d (F.DDR_RANK_MAP_SPARE_FREE ch) = false ∧ c.physRank d ch x.migRank = spare ∧
            c.fld d (F.DDR_RANK_MAP_RETIRED ch) = s.chip.fld d (F.DDR_RANK_MAP_RETIRED ch) ||| 2 ^ old ∧
            Logged s.chip c d Ev.ddrRankRetired (ch.val + old * 2 + spare * 8)))) ∧
      (lineVerdict (s.chip.mieMode d ch) y = .fail ∨ s.chip.fld d (F.DDR_RAS_CFG_READ_RETRY ch) < bad → 0 < i →
        Done (.migrationCopy d ch bad) s (fun c =>
          copied c { y with chk := withCrc (s.chip.mieMode d ch) y.data y.chk true } ∧
          (x.errq.length < 62 → ∃ l, (c.ddrChan d ch).errq = x.errq ++ [(l, Err.persistent)] ++
            (c.ddrChan d ch).errq.drop (x.errq.length + 1) ∧ (l, Err.migPoison) ∈ (c.ddrChan d ch).errq))))) ∧
  (∀ (s : State) (d : Die) (ch : Fin 2), s.chip.runs d = true →
    ((s.chip.ddrChan d ch).errq = [] → Done (.ddrErrq d ch) s (fun c =>
      c.returned = [word (2 ^ 35)] ∧ c = { s.chip with returned := c.returned })) ∧
    (∀ line kind r, (s.chip.ddrChan d ch).errq = (line, kind) :: r → Done (.ddrErrq d ch) s (fun c =>
      (c.ddrChan d ch).errq = r ∧ (∃ w, c.returned = [w] ∧ bits w 0 32 = line % 2 ^ 32 ∧ (kind < 8 → bits w 32 3 = kind) ∧
        (kind < 8 → bit w 35 = false)) ∧
      c = { s.chip with returned := c.returned, ddr := c.ddr })))

/-- The integrity engine: a MAC check that fails halts the part and leaves its cause; the initialisation writes the next line sealed
and advances the pointer up to the last; REKEY draws new keys and walks line by line; flips are armed and TEST_EN set only as R500
allows (R499, R500, R505, R506, R519, R523, R527 to R529). -/
def Obligations.IntegrityEngine : Prop :=
  (∀ (s : State) (d : Die) (ch : Fin 2), s.chip.runs d = true →
    ((s.chip.ddrChan d ch).macs = [] → NoEffect (.macCheck d ch) s) ∧
    (∀ line r, (s.chip.ddrChan d ch).macs = (line, true) :: r → Done (.macCheck d ch) s (fun c =>
      c.ddrChan d ch = { s.chip.ddrChan d ch with macs := r } ∧ c.regs = s.chip.regs ∧ onlyChannel d ch s.chip c)) ∧
    (∀ line r, (s.chip.ddrChan d ch).macs = (line, false) :: r → s.chip.dev ≠ .secureHalt → Done (.macCheck d ch) s (fun c =>
      c.dev = .secureHalt ∧ c.fld d F.MIE_HALT_INFO_LINE = line % 2 ^ 32 ∧ c.fld d F.MIE_HALT_INFO_CH = ch ∧
      c.fld d F.MIE_HALT_INFO_CAUSE = 1 ∧ (c.ddrChan d ch).keys = none))) ∧
  (∀ (s : State) (d : Die) (ch : Fin 2), s.chip.runs d = true →
    let mode := s.chip.mieMode d ch
    let line := s.chip.fld d (F.MIE_CH_PTR_PTR ch)
    let n := s.chip.lineCount d ch
    let p := s.chip.place d ch line
    let key := dramKey d ch (s.chip.physRank d ch p.rank) p.index
    let busy := s.chip.flag d (F.MIE_CH_STATUS_INIT_BUSY ch)
    (busy = false → NoEffect (.initWalkLine d ch) s) ∧
    (busy = true → s.chip.fld d (F.DDR_STATUS_STATE ch) = 3 → s.chip.flag d F.MIE_FLIP_SEL_ARM = false →
      s.chip.flag d (F.DDR_STATUS_MIGRATING ch) = false → Done (.initWalkLine d ch) s (fun c =>
        c.fld d (F.MIE_CH_PTR_PTR ch) = (line + 1) % 2 ^ 32 ∧ SameBut key s.chip.dram c.dram ∧
        (mode = 0 → c.dram.get key = { data := 0, chk := withCrc 0 0 0 false }) ∧
        (mode = 1 → lineVerdict 1 (c.dram.get key) = .pass ∧
          (c.dram.get key).data = Config.xtsEncrypt (s.chip.lineKeys d ch line).data (s.chip.lineKeys d ch line).tweak line 0 ∧
          bits (c.dram.get key).chk 16 48 = mac48 (s.chip.lineKeys d ch line) line false (c.dram.get key).data) ∧
        (mode = 2 → (c.dram.get key).data = packLine 0 (nodeMac (s.chip.lineKeys d ch 0) line 0 0) ∧
          lineVerdict 2 (c.dram.get key) = .pass) ∧
        (mode ≠ 2 → mode ≠ 3 → c.flag d (F.MIE_CH_STATUS_INIT_BUSY ch) = decide (line + 1 < n)) ∧
        (mode = 2 → c.flag d (F.MIE_CH_STATUS_INIT_BUSY ch) =
          decide (line + 1 < mbOf n + (treeLevels n).foldl (· + ·) 0))))) ∧
  (∀ (s : State) (p : Fin 5) (h : W36) (ws : List W36), Accepts s.chip p 0x301 h ws → s.chip.dieInReset (cmdDie h) = false →
    let d := cmdDie h
    let ch := bits (ws.headD 0) 0 1
    let mode := s.chip.mieMode d ch
    let busy := s.chip.flag d (F.MIE_CH_STATUS_INIT_BUSY ch) || s.chip.flag d (F.MIE_CH_STATUS_REKEY_BUSY ch)
    (mode = 0 → Done (.rekey p) s (fun c => (∃ w, Replied c p h St.state [w, word (2 ^ 5 + 2 ^ 6)]) ∧ OnlyPort p s.chip c)) ∧
    (mode ≠ 0 → busy = true → Done (.rekey p) s (fun c => Replied c p h St.busy [] ∧ OnlyPort p s.chip c)) ∧
    (mode ≠ 0 → busy = false → Done (.rekey p) s (fun c => Replied c p h St.ok [] ∧
      c.flag d (F.MIE_CH_STATUS_REKEY_BUSY ch) = true ∧ c.fld d (F.MIE_CH_PTR_PTR ch) = 0 ∧
      (c.ddrChan d ch).oldKeys = (s.chip.ddrChan d ch).keys ∧
      (c.ddrChan d ch).keys = some (s.chip.channelKeys d ch ((Config.random256 s.chip.free).setWidth 128)) ∧
      c.dram = s.chip.dram ∧ c.log = s.chip.log))) ∧
  (∀ (s : State) (d : Die) (ch : Fin 2), s.chip.runs d = true →
    let line := s.chip.fld d (F.MIE_CH_PTR_PTR ch)
    let n := s.chip.lineCount d ch
    let p := s.chip.place d ch line
    let key := dramKey d ch (s.chip.physRank d ch p.rank) p.index
    let x := s.chip.ddrChan d ch
    let k := x.oldKeys.getD {}
    let k' := x.keys.getD {}
    let y := s.chip.dram.get key
    (s.chip.flag d (F.MIE_CH_STATUS_REKEY_BUSY ch) = false → NoEffect (.rekeyWalkLine d ch 0) s) ∧
    (s.chip.flag d (F.MIE_CH_STATUS_REKEY_BUSY ch) = true → s.chip.fld d (F.DDR_STATUS_STATE ch) = 3 → s.chip.mieMode d ch = 1 →
      s.chip.flag d F.MIE_FLIP_SEL_ARM = false → s.chip.flag d (F.DDR_STATUS_MIGRATING ch) = false → x.cache = [] →
      lineVerdict 1 y = .pass → bits y.chk 16 48 = mac48 k line false y.data → line + 1 < 2 ^ 32 →
      Done (.rekeyWalkLine d ch 0) s (fun c =>
        c.fld d (F.MIE_CH_PTR_PTR ch) = line + 1 ∧ SameBut key s.chip.dram c.dram ∧ c.dev = s.chip.dev ∧
        (c.dram.get key).data =
          Config.xtsEncrypt k'.data k'.tweak line (Config.xtsDecrypt k.data k.tweak line y.data) ∧
        bits (c.dram.get key).chk 16 48 = mac48 k' line false (c.dram.get key).data ∧
        (line + 1 < n → c.flag d (F.MIE_CH_STATUS_REKEY_BUSY ch) = true ∧ c.log = s.chip.log) ∧
        (n ≤ line + 1 → c.flag d (F.MIE_CH_STATUS_REKEY_BUSY ch) = false ∧ c.flag d (F.DDR_STATUS_READ_ONLY ch) = false ∧
          c.flag d (F.MIE_CH_STATUS_READ_ONLY ch) = false ∧ (c.ddrChan d ch).oldKeys = none ∧
          Logged s.chip c d Ev.mieRekeyDone ch)))) ∧
  (∀ (s : State) (d : Die) (v : W36), s.chip.runs d = true →
    let refused (c : Chip) : Prop := c.flag d F.MIE_STATUS_REFUSED = true ∧ OnlyRegs s.chip c ∧
      RegsBut (OneReg d Reg.MIE_STATUS) s.chip c
    let allowed := ∃ n, flipIndexes (bits v 0 4) = some n ∧ bits v 4 12 < n ∧
      (bits v 0 4 = 9 → s.chip.flag d F.MIE_CTRL_TEST_EN = true)
    (allowed → Done (.mieFlipArm d v) s (fun c => c.flag d F.MIE_FLIP_SEL_ARM = true ∧ OnlyRegs s.chip c ∧
      c.fld d F.MIE_FLIP_SEL_KIND = bits v 0 4 ∧ c.fld d F.MIE_FLIP_SEL_INDEX = bits v 4 12 ∧
      RegsBut (OneReg d Reg.MIE_FLIP_SEL) s.chip c)) ∧
    (¬ allowed → Done (.mieFlipArm d v) s refused) ∧
    (bit v 0 = true → s.chip.sec.level ≠ 0 → Done (.testEnWrite d v) s refused) ∧
    (bit v 0 = false ∨ s.chip.sec.level = 0 → Done (.testEnWrite d v) s (fun c => c.flag d F.MIE_CTRL_TEST_EN = bit v 0 ∧
      OnlyRegs s.chip c ∧ RegsBut (OneReg d Reg.MIE_CTRL) s.chip c)))

/-! ### Test access and debug (R610 to R633) -/

/-- The Capture-IR value of a die's TAP (R610). -/
def capturesIr (s : Chip) (d : Nat) (w : W36) : Prop :=
  bits w 0 2 = 1 ∧ bit w 2 = (s.tap d).refused ∧ bit w 3 = s.debugAllowed ∧ bit w 4 = s.dieInReset d ∧
  bit w 5 = (s.dev == .secureHalt)

/-- A scan of the chain shifted out the Capture-IR values of the four TAPs and then what their data registers captured, w of each die:
D2 first, then D3, D1 and D0 (R18, R610, R613). -/
def shiftedOut (s c : Chip) (w : Nat → List W36) : Prop :=
  ∃ i2 i3 i1 i0, capturesIr s 2 i2 ∧ capturesIr s 3 i3 ∧ capturesIr s 1 i1 ∧ capturesIr s 0 i0 ∧
    c.returned = i2 :: i3 :: i1 :: i0 :: (w 2 ++ w 3 ++ w 1 ++ w 0)

/-- A scan of the chain loaded instruction code on die d, where it was allowed, and shifted out ws from its data register. -/
def scanned (s c : Chip) (d code : Nat) (ws : List W36) : Prop :=
  (∃ w, shiftedOut s c w ∧ w d = ws) ∧ (c.tap d).ir = code ∧ (c.tap d).refused = false

/-- A scan of the chain gave every die but d BYPASS. -/
def othersBypass (s c : Chip) (d : Nat) : Prop :=
  ∀ e : Die, e.val ≠ d → c.tap e = { s.tap e with ir := 0x3F, refused := false }

/-- The TAPs: Test-Logic-Reset and TRST_N load IDCODE on every die and end nothing else; a scan goes through the whole chain, and a TAP
that it does not name gets BYPASS; IDCODE and BYPASS are always there; an instruction that its row does not allow acts as BYPASS and is
shown as refused; boundary scan captures the pins and loads the cells; the mailbox appends words to the JTAG port and returns its reply
(R18, R610 to R616). -/
def Obligations.TestAccess : Prop :=
  (∀ (s : State) (i : Instr), i ∈ [Instr.trstNLow, Instr.testLogicReset] → Done i s (fun c =>
    (∀ d : Die, c.tap d = { s.chip.tap d with ir := 2, refused := false }) ∧ c = { s.chip with taps := c.taps })) ∧
  (∀ (s : State) (d : Die) (rest : List TapScan), s.chip.dev = .off →
    NoEffect (.idcode ⟨d, rest⟩) s ∧ NoEffect (.bypass ⟨d, rest⟩) s ∧ (∀ v, NoEffect (.extest ⟨⟨d, rest⟩, v⟩) s) ∧
    (∀ v, NoEffect (.samplePreload ⟨d, rest⟩ v) s) ∧ (∀ dr, NoEffect (.mailbox ⟨d, rest⟩ dr) s) ∧ (∀ dr, NoEffect (.dbg ⟨d, rest⟩ dr) s)) ∧
  (∀ (s : State) (d : Die) (rest : List TapScan) (v : BitVec 294) (m : BitVec 38) (g : BitVec 76) (i : Instr) (code : Nat),
    s.chip.dev ≠ .off →
    (i, code) ∈ [(Instr.extest ⟨⟨d, rest⟩, v⟩, 0x00), (Instr.samplePreload ⟨d, rest⟩ v, 0x01), (Instr.idcode ⟨d, rest⟩, 0x02),
      (Instr.mailbox ⟨d, rest⟩ m, 0x08), (Instr.dbg ⟨d, rest⟩ g, 0x10), (Instr.bypass ⟨d, rest⟩, 0x3F)] →
    Done i s (fun c => (∃ w, shiftedOut s.chip c w) ∧ ∀ e : Die,
      let got := if e = d then code else (tapOf rest e).1
      let ok := s.chip.irAllowed e got
      (c.tap e).ir = (if ok then got else 0x3F) ∧ (c.tap e).refused = !ok)) ∧
  (∀ (s : State) (d : Die) (rest : List TapScan), s.chip.dev ≠ .off →
    let refused (c : Chip) : Prop := (∃ w, shiftedOut s.chip c w ∧ w d = [0]) ∧
      (c.tap d).ir = 0x3F ∧ (c.tap d).refused = true ∧ (c.tap d).boundary = (s.chip.tap d).boundary
    Done (.idcode ⟨d, rest⟩) s (fun c => scanned s.chip c d 0x02 [word (0x16510353 + 0x1000 * d)]) ∧
    Done (.bypass ⟨d, rest⟩) s (fun c => scanned s.chip c d 0x3F [0]) ∧
    (s.chip.scanAllowed = false → ∀ v, Done (.extest ⟨⟨d, rest⟩, v⟩) s refused ∧ Done (.samplePreload ⟨d, rest⟩ v) s refused) ∧
    (∀ dr, d ≠ 0 ∨ s.chip.alive = false ∨ s.chip.portAuth Port.jtag = 0 → Done (.mailbox ⟨d, rest⟩ dr) s refused) ∧
    (∀ dr, s.chip.debugAllowed = false → Done (.dbg ⟨d, rest⟩ dr) s refused)) ∧
  (∀ (s : State) (d : Die), s.chip.dev ≠ .off →
    let only (c : Chip) : Prop := c = { s.chip with taps := c.taps, returned := c.returned } ∧ othersBypass s.chip c d
    Done (.idcode ⟨d, []⟩) s only ∧ Done (.bypass ⟨d, []⟩) s only ∧
    (s.chip.scanAllowed = true → ∀ (code : Nat) (v : BitVec 294) (i : Instr),
      (i, code) ∈ [(Instr.extest ⟨⟨d, []⟩, v⟩, 0x00), (Instr.samplePreload ⟨d, []⟩ v, 0x01)] → Done i s (fun c => only c ∧
        (c.tap d).boundary = v.setWidth 288 ∧ ∃ ws, scanned s.chip c d code ws ∧ ws.length = 9 ∧
        (∀ (b : Fin 2) (p : Fin 48), let k := 3 * (48 * b.val + p.val)
          bit (ws.getD (k / 36) 0) (k % 36) = (s.chip.loadIr d code).pinLevel d b p ∧
          bit (ws.getD ((k + 1) / 36) 0) ((k + 1) % 36) = ((s.chip.loadIr d code).pinOut d b p).2 ∧
          bit (ws.getD ((k + 2) / 36) 0) ((k + 2) % 36) = ((s.chip.loadIr d code).pinOut d b p).1) ∧
        (d = 0 → ∀ ch : Fin 2, bit (ws.getD 8 0) (3 * ch) = (s.chip.chan 0 ch).a ∧
          bit (ws.getD 8 0) (3 * ch + 1) = (s.chip.chan 0 ch).b ∧ bit (ws.getD 8 0) (3 * ch + 2) = (s.chip.chan 0 ch).z)))) ∧
  (∀ (s : State) (h : W36) (dr : BitVec 38), idlePort s.chip Port.jtag → cmdLen h = 0 → plainOp h → bits dr 0 36 = h.toNat →
    bit dr 36 = true → (s.chip.tap 0).ask = false → Done (.mailbox ⟨0, []⟩ dr) s (fun c =>
      scanned s.chip c 0 0x08 [0, word 2] ∧ (c.tap 0).ask = bit dr 37 ∧
      started { s.chip with taps := c.taps, returned := c.returned } c Port.jtag h [])) ∧
  (∀ (s : State) (r : List W36) (dr : BitVec 38), s.chip.portTakes Port.jtag = true → s.chip.dev ≠ .off →
    (s.chip.cmd Port.jtag).reply = some r → (s.chip.cmd Port.jtag).repeatMark = false →
    (s.chip.cmd Port.jtag).buffered = none → (s.chip.cmd Port.jtag).readPos + 1 < r.length → bit dr 36 = false →
    (s.chip.tap 0).ask = true → Done (.mailbox ⟨0, []⟩ dr) s (fun c =>
      scanned s.chip c 0 0x08 [r.getD (s.chip.cmd Port.jtag).readPos 0, word 3] ∧
      (c.cmd Port.jtag).readPos = (s.chip.cmd Port.jtag).readPos + 1 ∧ (c.cmd Port.jtag).reply = some r))

/-- A debug operation of code op with this ADDR and DATA waits on die d and may be carried out. -/
def dbgWaits (s : Chip) (d op addr : Nat) (v : W36) : Prop :=
  (s.tap d).busy = some (op, addr, v) ∧ s.debugAllowed = true ∧ s.debugRuns d = true ∧ (s.tap d).begun = false

/-- The operation has completed: the capture shows it with its status and data (R619). -/
def dbgShows (c : Chip) (d op addr status : Nat) (v : W36) : Prop :=
  (c.tap d).busy = none ∧ (c.tap d).capture = [v, word (addr + status * 2 ^ 32), word op]

/-- Debug register operations and memory operations: an update starts an operation unless one runs, reserved codes give PARAM, NOP
returns the latest result; READ is quiet, ACTIVE_READ has its side effect, WRITE writes; memory words of a halted core are read as
stored and written with good check bits; operations that are not waiting have no effect (R15, R617, R619 to R623). -/
def Obligations.DebugOperations : Prop :=
  (∀ (s : State) (d : Die) (dr : BitVec 76), s.chip.debugAllowed = true →
    let t := s.chip.tap d
    let op := bits dr 68 4
    let shows (c : Chip) : Prop := ∃ w, shiftedOut s.chip c w ∧ w d = t.capture
    (bits dr 72 4 = 0 → op < 12 → op ≠ Op.nop → t.busy = none → Done (.dbg ⟨d, []⟩ dr) s (fun c => shows c ∧
      (c.tap d).busy = some (op, bits dr 36 32, word (bits dr 0 36)) ∧
      (c.tap d).begun = false)) ∧
    (bits dr 72 4 ≠ 0 ∨ 12 ≤ op → t.busy = none → Done (.dbg ⟨d, []⟩ dr) s (fun c => shows c ∧
      dbgShows c d op (bits dr 36 32) St.param 0)) ∧
    (∀ b, t.busy = some b → op ≠ Op.forceHalt → Done (.dbg ⟨d, []⟩ dr) s (fun c => shows c ∧ (c.tap d).busy = some b ∧
      (c.tap d).capture = t.capture)) ∧
    (∀ b, t.busy = some b → op = Op.forceHalt → bits dr 72 4 = 0 → (b.1 = Op.halt ∨ b.1 = Op.step) →
      b.2.1 % 64 = bits dr 36 32 % 64 → Done (.dbg ⟨d, []⟩ dr) s (fun c => shows c ∧
        (c.tap d).busy = some (Op.forceHalt, bits dr 36 32, word (bits dr 0 36)))) ∧
    Done (.dbgNop d) s (fun c => c.returned = t.capture ∧ c = { s.chip with returned := c.returned })) ∧
  (∀ (s : State) (d : Die), s.chip.debugAllowed = false → NoEffect (.dbgNop d) s ∧ ∀ n, NoEffect (.haltComplete d n) s) ∧
  (∀ (s : State) (d : Die) (i : Instr) (op : Nat), (i, op) ∈ [(Instr.read d, Op.read), (Instr.activeRead d, Op.activeRead),
      (Instr.write d, Op.write), (Instr.memRead d, Op.memRead), (Instr.memWrite d, Op.memWrite), (Instr.attach d, Op.attach),
      (Instr.detach d, Op.detach), (Instr.halt d, Op.halt), (Instr.resume d, Op.resume), (Instr.step d, Op.step)] →
    (∀ addr v, ¬ dbgWaits s.chip d op addr v) → NoEffect i s) ∧
  (∀ (s : State) (d : Die) (addr : Nat) (v : W36),
    let only (c : Chip) : Prop := c = { s.chip with taps := c.taps, regs := c.regs } ∧
      RegsBut (OneReg d (F.PWR_DOM_STATUS_STATE Dom.debug).off) s.chip c
    (∀ op i, (i, op) ∈ [(Instr.read d, Op.read), (Instr.activeRead d, Op.activeRead), (Instr.write d, Op.write)] →
      dbgWaits s.chip d op addr v →
      (0x600000 ≤ addr → Done i s (fun c => dbgShows c d op addr St.param 0 ∧ only c)) ∧
      (addr < 0x600000 → s.chip.dieInReset d = true → Done i s (fun c => dbgShows c d op addr St.resource 0 ∧ only c))) ∧
    (dbgWaits s.chip d Op.read addr v → addr < 0x600000 → s.chip.dieInReset d = false → Done (.read d) s (fun c =>
      dbgShows c d Op.read addr St.ok (s.chip.regRead d addr false).2 ∧ only c)) ∧
    (∀ (ch : Fin 2) line kind r, dbgWaits s.chip d Op.activeRead addr v → addr = Reg.DDR_ERRQ ch → s.chip.dieInReset d = false →
      (s.chip.ddrChan d ch).errq = (line, kind) :: r → Done (.activeRead d) s (fun c =>
        dbgShows c d Op.activeRead addr St.ok (word (line % 2 ^ 32 + kind * 2 ^ 32)) ∧ (c.ddrChan d ch).errq = r)) ∧
    (∀ n : Fin 64, dbgWaits s.chip d Op.write addr v → addr = Reg.OBE_PMC_USER n → s.chip.dieInReset d = false →
      Done (.write d) s (fun c => dbgShows c d Op.write addr St.ok 0 ∧ bits (c.reg d addr) 0 2 = bits v 0 2))) ∧
  (∀ (s : State) (d : Die) (addr : Nat) (v : W36),
    let n := addr % 64
    let m := addr / 64 % 4
    let a := addr / 256 % 8192
    let st := s.chip.coreState d n
    let stands := (st = Obe.halted ∨ st = Obe.faultHalt) ∧ s.chip.domState d (Dom.quad (n / 4)) = 0
    (dbgWaits s.chip d Op.memRead addr v → addr < 2 ^ 21 → m < 3 → stands → Done (.memRead d) s (fun c =>
      dbgShows c d Op.memRead addr (if (s.chip.coreWord d n m a).2 = 0 then St.ok else St.integrity)
        (word (s.chip.coreWord d n m a).1) ∧ c.coreMem = s.chip.coreMem ∧ c.cores = s.chip.cores ∧ c.log = s.chip.log)) ∧
    (dbgWaits s.chip d Op.memRead addr v → addr < 2 ^ 21 → m = 3 → a = 0x15 → stands → Done (.memRead d) s (fun c =>
      dbgShows c d Op.memRead addr St.ok (word (s.chip.core d n).haltInfo) ∧ c.cores = s.chip.cores)) ∧
    (dbgWaits s.chip d Op.memWrite addr v → addr < 2 ^ 21 → m < 3 → stands → s.chip.flag d F.MIE_FLIP_SEL_ARM = false →
      Done (.memWrite d) s (fun c => dbgShows c d Op.memWrite addr St.ok 0 ∧
        c.coreWord d n m a = (if m = 0 then v.toNat else v.toNat % 2 ^ 24, 0) ∧
        SameBut (coreWordKey d n m a) s.chip.coreMem c.coreMem ∧ c.cores = s.chip.cores)) ∧
    (dbgWaits s.chip d Op.memWrite addr v → addr < 2 ^ 21 → m = 3 → a = pcCode → stands →
      ((s.chip.core d n).slots = 0 → (s.chip.core d n).rep = 0 → Done (.memWrite d) s (fun c =>
        dbgShows c d Op.memWrite addr St.ok 0 ∧ c.core d n = { s.chip.core d n with pc := v.toNat % 8192 })) ∧
      ((s.chip.core d n).slots ≠ 0 ∨ (s.chip.core d n).rep ≠ 0 → Done (.memWrite d) s (fun c =>
        dbgShows c d Op.memWrite addr St.state 0 ∧ c.cores = s.chip.cores))) ∧
    (∀ op i, (i, op) ∈ [(Instr.memRead d, Op.memRead), (Instr.memWrite d, Op.memWrite)] → dbgWaits s.chip d op addr v →
      (addr < 2 ^ 21 → m < 3 → ¬ stands → Done i s (fun c => dbgShows c d op addr St.state 0 ∧ c.coreMem = s.chip.coreMem)) ∧
      (2 ^ 21 ≤ addr → Done i s (fun c => dbgShows c d op addr St.param 0 ∧ c.coreMem = s.chip.coreMem))))

/-- Debug sessions: ATTACH needs a quad that runs, wakes a sleeping one and is refused on one that is OFF; DETACH releases a halted
core; HALT waits for the next instruction of a running core and is taken at once by one that waits; FORCE_HALT halts at once and
breaks a LOCK; RESUME and STEP go on from HALTED only; every core operation needs an attached core (R608, R618, R625 to R631). -/
def Obligations.DebugSessions : Prop :=
  (∀ (s : State) (d : Die) (n : Nat) (v : W36), dbgWaits s.chip d Op.attach n v →
    let dom := Dom.quad (n / 4)
    (64 ≤ n → Done (.attach d) s (fun c => dbgShows c d Op.attach n St.param 0 ∧ (c.tap d).attached = (s.chip.tap d).attached)) ∧
    (n < 64 → s.chip.domState d dom = 3 → Done (.attach d) s (fun c => dbgShows c d Op.attach n St.state 0 ∧
      (c.tap d).attached = (s.chip.tap d).attached)) ∧
    (n < 64 → s.chip.domState d dom = 0 → s.chip.domPhase d dom = 0 → Done (.attach d) s (fun c =>
      dbgShows c d Op.attach n St.ok 0 ∧ c.attached d n = true ∧
      (∀ n', n' < 64 → n' ≠ n → c.attached d n' = s.chip.attached d n') ∧ c.cores = s.chip.cores)) ∧
    (n < 64 → s.chip.domState d dom = 1 ∨ s.chip.domState d dom = 2 → s.chip.domPhase d dom ≠ 2 → Done (.attach d) s (fun c =>
      (c.tap d).busy = (s.chip.tap d).busy ∧ (c.tap d).attached = (s.chip.tap d).attached))) ∧
  (∀ (s : State) (d : Die) (n op : Nat) (v : W36) (i : Instr), (i, op) ∈ [(Instr.detach d, Op.detach), (Instr.halt d, Op.halt),
      (Instr.forceHalt d, Op.forceHalt), (Instr.resume d, Op.resume), (Instr.step d, Op.step)] →
    dbgWaits s.chip d op n v → n < 64 → s.chip.attached d n = false → (s.chip.tap d).force = none →
    Done i s (fun c => dbgShows c d op n St.state 0 ∧ c.cores = s.chip.cores)) ∧
  (∀ (s : State) (d : Die) (n : Nat) (v : W36), n < 64 → s.chip.attached d n = true → (s.chip.tap d).force = none →
    s.chip.flag d F.BLW_CTRL_DEBUG_STEAL = false →
    let st := s.chip.coreState d n
    let x := s.chip.core d n
    let held (c : Chip) : Prop := c.coreState d n = Obe.halted ∧ (c.core d n).haltedFrom = st ∧
      ∀ w, s.chip.coreWorker d n = some w → c.workerState d w = Wrk.held
    (dbgWaits s.chip d Op.halt n v →
      (st = Obe.waittask ∨ st = Obe.sleep → Done (.halt d) s (fun c => dbgShows c d Op.halt n St.ok 0 ∧ held c ∧
        (c.core d n).haltForced = false)) ∧
      (st = Obe.run → Done (.halt d) s (fun c => (c.tap d).busy = (s.chip.tap d).busy ∧ (c.tap d).begun = true ∧
        c.core d n = { x with haltAsked := true })) ∧
      (st = Obe.reset ∨ st = Obe.faultHalt ∨ st = Obe.halted → Done (.halt d) s (fun c => dbgShows c d Op.halt n St.ok 0 ∧
        c.cores = s.chip.cores))) ∧
    (dbgWaits s.chip d Op.forceHalt n v →
      (st = Obe.run ∨ st = Obe.waittask ∨ st = Obe.sleep → Done (.forceHalt d) s (fun c =>
        dbgShows c d Op.forceHalt n St.ok 0 ∧ held c ∧ (c.core d n).haltForced = true ∧ (c.core d n).srBit Sr.lk = false ∧
        ((c.core d n).lockBroken = true → (c.core d n).srBit Sr.lkb = true) ∧ (c.core d n).slots = x.slots ∧
        (c.core d n).rep = x.rep ∧ (c.core d n).loops = x.loops)) ∧
      (st = Obe.reset ∨ st = Obe.faultHalt ∨ st = Obe.halted → Done (.forceHalt d) s (fun c =>
        dbgShows c d Op.forceHalt n St.ok 0 ∧ c.cores = s.chip.cores))) ∧
    (dbgWaits s.chip d Op.resume n v →
      (st ≠ Obe.halted → Done (.resume d) s (fun c => dbgShows c d Op.resume n St.state 0 ∧ c.cores = s.chip.cores)) ∧
      (st = Obe.halted → x.haltedFrom = Obe.run → Done (.resume d) s (fun c => dbgShows c d Op.resume n St.ok 0 ∧
        c.coreState d n = Obe.run ∧ c.core d n = { x with stepping := false, wdogBase := x.cycle })) ∧
      (st = Obe.halted → x.haltedFrom = Obe.waittask → x.areaReady = false → Done (.resume d) s (fun c =>
        dbgShows c d Op.resume n St.ok 0 ∧ c.coreState d n = Obe.waittask)) ∧
      (st = Obe.halted → x.haltedFrom = Obe.sleep → x.wakeNoted = true → Done (.resume d) s (fun c =>
        dbgShows c d Op.resume n St.ok 0 ∧ c.coreState d n = Obe.run))) ∧
    (dbgWaits s.chip d Op.step n v →
      (st ≠ Obe.halted → Done (.step d) s (fun c => dbgShows c d Op.step n St.state 0 ∧ c.cores = s.chip.cores)) ∧
      (st = Obe.halted → x.haltedFrom = Obe.run → Done (.step d) s (fun c => (c.tap d).busy = (s.chip.tap d).busy ∧
        (c.tap d).begun = true ∧ c.coreState d n = Obe.run ∧ c.core d n = { x with stepping := true }))) ∧
    (dbgWaits s.chip d Op.detach n v → Done (.detach d) s (fun c => dbgShows c d Op.detach n St.ok 0 ∧
      c.attached d n = false ∧ (st = Obe.halted → x.haltedFrom = Obe.run → c.coreState d n = Obe.run)))) ∧
  (∀ (s : State) (d : Die) (n : Fin 64) (op : Nat) (v : W36), s.chip.debugAllowed = true → op ∈ [Op.halt, Op.step] →
    (s.chip.tap d).busy = some (op, n.val, v) → (s.chip.tap d).begun = true →
    let st := s.chip.coreState d n
    (op = Op.halt → st = Obe.run → (s.chip.core d n).heldOff = false → Done (.haltComplete d n) s (fun c =>
      dbgShows c d op n St.ok 0 ∧ c.coreState d n = Obe.halted ∧ (c.core d n).haltedFrom = Obe.run)) ∧
    (op = Op.halt → st = Obe.run → (s.chip.core d n).heldOff = true → NoEffect (.haltComplete d n) s) ∧
    (st = Obe.halted → Done (.haltComplete d n) s (fun c => dbgShows c d op n St.ok 0 ∧ c.cores = s.chip.cores)) ∧
    (st = Obe.faultHalt → Done (.haltComplete d n) s (fun c => dbgShows c d op n St.ok 0 ∧ c.coreState d n = Obe.faultHalt)))

/-! ### Performance counters, registers and loads (R11 to R13, R131, R146, R155, R181, R580 to R585, R634 to R642) -/

/-- Performance counters: a change of MODE or CLEAR zeroes a block; a counter of the selected mode reads as its value, its upper bits
going to HI unless the read is quiet, and is written from HI and the value; a flush keeps every value; a lost word restarts and is reported once; a SELECT
counter that wraps sets OVF and asks for an interrupt; OBE_PMC_USER takes only trusted writes (R634, R638 to R642). -/
def Obligations.PerformanceCounters : Prop :=
  (∀ (s : State) (d : Die) (blk : Option (Fin 64)) (v : W36), s.chip.runs d = true →
    let b := blk.map (fun n => n.val)
    let clears := bits v 0 1 ≠ s.chip.fld d (pmcMode b) ∨ bit v 2 = true
    (clears → Done (.pmcCfgWrite d blk v) s (fun c => c.pmcBlock d b = {} ∧ c.fld d (pmcOvfCnt b) = 0 ∧
      c.fld d (pmcOvfCyc b) = 0 ∧ (∀ ev, ev < 48 → c.flag d (pmcInvalid b ev) = false) ∧
      c.fld d (pmcMode b) = bits v 0 1 ∧ c = { s.chip with regs := c.regs, pmc := c.pmc })) ∧
    (¬ clears → Done (.pmcCfgWrite d blk v) s (fun c => OnlyRegs s.chip c ∧
      RegsBut (OneReg d (pmcCfgReg b)) s.chip c ∧ c.fld d (pmcMode b) = bits v 0 1 ∧ bit (c.reg d (pmcCfgReg b)) 1 = bit v 1))) ∧
  (∀ (s : State) (d : Die) (blk : Option (Fin 64)) (i : Fin 57), s.chip.runs d = true →
    let b := blk.map (fun n => n.val)
    let x := s.chip.pmcBlock d b
    let select := s.chip.flag d (pmcMode b)
    let hi := s.chip.fld d (pmcHi b)
    let value : Nat := if select then (if i.val = 0 then x.cyc else if i.val < 9 then x.cnt.get (i.val - 1) else 0)
      else if i.val < 9 then 0 else (x.words.get (i.val - 9) + x.fast.get (i.val - 9)) % 2 ^ 40
    let lost := select = false ∧ 9 ≤ i.val ∧ i.val - 9 ∈ x.bad
    (¬ lost → Done (.pmcCounterRead d blk i) s (fun c => c.returned = [word value] ∧
      c.fld d (pmcHi b) = value / 2 ^ 36 % 2 ^ 28 ∧ RegsBut (OneReg d (pmcHi b).off) s.chip c ∧
      c = { s.chip with regs := c.regs, returned := c.returned })) ∧
    (lost → Done (.pmcCounterRead d blk i) s (fun c => c.returned = [0] ∧ c.flag d (pmcInvalid b (i.val - 9)) = true ∧
      i.val - 9 ∉ (c.pmcBlock d b).bad ∧ (c.pmcBlock d b).words.get (i.val - 9) = 0 ∧ (c.pmcBlock d b).fast.get (i.val - 9) = 0 ∧
      (s.chip.flag d (pmcInvalid b (i.val - 9)) = true → c.log = s.chip.log) ∧
      (s.chip.flag d (pmcInvalid b (i.val - 9)) = false →
        Logged s.chip c d Ev.pmcLost (b.getD 0 + (i.val - 9) * 64 + if b.isNone then 2 ^ 12 else 0)))) ∧
    (s.chip.pmcRead d b i false = (s.chip, word value)) ∧
    (∀ v : W36, (select = true ↔ i.val < 9) → Done (.pmcCounterWrite d blk i v) s (fun c =>
      (c.pmcBlock d b).value select i = (hi * 2 ^ 36 + v.toNat) % 2 ^ (if select then (if i.val = 0 then 64 else 48) else 40) ∧
      (∀ j : Fin 57, j ≠ i → (c.pmcBlock d b).value select j = x.value select j) ∧ c = { s.chip with pmc := c.pmc })) ∧
    (∀ v : W36, ¬ (select = true ↔ i.val < 9) → NoEffect (.pmcCounterWrite d blk i v) s)) ∧
  (∀ (s : State) (d : Die) (blk : Option (Fin 64)) (ev : Fin 48), s.chip.runs d = true →
    let b := blk.map (fun n => n.val)
    let x := s.chip.pmcBlock d b
    (s.chip.flag d (pmcMode b) = true → NoEffect (.pmcFlush d blk ev) s) ∧
    (s.chip.flag d (pmcMode b) = false → ev.val ∉ x.bad → Done (.pmcFlush d blk ev) s (fun c =>
      (c.pmcBlock d b).fast.get ev.val = 0 ∧ (∀ j, (c.pmcBlock d b).value false j = x.value false j) ∧
      c = { s.chip with pmc := c.pmc })) ∧
    (s.chip.flag d (pmcMode b) = false → ev.val ∈ x.bad → Done (.pmcFlush d blk ev) s (fun c =>
      (c.pmcBlock d b).words.get ev.val = 0 ∧ (c.pmcBlock d b).fast.get ev.val = 0 ∧ c.flag d (pmcInvalid b ev) = true ∧
      ev.val ∉ (c.pmcBlock d b).bad ∧
      (s.chip.flag d (pmcInvalid b ev) = true → c.log = s.chip.log) ∧
      (s.chip.flag d (pmcInvalid b ev) = false →
        Logged s.chip c d Ev.pmcLost (b.getD 0 + ev.val * 64 + if b.isNone then 2 ^ 12 else 0))))) ∧
  (∀ (s : State) (d : Die) (blk : Option (Fin 64)) (i : Fin 8), s.chip.runs d = true →
    let b := blk.map (fun n => n.val)
    let x := s.chip.pmcBlock d b
    (i.val ∉ x.wrapped → NoEffect (.pmcOverflow d blk i) s) ∧
    (i.val ∈ x.wrapped → Done (.pmcOverflow d blk i) s (fun c =>
      c.fld d (pmcOvfCnt b) = s.chip.fld d (pmcOvfCnt b) ||| 2 ^ i.val ∧ i.val ∉ (c.pmcBlock d b).wrapped ∧
      c = { s.chip with regs := c.regs, pmc := c.pmc } ∧
      (∀ n, b = some n → c.fld d (F.OBE_INT_PEND_PEND n) = if s.chip.flag d (F.OBE_PMC_SEL_OVF_IRQ n i) then
        s.chip.fld d (F.OBE_INT_PEND_PEND n) ||| 2 ^ 6 else s.chip.fld d (F.OBE_INT_PEND_PEND n))))) ∧
  (∀ (s : State) (d : Die) (n : Fin 64) (v : W36), s.chip.runs d = true →
    Done (.obePmcUserWrite d n v true) s (fun c => c.flag d (F.OBE_PMC_USER_READ n) = bit v 0 ∧
      c.flag d (F.OBE_PMC_USER_WRITE n) = bit v 1 ∧ OnlyRegs s.chip c ∧ RegsBut (OneReg d (Reg.OBE_PMC_USER n)) s.chip c) ∧
    Done (.obePmcUserWrite d n v false) s (fun c => c.flag d (F.OBE_PMC_CFG_REFUSED n) = true ∧ OnlyRegs s.chip c ∧
      RegsBut (OneReg d (Reg.OBE_PMC_CFG n)) s.chip c)) ∧
  (∀ (s : State) (d : Die) (off : BitVec 23) (v : W36), s.chip.runs d = true →
    (findRow off.toNat = none → NoEffect (.registerWrite d off v) s) ∧
    (∀ n : Fin 64, off.toNat = Reg.OBE_PMC_USER n → Done (.registerWrite d off v) s (fun c =>
      c.flag d (F.OBE_PMC_CFG_REFUSED n) = true ∧ c.reg d off.toNat = s.chip.reg d off.toNat)) ∧
    (off.toNat = Reg.DRN_EVENT_CFG → Done (.registerWrite d off v) s (fun c =>
      bits (c.reg d Reg.DRN_EVENT_CFG) 0 16 = bits v 0 16 ∧ OnlyRegs s.chip c ∧
      RegsBut (OneReg d Reg.DRN_EVENT_CFG) s.chip c)) ∧
    (off.toNat = Reg.MIE_HALT_INFO → Done (.registerWrite d off v) s (fun c => OnlyRegs s.chip c ∧
      RegsBut (fun _ _ => False) s.chip c)) ∧
    (off.toNat = Reg.MIE_STATUS → Done (.registerWrite d off v) s (fun c =>
      c.flag d F.MIE_STATUS_REFUSED = (s.chip.flag d F.MIE_STATUS_REFUSED && !bit v 0) ∧ OnlyRegs s.chip c ∧
      RegsBut (OneReg d Reg.MIE_STATUS) s.chip c)))

/-- Loads: CONFIG_LOAD starts an attempt from the source that it names, RESOURCE while a reset runs, BUSY during another load, and from
USER every region is EMPTY first; CONFIG_DATA goes to the stream that its port carries; REGION_LOAD and UPDATE_VERIFY take the engine of
their die or are answered BUSY; UPDATE_APPLY starts with its first image (R131, R146, R155, R164, R165, R181, R580, R581, R584,
R585). -/
def Obligations.LoadCommands : Prop :=
  (∀ (s : State) (p : Fin 5) (h : W36) (ws : List W36), Accepts s.chip p 0x080 h ws →
    let w := ws.headD 0
    let w1 := ws.getD 1 0
    let held := s.chip.dieInReset (cmdDie h) = true ∨ s.chip.inReset ≠ 0 ∨ s.chip.resetDue ≠ 0 ∨ s.chip.cfg.resetPending = true
    let busy := s.chip.loads.any (fun e => e.2.isSome)
    (held → Done (.configLoad p) s (fun c => Replied c p h St.resource [] ∧ OnlyPort p s.chip c)) ∧
    (¬ held → busy = true → Done (.configLoad p) s (fun c => Replied c p h St.busy [] ∧ OnlyPort p s.chip c)) ∧
    (¬ held → busy = false → Done (.configLoad p) s (fun c => Replied c p h St.ok [] ∧ c.dev = .loading ∧
      (∀ d : Die, c.fld d F.CFG_STATUS_SLOT = bits w 0 2) ∧
      (∃ l, c.loads.get 4 = some l ∧ l.kind = .full ∧ l.writing = false ∧ l.count = 0 ∧ l.queue = [] ∧
        l.stream = (if bits w 0 2 = 2 then some p.val else none) ∧
        l.src = (if bits w 0 2 = 2 then .host p.val else if bits w 0 2 = 3 then .flash (bits w1 32 1) (bits w1 0 32)
          else s.chip.slotSource (bits w 0 2))) ∧
      (s.chip.dev = .user → c.flag 0 F.CFG_STATUS_DONE_OUT = false ∧
        ∀ (d : Die) (r : Fin 16), c.regionState d r = Rgn.empty)))) ∧
  (∀ (s : State) (p : Fin 5) (h : W36) (ws : List W36), Accepts s.chip p 0x081 h ws →
    ((∀ k l, k < 5 → s.chip.loads.get k = some l → l.stream ≠ some p.val) → Done (.configData p) s (fun c =>
      Replied c p h St.state (s.chip.stateWords 0x081 none) ∧ OnlyPort p s.chip c)) ∧
    (∀ k l, k < 5 → s.chip.loads.get k = some l → l.stream = some p.val →
      (∀ k' l', k' < k → s.chip.loads.get k' = some l' → l'.stream ≠ some p.val) →
      (l.writing = true → l.count ≠ imgLength l.head) → Done (.configData p) s (fun c =>
        c.loads.get k = some { l with queue := l.queue ++ ws, port := some p.val } ∧ SameBut k s.chip.loads c.loads ∧
        (c.cmd p).begun = true ∧ (c.cmd p).running = some (h :: ws) ∧
        c = { s.chip with loads := c.loads, cmds := c.cmds }))) ∧
  (∀ (s : State) (p : Fin 5) (h : W36) (ws : List W36) (i : Instr) (op : Nat),
    (i, op) ∈ [(Instr.regionLoad p, 0x082), (Instr.updateVerify p, 0x089)] → Accepts s.chip p op h ws →
    (s.chip.dieInReset (cmdDie h) = true → Done i s (fun c => Replied c p h St.resource [] ∧ OnlyPort p s.chip c)) ∧
    (s.chip.dieInReset (cmdDie h) = false → s.chip.engineBusy (cmdDie h) = true →
      Done i s (fun c => Replied c p h St.busy [] ∧ OnlyPort p s.chip c))) ∧
  (∀ (s : State) (p : Fin 5) (h : W36) (ws : List W36), Accepts s.chip p 0x082 h ws →
    s.chip.dieInReset (cmdDie h) = false → s.chip.engineBusy (cmdDie h) = false →
    let w := ws.headD 0
    let l : Loader := { kind := .part (bit w 2), slot := bits w 0 2 }
    (bits w 0 2 = 2 → Done (.regionLoad p) s (fun c => Replied c p h St.ok [] ∧
      c.loads.get (cmdDie h) = some { l with src := .host p.val, stream := some p.val } ∧
      SameBut (cmdDie h) s.chip.loads c.loads ∧ c.frames = s.chip.frames ∧ c.dev = s.chip.dev)) ∧
    (bits w 0 2 ≠ 2 → Done (.regionLoad p) s (fun c => (c.cmd p).begun = true ∧ (c.cmd p).running = some (h :: ws) ∧
      c.loads.get (cmdDie h) = some { l with
        src := (if bits w 0 2 = 3 then .flash (bits (ws.getD 1 0) 32 1) (bits (ws.getD 1 0) 0 32)
          else s.chip.slotSource (bits w 0 2))
        port := some p.val } ∧
      SameBut (cmdDie h) s.chip.loads c.loads ∧ c.frames = s.chip.frames))) ∧
  (∀ (s : State) (p : Fin 5) (h : W36) (ws : List W36), Accepts s.chip p 0x089 h ws →
    s.chip.dieInReset (cmdDie h) = false → s.chip.engineBusy (cmdDie h) = false → Done (.updateVerify p) s (fun c =>
      let slot := bits (ws.headD 0) 0 1
      (c.cmd p).begun = true ∧ (c.cmd p).running = some (h :: ws) ∧ c.regs = s.chip.regs ∧
      c.loads.get (cmdDie h) = some { kind := .verify, src := s.chip.slotSource slot, slot := slot, port := some p.val } ∧
      SameBut (cmdDie h) s.chip.loads c.loads)) ∧
  (∀ (s : State) (p : Fin 5) (h : W36) (ws : List W36), Accepts s.chip p 0x08A h ws →
    let d := cmdDie h
    let n := bits (ws.headD 0) 1 5
    let busy := s.chip.engineBusy d = true ∨ (s.chip.updates.get d).isSome = true
    (n = 0 ∨ 16 < n → Done (.updateApply p) s (fun c => Replied c p h St.param [] ∧ OnlyPort p s.chip c)) ∧
    (1 ≤ n → n ≤ 16 → s.chip.dieInReset d = true → Done (.updateApply p) s (fun c =>
      Replied c p h St.resource [] ∧ OnlyPort p s.chip c)) ∧
    (1 ≤ n → n ≤ 16 → s.chip.dieInReset d = false → busy → Done (.updateApply p) s (fun c =>
      Replied c p h St.busy [] ∧ OnlyPort p s.chip c)) ∧
    (1 ≤ n → n ≤ 16 → s.chip.dieInReset d = false → ¬ busy → Done (.updateApply p) s (fun c =>
      (c.cmd p).begun = true ∧ (c.cmd p).running = some (h :: ws) ∧
      c.loads.get d = some {
        kind := .part true, src := .flash (bits (ws.getD 4 0) 32 1) (bits (ws.getD 4 0) 0 32), update := true, slot := 3 } ∧
      ∃ u, c.updates.get d = some u ∧ u.port = some p.val ∧ u.chan = bits (ws.headD 0) 0 1 ∧
        u.step = bits (ws.headD 0) 6 16 ∧ u.lo = (ws.getD 1 0).toNat + bits (ws.getD 3 0) 0 12 * 2 ^ 36 ∧
        u.hi = (ws.getD 2 0).toNat + bits (ws.getD 3 0) 12 12 * 2 ^ 36 ∧ u.index = 0 ∧
        u.images = (ws.drop 4).map (fun w => (bits w 32 1, bits w 0 32)))))

/-! ### Commands that complete -/

/-- Commands with the conditions under which each completes, one clause a command or a shape. Events of a region: a stage of its
release, a failing frame, its repair, a fault of its domain (R130, R149). An ACTIVE bundle takes a frame; RETRAIN, REWIDEN and FENCE
act with the other side out of reset; a fence notice of another edge is noted (R232, R239, R244). A running core issues an arithmetic
or logic instruction without parallel moves, a shift, a branch or a call whose condition holds, through its last register or AP p
(R284, R289, R290, R301). UPDATE_WRITE stores its words in a slot that may be written, erasing the slot where OFFSET is 0 (R583). -/
def Obligations.CommandsComplete : Prop :=
  (∀ (s : State) (d : Die) (r : Fin 16), s.chip.runs d = true →
    ((s.chip.region d r).stepping = true → s.chip.regionState d r = Rgn.staging →
      s.chip.fld d (F.CFG_REGION_STATUS_STAGE r) < 3 → ∃ t, exec (.regionStageTimer d r) s = .next t ∧
        t.chip.fld d (F.CFG_REGION_STATUS_STAGE r) = s.chip.fld d (F.CFG_REGION_STATUS_STAGE r) + 1) ∧
    (∀ frame, s.chip.regionState d r = Rgn.active → ∃ t, exec (.regionFault d r frame) s = .next t ∧
      t.chip.regionState d r = Rgn.faulted) ∧
    (s.chip.regionState d r = Rgn.faulted → s.chip.flag d (F.CFG_REGION_CTRL_AUTO_REPAIR r) = true →
      s.chip.fld d (F.CFG_REGION_STATUS_FAULT_CAUSE r) = 1 → ∃ t, exec (.regionRepaired d r) s = .next t ∧
        t.chip.regionState d r = Rgn.isolated ∧ t.chip.flag d (F.CFG_REGION_STATUS_REPAIRED r) = true) ∧
    (s.chip.domState d r = 0 → ∃ t, exec (.domainPowerFault d r) s = .next t ∧ t.chip.regionState d r = Rgn.empty ∧
      t.chip.domState d r = 3)) ∧
  (∀ (s : State) (d : Die) (e : Fin 2) (k : Fin 8), s.chip.linked d = true → s.chip.peerRst d e = false →
    s.chip.crlState d e k = Crl.active →
    (∀ frame : BitVec 760, bits frame 752 8 = frameCrc frame → bits frame 748 4 = (s.chip.crlSide d e k).rxCount →
      ∃ t, exec (.crelinkFrame d e k frame) s = .next t ∧ (t.chip.crlSide d e k).rxCount = (bits frame 748 4 + 1) % 16 ∧
        t.chip.flights.length = s.chip.flights.length + ((List.range 3).filter (fun i => frame.getLsbD (744 + i))).length) ∧
    (∀ v : W36, bit v 2 = false → bit v 1 = false → ∃ t, exec (.retrain d e k v) s = .next t ∧
      t.chip.crlState d e k = Crl.pattern ∧ t.chip.fld d (F.CRL_BUNDLE_STATUS_ATTEMPT e k) = 1) ∧
    (∀ v : W36, bit v 2 = false → ∃ t, exec (.rewiden d e k v) s = .next t ∧
      t.chip.crlState d e k = Crl.pattern ∧ t.chip.fld d (F.CRL_BUNDLE_STATUS_FLOOR e k) = 2) ∧
    (∀ v : W36, ∃ t, exec (.fence d e k v) s = .next t ∧ t.chip.crlState d e k = Crl.fenced ∧
      t.chip.fld d (F.CRL_BUNDLE_STATUS_LAST_FAIL e k) = 5)) ∧
  (∀ (s : State) (d src : Die) (e : Fin 2) (edge : Fin 4) (k : Fin 8) (live : Bool), s.chip.linked d = true →
    s.chip.dieInReset (peerDie d e) = false → edge.val ≠ edgeOf d 0 → edge.val ≠ edgeOf d 1 →
    ∃ t, exec (.fenceNotice ⟨d, e, src⟩ edge k live) s = .next t ∧ bits (t.chip.live.get d) (8 * edge + k) 1 = ofBool live) ∧
  (∀ (s : State) (d : Die) (n : Fin 64) (pc t : Nat) (s1 s2 : Fin 4) (dd ng : Fin 2) (i : Instr) (op : AluOp),
    (i, op) ∈ [(Instr.mpy d n, AluOp.mpy), (.mac d n, .mac), (.dmpy d n, .dmpy), (.dmac d n, .dmac), (.sum d n, .sum),
      (.dif d n, .dif), (.add d n, .add), (.sub d n, .sub), (.adda d n, .adda), (.suba d n, .suba), (.tfr d n, .tfr),
      (.clrAcc d n, .clr), (.neg d n, .neg), (.abs d n, .abs), (.cmp d n, .cmp), (.andOp d n, .and), (.orOp d n, .or),
      (.xorOp d n, .xor), (.maxi d n, .maxi), (.mini d n, .mini)] →
    oboeAt s.chip d n pc t (.alu op s1 s2 dd ng .none .none) → Done i s (fun c => oboeNext s.chip c d n pc t 1 ∧
      keepsRegs s.chip c d n [4, 5, Rc.sr, Rc.mxv, Rc.mxi, Rc.ixc])) ∧
  (∀ (s : State) (d : Die) (n : Fin 64) (pc t : Nat) (i : Instr) (o : OInstr) (dd : Fin 2) (q : Fin 64) (k : Fin 64) (k' : Fin 8),
    (i, o) ∈ [(Instr.asr d n, OInstr.asr dd k), (.asl d n, .asl dd k), (.norm d n, .norm dd q), (.scale d n, .scale dd k' q)] →
    oboeAt s.chip d n pc t o → Done i s (fun c => oboeNext s.chip c d n pc t 1 ∧
      keepsRegs s.chip c d n [4 + dd, Rc.sr])) ∧
  (∀ (s : State) (d : Die) (n : Fin 64) (pc t : Nat) (cond : Fin 16) (target : Fin 8192) (p : Fin 8) (i : Instr) (o : OInstr)
      (dest : Nat),
    (i, o, dest) ∈ [(Instr.branch d n, OInstr.branch 0 cond target, target.val), (.call d n, .branch 1 cond target, target.val),
      (.bApn d n, .branchAp 0 cond p, (s.chip.core d n).committed (Rc.ap p)),
      (.callApn d n, .branchAp 1 cond p, (s.chip.core d n).committed (Rc.ap p))] →
    oboeAt s.chip d n pc t o → (s.chip.core d n).condition t cond = true → (s.chip.core d n).sys.length < 16 →
    Done i s (fun c => (c.core d n).pc = (pc + 1) % 8192 ∧ (c.core d n).cycle = t + 1 ∧ (c.core d n).slots = 2 ∧
      (c.core d n).target = some dest)) ∧
  (∀ (s : State) (p : Fin 5) (h : W36) (ws : List W36), Accepts s.chip p 0x088 h ws → ws.length ≤ 2 ^ 10 →
    let slot := bits (ws.headD 0) 0 1
    let offset := bits (ws.headD 0) 1 28
    let cs := (s.chip.slotRange slot).1
    let lo := (s.chip.slotRange slot).2.1
    let hi := (s.chip.slotRange slot).2.2
    let last := lo + (9 * (offset + (ws.length - 1)) + 1) / 2
    let octet (m : SMap (BitVec 8)) (a : Nat) : BitVec 8 := SMap.getD (fun _ => 0xFF) m a
    s.chip.updateRefusal (cmdDie h) slot = none → ∃ t, exec (.updateWrite p) s = .next t ∧
      Replied t.chip p h St.ok [] ∧ OnlyPort p s.chip t.chip ∧
      (∀ (i : Nat) (w : W36), ws.tail[i]? = some w → flashWord t.flash cs lo (offset + i) = w) ∧
      (offset = 0 → ∀ a, cs * 2 ^ 32 + last ≤ a → a < cs * 2 ^ 32 + hi → octet t.flash a = 0xFF) ∧
      (∀ a, a < cs * 2 ^ 32 + lo + 9 * offset / 2 ∨
          cs * 2 ^ 32 + (if offset = 0 then max hi last else last) ≤ a → octet t.flash a = octet s.flash a))
end

