-- ==== Sys2Proof/Laws/Map.lean ====
section
/-! SUPPORT. Laws of sparse maps: what reading after writing gives, and that every operation keeps the canonical form. -/

namespace Sys2Proof.Machine

variable {α : Type}

theorem SMap.find?_put (m : SMap α) (k k' : Nat) (v : α) :
    SMap.find? (SMap.put m k v) k' = if k' = k then some v else SMap.find? m k' := by
  induction m with
  | nil =>
    by_cases h : k' = k
    · simp [SMap.put, SMap.find?, h]
    · simp [SMap.put, SMap.find?, h, Ne.symm h]
  | cons e m ih =>
    obtain ⟨a, b⟩ := e
    simp only [SMap.put]
    split
    · by_cases h : k' = k
      · subst h; simp [SMap.find?]
      · simp [SMap.find?, h, Ne.symm h]
    · split
      · rename_i h1 h2; subst h2
        by_cases h : k' = k
        · subst h; simp [SMap.find?]
        · simp [SMap.find?, h, Ne.symm h]
      · rename_i h1 h2
        by_cases h : a = k'
        · subst h; simp [SMap.find?, Ne.symm h2]
        · simp [SMap.find?, h, ih]

theorem SMap.find?_filter (p : Nat → Bool) (m : SMap α) (k : Nat) :
    SMap.find? (m.filter (fun e => p e.1)) k = if p k then SMap.find? m k else none := by
  induction m with
  | nil => simp [SMap.find?]
  | cons e m ih =>
    obtain ⟨a, b⟩ := e
    by_cases ha : p a
    · by_cases h : a = k
      · subst h; simp [SMap.find?, ha]
      · simp [SMap.find?, ha, h, ih]
    · by_cases h : a = k
      · subst h; simp [ha, ih]
      · simp [SMap.find?, ha, h, ih]

theorem SMap.find?_erase (m : SMap α) (k k' : Nat) :
    SMap.find? (SMap.erase m k) k' = if k' = k then none else SMap.find? m k' := by
  have h := SMap.find?_filter (fun x => x != k) m k'
  by_cases e : k' = k <;> simp_all [SMap.erase]

/-- What a map reads at any key after one key was written. -/
theorem SMap.getD_setD [DecidableEq α] (dflt : Nat → α) (m : SMap α) (k k' : Nat) (v : α) :
    SMap.getD dflt (SMap.setD dflt m k v) k' = if k' = k then v else SMap.getD dflt m k' := by
  unfold SMap.setD SMap.getD
  by_cases hv : v = dflt k
  · rw [if_pos hv, SMap.find?_erase]; by_cases h : k' = k <;> simp [h, hv]
  · rw [if_neg hv, SMap.find?_put]; by_cases h : k' = k <;> simp [h]

@[simp] theorem SMap.getD_setD_same [DecidableEq α] (dflt : Nat → α) (m : SMap α) (k : Nat) (v : α) :
    SMap.getD dflt (SMap.setD dflt m k v) k = v := by simp [SMap.getD_setD]

theorem SMap.getD_setD_other [DecidableEq α] (dflt : Nat → α) (m : SMap α) {k k' : Nat} (v : α) (h : k' ≠ k) :
    SMap.getD dflt (SMap.setD dflt m k v) k' = SMap.getD dflt m k' := by simp [SMap.getD_setD, h]

/-- What a map of blank values reads at any key after one key was written. -/
theorem SMap.get_set [Inhabited α] [DecidableEq α] (m : SMap α) (k k' : Nat) (v : α) :
    (m.set k v).get k' = if k' = k then v else m.get k' := by
  simp [SMap.set, SMap.get, SMap.getD_setD]

@[simp] theorem SMap.get_set_same [Inhabited α] [DecidableEq α] (m : SMap α) (k : Nat) (v : α) : (m.set k v).get k = v := by
  simp [SMap.get_set]

theorem SMap.get_set_other [Inhabited α] [DecidableEq α] (m : SMap α) {k k' : Nat} (v : α) (h : k' ≠ k) :
    (m.set k v).get k' = m.get k' := by simp [SMap.get_set, h]

/-- What a map reads at any key after one key's value was passed through f. -/
theorem SMap.get_upd [Inhabited α] [DecidableEq α] (m : SMap α) (k k' : Nat) (f : α → α) :
    (m.upd k f).get k' = if k' = k then f (m.get k) else m.get k' := by simp [SMap.upd, SMap.get_set]

@[simp] theorem SMap.get_upd_same [Inhabited α] [DecidableEq α] (m : SMap α) (k : Nat) (f : α → α) :
    (m.upd k f).get k = f (m.get k) := by simp [SMap.get_upd]

theorem SMap.get_upd_other [Inhabited α] [DecidableEq α] (m : SMap α) {k k' : Nat} (f : α → α) (h : k' ≠ k) :
    (m.upd k f).get k' = m.get k' := by simp [SMap.get_upd, h]

theorem SMap.find?_dropRange (m : SMap α) (lo hi k : Nat) :
    SMap.find? (SMap.dropRange m lo hi) k = if lo ≤ k ∧ k < hi then none else SMap.find? m k := by
  have h := SMap.find?_filter (fun x => decide (x < lo) || decide (hi ≤ x)) m k
  unfold SMap.dropRange
  rw [h]
  by_cases h1 : lo ≤ k ∧ k < hi
  · have h2 : ¬ (k < lo) := by omega
    have h3 : ¬ (hi ≤ k) := by omega
    simp [h1, h2, h3]
  · have h2 : k < lo ∨ hi ≤ k := by omega
    rcases h2 with h2 | h2 <;> simp [h1, h2]

/-- Dropping a range makes its keys read as unlisted, and leaves the others. -/
theorem SMap.getD_dropRange (dflt : Nat → α) (m : SMap α) (lo hi k : Nat) :
    SMap.getD dflt (SMap.dropRange m lo hi) k = if lo ≤ k ∧ k < hi then dflt k else SMap.getD dflt m k := by
  unfold SMap.getD
  rw [SMap.find?_dropRange]
  by_cases h : lo ≤ k ∧ k < hi <;> simp [h]

/-! ### The canonical form -/

theorem SMap.sorted_cons (k : Nat) (v : α) (m : SMap α) :
    SMap.sorted ((k, v) :: m) = true ↔ (∀ e ∈ m, k < e.1) ∧ SMap.sorted m = true := by
  induction m generalizing k v with
  | nil => simp [SMap.sorted]
  | cons e m ih =>
    obtain ⟨a, b⟩ := e
    constructor
    · intro h
      simp only [SMap.sorted, Bool.and_eq_true, decide_eq_true_eq] at h
      refine ⟨?_, h.2⟩
      intro e he
      rcases List.mem_cons.mp he with rfl | he
      · exact h.1
      · exact Nat.lt_trans h.1 (((ih a b).mp h.2).1 e he)
    · rintro ⟨h1, h2⟩
      simp only [SMap.sorted, Bool.and_eq_true, decide_eq_true_eq]
      exact ⟨h1 (a, b) (by simp), h2⟩

theorem SMap.mem_put {m : SMap α} {k : Nat} {v : α} {e : Nat × α} (h : e ∈ SMap.put m k v) : e = (k, v) ∨ e ∈ m := by
  induction m with
  | nil => simpa [SMap.put] using h
  | cons x m ih =>
    obtain ⟨a, b⟩ := x
    simp only [SMap.put] at h
    split at h
    · simpa using h
    · split at h
      · simp only [List.mem_cons] at h ⊢; rcases h with h | h <;> simp [h]
      · simp only [List.mem_cons] at h ⊢
        rcases h with h | h
        · simp [h]
        · rcases ih h with h | h <;> simp [h]

theorem SMap.sorted_put {m : SMap α} (k : Nat) (v : α) (h : SMap.sorted m = true) : SMap.sorted (SMap.put m k v) = true := by
  induction m with
  | nil => rfl
  | cons x m ih =>
    obtain ⟨a, b⟩ := x
    have hs := (SMap.sorted_cons a b m).mp h
    simp only [SMap.put]
    split
    · rename_i hk
      refine (SMap.sorted_cons k v _).mpr ⟨?_, h⟩
      intro e he
      rcases List.mem_cons.mp he with rfl | he
      · exact hk
      · exact Nat.lt_trans hk (hs.1 e he)
    · split
      · rename_i h2; subst h2
        exact (SMap.sorted_cons k v m).mpr hs
      · rename_i h1 h2
        refine (SMap.sorted_cons a b _).mpr ⟨?_, ih hs.2⟩
        intro e he
        rcases SMap.mem_put he with rfl | he
        · simp; omega
        · exact hs.1 e he

theorem SMap.sorted_filter {m : SMap α} (p : Nat × α → Bool) (h : SMap.sorted m = true) :
    SMap.sorted (m.filter p) = true := by
  induction m with
  | nil => rfl
  | cons x m ih =>
    obtain ⟨a, b⟩ := x
    have hs := (SMap.sorted_cons a b m).mp h
    by_cases hp : p (a, b)
    · rw [List.filter_cons_of_pos hp]
      exact (SMap.sorted_cons a b _).mpr ⟨fun e he => hs.1 e (List.mem_filter.mp he).1, ih hs.2⟩
    · rw [List.filter_cons_of_neg hp]; exact ih hs.2

/-- Writing a key keeps the canonical form. -/
theorem SMap.wf_setD [DecidableEq α] (dflt : Nat → α) {m : SMap α} (k : Nat) (v : α) (h : SMap.wf dflt m = true) :
    SMap.wf dflt (SMap.setD dflt m k v) = true := by
  simp only [SMap.wf, Bool.and_eq_true, List.all_eq_true] at h ⊢
  unfold SMap.setD
  split
  · exact ⟨SMap.sorted_filter _ h.1, fun e he => h.2 e (List.mem_filter.mp he).1⟩
  · rename_i hv
    refine ⟨SMap.sorted_put k v h.1, fun e he => ?_⟩
    rcases SMap.mem_put he with rfl | he
    · simpa using hv
    · exact h.2 e he

/-- Dropping a range keeps the canonical form. -/
theorem SMap.wf_dropRange [DecidableEq α] (dflt : Nat → α) {m : SMap α} (lo hi : Nat) (h : SMap.wf dflt m = true) :
    SMap.wf dflt (SMap.dropRange m lo hi) = true := by
  simp only [SMap.wf, Bool.and_eq_true, List.all_eq_true] at h ⊢
  exact ⟨SMap.sorted_filter _ h.1, fun e he => h.2 e (List.mem_filter.mp he).1⟩

end Sys2Proof.Machine
end

