-- ==== Sys2Proof/Laws/State.lean ====
section
/-! SUPPORT. Each update of the state beside each field it leaves as it was. -/

namespace Sys2Proof.Machine

/-! ### The whole state -/

@[simp] theorem State.onChip_eq (s : State) (f : Chip → Chip) : s.onChip f = .next { s with chip := f s.chip } := rfl
@[simp] theorem State.onDie_eq (s : State) (d : Nat) (f : Chip → Chip) :
    s.onDie d f = .next { s with chip := s.chip.when (s.chip.runs d) f } := rfl
@[simp] theorem State.onLinks_eq (s : State) (d : Nat) (f : Chip → Chip) :
    s.onLinks d f = .next { s with chip := s.chip.when (s.chip.linked d) f } := rfl
@[simp] theorem Chip.when_true (s : Chip) (f : Chip → Chip) : s.when true f = f s := rfl
@[simp] theorem Chip.when_false (s : Chip) (f : Chip → Chip) : s.when false f = s := rfl

/-! ### A register written -/

@[simp] theorem Chip.setReg_now (s : Chip) (d off : Nat) (w : W36) : (s.setReg d off w).now = s.now := rfl
@[simp] theorem Chip.setReg_free (s : Chip) (d off : Nat) (w : W36) : (s.setReg d off w).free = s.free := rfl
@[simp] theorem Chip.setReg_returned (s : Chip) (d off : Nat) (w : W36) : (s.setReg d off w).returned = s.returned := rfl
@[simp] theorem Chip.setReg_cfg (s : Chip) (d off : Nat) (w : W36) : (s.setReg d off w).cfg = s.cfg := rfl
@[simp] theorem Chip.setReg_loads (s : Chip) (d off : Nat) (w : W36) : (s.setReg d off w).loads = s.loads := rfl
@[simp] theorem Chip.setReg_updates (s : Chip) (d off : Nat) (w : W36) : (s.setReg d off w).updates = s.updates := rfl
@[simp] theorem Chip.setReg_frames (s : Chip) (d off : Nat) (w : W36) : (s.setReg d off w).frames = s.frames := rfl
@[simp] theorem Chip.setReg_globalKept (s : Chip) (d off : Nat) (w : W36) : (s.setReg d off w).globalKept = s.globalKept := rfl
@[simp] theorem Chip.setReg_ff (s : Chip) (d off : Nat) (w : W36) : (s.setReg d off w).ff = s.ff := rfl
@[simp] theorem Chip.setReg_lutRam (s : Chip) (d off : Nat) (w : W36) : (s.setReg d off w).lutRam = s.lutRam := rfl
@[simp] theorem Chip.setReg_ramWords (s : Chip) (d off : Nat) (w : W36) : (s.setReg d off w).ramWords = s.ramWords := rfl
@[simp] theorem Chip.setReg_ramMacros (s : Chip) (d off : Nat) (w : W36) : (s.setReg d off w).ramMacros = s.ramMacros := rfl
@[simp] theorem Chip.setReg_gates (s : Chip) (d off : Nat) (w : W36) : (s.setReg d off w).gates = s.gates := rfl
@[simp] theorem Chip.setReg_regions (s : Chip) (d off : Nat) (w : W36) : (s.setReg d off w).regions = s.regions := rfl
@[simp] theorem Chip.setReg_claims (s : Chip) (d off : Nat) (w : W36) : (s.setReg d off w).claims = s.claims := rfl
@[simp] theorem Chip.setReg_latches (s : Chip) (d off : Nat) (w : W36) : (s.setReg d off w).latches = s.latches := rfl
@[simp] theorem Chip.setReg_frozen (s : Chip) (d off : Nat) (w : W36) : (s.setReg d off w).frozen = s.frozen := rfl
@[simp] theorem Chip.setReg_frozenEdge (s : Chip) (d off : Nat) (w : W36) : (s.setReg d off w).frozenEdge = s.frozenEdge := rfl
@[simp] theorem Chip.setReg_collars (s : Chip) (d off : Nat) (w : W36) : (s.setReg d off w).collars = s.collars := rfl
@[simp] theorem Chip.setReg_dividers (s : Chip) (d off : Nat) (w : W36) : (s.setReg d off w).dividers = s.dividers := rfl
@[simp] theorem Chip.setReg_nc (s : Chip) (d off : Nat) (w : W36) : (s.setReg d off w).nc = s.nc := rfl
@[simp] theorem Chip.setReg_ncUse (s : Chip) (d off : Nat) (w : W36) : (s.setReg d off w).ncUse = s.ncUse := rfl
@[simp] theorem Chip.setReg_returnedAt (s : Chip) (d off : Nat) (w : W36) : (s.setReg d off w).returnedAt = s.returnedAt := rfl
@[simp] theorem Chip.setReg_notices (s : Chip) (d off : Nat) (w : W36) : (s.setReg d off w).notices = s.notices := rfl
@[simp] theorem Chip.setReg_health (s : Chip) (d off : Nat) (w : W36) : (s.setReg d off w).health = s.health := rfl
@[simp] theorem Chip.setReg_flights (s : Chip) (d off : Nat) (w : W36) : (s.setReg d off w).flights = s.flights := rfl
@[simp] theorem Chip.setReg_ports (s : Chip) (d off : Nat) (w : W36) : (s.setReg d off w).ports = s.ports := rfl
@[simp] theorem Chip.setReg_crl (s : Chip) (d off : Nat) (w : W36) : (s.setReg d off w).crl = s.crl := rfl
@[simp] theorem Chip.setReg_live (s : Chip) (d off : Nat) (w : W36) : (s.setReg d off w).live = s.live := rfl
@[simp] theorem Chip.setReg_karn (s : Chip) (d off : Nat) (w : W36) : (s.setReg d off w).karn = s.karn := rfl
@[simp] theorem Chip.setReg_pmc (s : Chip) (d off : Nat) (w : W36) : (s.setReg d off w).pmc = s.pmc := rfl
@[simp] theorem Chip.setReg_cores (s : Chip) (d off : Nat) (w : W36) : (s.setReg d off w).cores = s.cores := rfl
@[simp] theorem Chip.setReg_coreMem (s : Chip) (d off : Nat) (w : W36) : (s.setReg d off w).coreMem = s.coreMem := rfl
@[simp] theorem Chip.setReg_coreMems (s : Chip) (d off : Nat) (w : W36) : (s.setReg d off w).coreMems = s.coreMems := rfl
@[simp] theorem Chip.setReg_blwStore (s : Chip) (d off : Nat) (w : W36) : (s.setReg d off w).blwStore = s.blwStore := rfl
@[simp] theorem Chip.setReg_blwReady (s : Chip) (d off : Nat) (w : W36) : (s.setReg d off w).blwReady = s.blwReady := rfl
@[simp] theorem Chip.setReg_blwHeld (s : Chip) (d off : Nat) (w : W36) : (s.setReg d off w).blwHeld = s.blwHeld := rfl
@[simp] theorem Chip.setReg_blwWindow (s : Chip) (d off : Nat) (w : W36) : (s.setReg d off w).blwWindow = s.blwWindow := rfl
@[simp] theorem Chip.setReg_blwQueue (s : Chip) (d off : Nat) (w : W36) : (s.setReg d off w).blwQueue = s.blwQueue := rfl
@[simp] theorem Chip.setReg_blwWorkers (s : Chip) (d off : Nat) (w : W36) : (s.setReg d off w).blwWorkers = s.blwWorkers := rfl
@[simp] theorem Chip.setReg_fabMail (s : Chip) (d off : Nat) (w : W36) : (s.setReg d off w).fabMail = s.fabMail := rfl
@[simp] theorem Chip.setReg_chn (s : Chip) (d off : Nat) (w : W36) : (s.setReg d off w).chn = s.chn := rfl
@[simp] theorem Chip.setReg_chnDies (s : Chip) (d off : Nat) (w : W36) : (s.setReg d off w).chnDies = s.chnDies := rfl
@[simp] theorem Chip.setReg_chnAll (s : Chip) (d off : Nat) (w : W36) : (s.setReg d off w).chnAll = s.chnAll := rfl
@[simp] theorem Chip.setReg_cues (s : Chip) (d off : Nat) (w : W36) : (s.setReg d off w).cues = s.cues := rfl
@[simp] theorem Chip.setReg_patWords (s : Chip) (d off : Nat) (w : W36) : (s.setReg d off w).patWords = s.patWords := rfl
@[simp] theorem Chip.setReg_patMems (s : Chip) (d off : Nat) (w : W36) : (s.setReg d off w).patMems = s.patMems := rfl
@[simp] theorem Chip.setReg_blwMems (s : Chip) (d off : Nat) (w : W36) : (s.setReg d off w).blwMems = s.blwMems := rfl
@[simp] theorem Chip.setReg_cacheMems (s : Chip) (d off : Nat) (w : W36) : (s.setReg d off w).cacheMems = s.cacheMems := rfl
@[simp] theorem Chip.setReg_banks (s : Chip) (d off : Nat) (w : W36) : (s.setReg d off w).banks = s.banks := rfl
@[simp] theorem Chip.setReg_lanes (s : Chip) (d off : Nat) (w : W36) : (s.setReg d off w).lanes = s.lanes := rfl
@[simp] theorem Chip.setReg_quadRef (s : Chip) (d off : Nat) (w : W36) : (s.setReg d off w).quadRef = s.quadRef := rfl
@[simp] theorem Chip.setReg_macs (s : Chip) (d off : Nat) (w : W36) : (s.setReg d off w).macs = s.macs := rfl
@[simp] theorem Chip.setReg_subs (s : Chip) (d off : Nat) (w : W36) : (s.setReg d off w).subs = s.subs := rfl
@[simp] theorem Chip.setReg_dram (s : Chip) (d off : Nat) (w : W36) : (s.setReg d off w).dram = s.dram := rfl
@[simp] theorem Chip.setReg_ddr (s : Chip) (d off : Nat) (w : W36) : (s.setReg d off w).ddr = s.ddr := rfl
@[simp] theorem Chip.setReg_taps (s : Chip) (d off : Nat) (w : W36) : (s.setReg d off w).taps = s.taps := rfl
@[simp] theorem Chip.setReg_cmds (s : Chip) (d off : Nat) (w : W36) : (s.setReg d off w).cmds = s.cmds := rfl
@[simp] theorem Chip.setReg_log (s : Chip) (d off : Nat) (w : W36) : (s.setReg d off w).log = s.log := rfl
@[simp] theorem Chip.setReg_timeSvc (s : Chip) (d off : Nat) (w : W36) : (s.setReg d off w).timeSvc = s.timeSvc := rfl
@[simp] theorem Chip.setReg_sec (s : Chip) (d off : Nat) (w : W36) : (s.setReg d off w).sec = s.sec := rfl
@[simp] theorem Chip.setReg_fuses (s : Chip) (d off : Nat) (w : W36) : (s.setReg d off w).fuses = s.fuses := rfl
@[simp] theorem Chip.setReg_devTime (s : Chip) (d off : Nat) (w : W36) : (s.setReg d off w).devTime = s.devTime := rfl
@[simp] theorem Chip.setReg_doms (s : Chip) (d off : Nat) (w : W36) : (s.setReg d off w).doms = s.doms := rfl
@[simp] theorem Chip.setReg_clocks (s : Chip) (d off : Nat) (w : W36) : (s.setReg d off w).clocks = s.clocks := rfl
@[simp] theorem Chip.setReg_ramps (s : Chip) (d off : Nat) (w : W36) : (s.setReg d off w).ramps = s.ramps := rfl
@[simp] theorem Chip.setReg_railOut (s : Chip) (d off : Nat) (w : W36) : (s.setReg d off w).railOut = s.railOut := rfl
@[simp] theorem Chip.setReg_inReset (s : Chip) (d off : Nat) (w : W36) : (s.setReg d off w).inReset = s.inReset := rfl
@[simp] theorem Chip.setReg_resetDue (s : Chip) (d off : Nat) (w : W36) : (s.setReg d off w).resetDue = s.resetDue := rfl
@[simp] theorem Chip.setReg_haltOut (s : Chip) (d off : Nat) (w : W36) : (s.setReg d off w).haltOut = s.haltOut := rfl
@[simp] theorem Chip.setReg_haltDie (s : Chip) (d off : Nat) (w : W36) : (s.setReg d off w).haltDie = s.haltDie := rfl

@[simp] theorem Chip.setFld_now (s : Chip) (d : Nat) (f : Fld) (v : Nat) : (s.setFld d f v).now = s.now := rfl
@[simp] theorem Chip.setFld_free (s : Chip) (d : Nat) (f : Fld) (v : Nat) : (s.setFld d f v).free = s.free := rfl
@[simp] theorem Chip.setFld_returned (s : Chip) (d : Nat) (f : Fld) (v : Nat) : (s.setFld d f v).returned = s.returned := rfl
@[simp] theorem Chip.setFld_cfg (s : Chip) (d : Nat) (f : Fld) (v : Nat) : (s.setFld d f v).cfg = s.cfg := rfl
@[simp] theorem Chip.setFld_loads (s : Chip) (d : Nat) (f : Fld) (v : Nat) : (s.setFld d f v).loads = s.loads := rfl
@[simp] theorem Chip.setFld_updates (s : Chip) (d : Nat) (f : Fld) (v : Nat) : (s.setFld d f v).updates = s.updates := rfl
@[simp] theorem Chip.setFld_frames (s : Chip) (d : Nat) (f : Fld) (v : Nat) : (s.setFld d f v).frames = s.frames := rfl
@[simp] theorem Chip.setFld_globalKept (s : Chip) (d : Nat) (f : Fld) (v : Nat) : (s.setFld d f v).globalKept = s.globalKept := rfl
@[simp] theorem Chip.setFld_ff (s : Chip) (d : Nat) (f : Fld) (v : Nat) : (s.setFld d f v).ff = s.ff := rfl
@[simp] theorem Chip.setFld_lutRam (s : Chip) (d : Nat) (f : Fld) (v : Nat) : (s.setFld d f v).lutRam = s.lutRam := rfl
@[simp] theorem Chip.setFld_ramWords (s : Chip) (d : Nat) (f : Fld) (v : Nat) : (s.setFld d f v).ramWords = s.ramWords := rfl
@[simp] theorem Chip.setFld_ramMacros (s : Chip) (d : Nat) (f : Fld) (v : Nat) : (s.setFld d f v).ramMacros = s.ramMacros := rfl
@[simp] theorem Chip.setFld_gates (s : Chip) (d : Nat) (f : Fld) (v : Nat) : (s.setFld d f v).gates = s.gates := rfl
@[simp] theorem Chip.setFld_regions (s : Chip) (d : Nat) (f : Fld) (v : Nat) : (s.setFld d f v).regions = s.regions := rfl
@[simp] theorem Chip.setFld_claims (s : Chip) (d : Nat) (f : Fld) (v : Nat) : (s.setFld d f v).claims = s.claims := rfl
@[simp] theorem Chip.setFld_latches (s : Chip) (d : Nat) (f : Fld) (v : Nat) : (s.setFld d f v).latches = s.latches := rfl
@[simp] theorem Chip.setFld_frozen (s : Chip) (d : Nat) (f : Fld) (v : Nat) : (s.setFld d f v).frozen = s.frozen := rfl
@[simp] theorem Chip.setFld_frozenEdge (s : Chip) (d : Nat) (f : Fld) (v : Nat) : (s.setFld d f v).frozenEdge = s.frozenEdge := rfl
@[simp] theorem Chip.setFld_collars (s : Chip) (d : Nat) (f : Fld) (v : Nat) : (s.setFld d f v).collars = s.collars := rfl
@[simp] theorem Chip.setFld_dividers (s : Chip) (d : Nat) (f : Fld) (v : Nat) : (s.setFld d f v).dividers = s.dividers := rfl
@[simp] theorem Chip.setFld_nc (s : Chip) (d : Nat) (f : Fld) (v : Nat) : (s.setFld d f v).nc = s.nc := rfl
@[simp] theorem Chip.setFld_ncUse (s : Chip) (d : Nat) (f : Fld) (v : Nat) : (s.setFld d f v).ncUse = s.ncUse := rfl
@[simp] theorem Chip.setFld_returnedAt (s : Chip) (d : Nat) (f : Fld) (v : Nat) : (s.setFld d f v).returnedAt = s.returnedAt := rfl
@[simp] theorem Chip.setFld_notices (s : Chip) (d : Nat) (f : Fld) (v : Nat) : (s.setFld d f v).notices = s.notices := rfl
@[simp] theorem Chip.setFld_health (s : Chip) (d : Nat) (f : Fld) (v : Nat) : (s.setFld d f v).health = s.health := rfl
@[simp] theorem Chip.setFld_flights (s : Chip) (d : Nat) (f : Fld) (v : Nat) : (s.setFld d f v).flights = s.flights := rfl
@[simp] theorem Chip.setFld_ports (s : Chip) (d : Nat) (f : Fld) (v : Nat) : (s.setFld d f v).ports = s.ports := rfl
@[simp] theorem Chip.setFld_crl (s : Chip) (d : Nat) (f : Fld) (v : Nat) : (s.setFld d f v).crl = s.crl := rfl
@[simp] theorem Chip.setFld_live (s : Chip) (d : Nat) (f : Fld) (v : Nat) : (s.setFld d f v).live = s.live := rfl
@[simp] theorem Chip.setFld_karn (s : Chip) (d : Nat) (f : Fld) (v : Nat) : (s.setFld d f v).karn = s.karn := rfl
@[simp] theorem Chip.setFld_pmc (s : Chip) (d : Nat) (f : Fld) (v : Nat) : (s.setFld d f v).pmc = s.pmc := rfl
@[simp] theorem Chip.setFld_cores (s : Chip) (d : Nat) (f : Fld) (v : Nat) : (s.setFld d f v).cores = s.cores := rfl
@[simp] theorem Chip.setFld_coreMem (s : Chip) (d : Nat) (f : Fld) (v : Nat) : (s.setFld d f v).coreMem = s.coreMem := rfl
@[simp] theorem Chip.setFld_coreMems (s : Chip) (d : Nat) (f : Fld) (v : Nat) : (s.setFld d f v).coreMems = s.coreMems := rfl
@[simp] theorem Chip.setFld_blwStore (s : Chip) (d : Nat) (f : Fld) (v : Nat) : (s.setFld d f v).blwStore = s.blwStore := rfl
@[simp] theorem Chip.setFld_blwReady (s : Chip) (d : Nat) (f : Fld) (v : Nat) : (s.setFld d f v).blwReady = s.blwReady := rfl
@[simp] theorem Chip.setFld_blwHeld (s : Chip) (d : Nat) (f : Fld) (v : Nat) : (s.setFld d f v).blwHeld = s.blwHeld := rfl
@[simp] theorem Chip.setFld_blwWindow (s : Chip) (d : Nat) (f : Fld) (v : Nat) : (s.setFld d f v).blwWindow = s.blwWindow := rfl
@[simp] theorem Chip.setFld_blwQueue (s : Chip) (d : Nat) (f : Fld) (v : Nat) : (s.setFld d f v).blwQueue = s.blwQueue := rfl
@[simp] theorem Chip.setFld_blwWorkers (s : Chip) (d : Nat) (f : Fld) (v : Nat) : (s.setFld d f v).blwWorkers = s.blwWorkers := rfl
@[simp] theorem Chip.setFld_fabMail (s : Chip) (d : Nat) (f : Fld) (v : Nat) : (s.setFld d f v).fabMail = s.fabMail := rfl
@[simp] theorem Chip.setFld_chn (s : Chip) (d : Nat) (f : Fld) (v : Nat) : (s.setFld d f v).chn = s.chn := rfl
@[simp] theorem Chip.setFld_chnDies (s : Chip) (d : Nat) (f : Fld) (v : Nat) : (s.setFld d f v).chnDies = s.chnDies := rfl
@[simp] theorem Chip.setFld_chnAll (s : Chip) (d : Nat) (f : Fld) (v : Nat) : (s.setFld d f v).chnAll = s.chnAll := rfl
@[simp] theorem Chip.setFld_cues (s : Chip) (d : Nat) (f : Fld) (v : Nat) : (s.setFld d f v).cues = s.cues := rfl
@[simp] theorem Chip.setFld_patWords (s : Chip) (d : Nat) (f : Fld) (v : Nat) : (s.setFld d f v).patWords = s.patWords := rfl
@[simp] theorem Chip.setFld_patMems (s : Chip) (d : Nat) (f : Fld) (v : Nat) : (s.setFld d f v).patMems = s.patMems := rfl
@[simp] theorem Chip.setFld_blwMems (s : Chip) (d : Nat) (f : Fld) (v : Nat) : (s.setFld d f v).blwMems = s.blwMems := rfl
@[simp] theorem Chip.setFld_cacheMems (s : Chip) (d : Nat) (f : Fld) (v : Nat) : (s.setFld d f v).cacheMems = s.cacheMems := rfl
@[simp] theorem Chip.setFld_banks (s : Chip) (d : Nat) (f : Fld) (v : Nat) : (s.setFld d f v).banks = s.banks := rfl
@[simp] theorem Chip.setFld_lanes (s : Chip) (d : Nat) (f : Fld) (v : Nat) : (s.setFld d f v).lanes = s.lanes := rfl
@[simp] theorem Chip.setFld_quadRef (s : Chip) (d : Nat) (f : Fld) (v : Nat) : (s.setFld d f v).quadRef = s.quadRef := rfl
@[simp] theorem Chip.setFld_macs (s : Chip) (d : Nat) (f : Fld) (v : Nat) : (s.setFld d f v).macs = s.macs := rfl
@[simp] theorem Chip.setFld_subs (s : Chip) (d : Nat) (f : Fld) (v : Nat) : (s.setFld d f v).subs = s.subs := rfl
@[simp] theorem Chip.setFld_dram (s : Chip) (d : Nat) (f : Fld) (v : Nat) : (s.setFld d f v).dram = s.dram := rfl
@[simp] theorem Chip.setFld_ddr (s : Chip) (d : Nat) (f : Fld) (v : Nat) : (s.setFld d f v).ddr = s.ddr := rfl
@[simp] theorem Chip.setFld_taps (s : Chip) (d : Nat) (f : Fld) (v : Nat) : (s.setFld d f v).taps = s.taps := rfl
@[simp] theorem Chip.setFld_cmds (s : Chip) (d : Nat) (f : Fld) (v : Nat) : (s.setFld d f v).cmds = s.cmds := rfl
@[simp] theorem Chip.setFld_log (s : Chip) (d : Nat) (f : Fld) (v : Nat) : (s.setFld d f v).log = s.log := rfl
@[simp] theorem Chip.setFld_timeSvc (s : Chip) (d : Nat) (f : Fld) (v : Nat) : (s.setFld d f v).timeSvc = s.timeSvc := rfl
@[simp] theorem Chip.setFld_sec (s : Chip) (d : Nat) (f : Fld) (v : Nat) : (s.setFld d f v).sec = s.sec := rfl
@[simp] theorem Chip.setFld_fuses (s : Chip) (d : Nat) (f : Fld) (v : Nat) : (s.setFld d f v).fuses = s.fuses := rfl
@[simp] theorem Chip.setFld_devTime (s : Chip) (d : Nat) (f : Fld) (v : Nat) : (s.setFld d f v).devTime = s.devTime := rfl
@[simp] theorem Chip.setFld_doms (s : Chip) (d : Nat) (f : Fld) (v : Nat) : (s.setFld d f v).doms = s.doms := rfl
@[simp] theorem Chip.setFld_clocks (s : Chip) (d : Nat) (f : Fld) (v : Nat) : (s.setFld d f v).clocks = s.clocks := rfl
@[simp] theorem Chip.setFld_ramps (s : Chip) (d : Nat) (f : Fld) (v : Nat) : (s.setFld d f v).ramps = s.ramps := rfl
@[simp] theorem Chip.setFld_railOut (s : Chip) (d : Nat) (f : Fld) (v : Nat) : (s.setFld d f v).railOut = s.railOut := rfl
@[simp] theorem Chip.setFld_inReset (s : Chip) (d : Nat) (f : Fld) (v : Nat) : (s.setFld d f v).inReset = s.inReset := rfl
@[simp] theorem Chip.setFld_resetDue (s : Chip) (d : Nat) (f : Fld) (v : Nat) : (s.setFld d f v).resetDue = s.resetDue := rfl
@[simp] theorem Chip.setFld_haltOut (s : Chip) (d : Nat) (f : Fld) (v : Nat) : (s.setFld d f v).haltOut = s.haltOut := rfl
@[simp] theorem Chip.setFld_haltDie (s : Chip) (d : Nat) (f : Fld) (v : Nat) : (s.setFld d f v).haltDie = s.haltDie := rfl

@[simp] theorem Chip.setFlag_now (s : Chip) (d : Nat) (f : Fld) (b : Bool) : (s.setFlag d f b).now = s.now := rfl
@[simp] theorem Chip.setFlag_free (s : Chip) (d : Nat) (f : Fld) (b : Bool) : (s.setFlag d f b).free = s.free := rfl
@[simp] theorem Chip.setFlag_returned (s : Chip) (d : Nat) (f : Fld) (b : Bool) : (s.setFlag d f b).returned = s.returned := rfl
@[simp] theorem Chip.setFlag_cfg (s : Chip) (d : Nat) (f : Fld) (b : Bool) : (s.setFlag d f b).cfg = s.cfg := rfl
@[simp] theorem Chip.setFlag_loads (s : Chip) (d : Nat) (f : Fld) (b : Bool) : (s.setFlag d f b).loads = s.loads := rfl
@[simp] theorem Chip.setFlag_updates (s : Chip) (d : Nat) (f : Fld) (b : Bool) : (s.setFlag d f b).updates = s.updates := rfl
@[simp] theorem Chip.setFlag_frames (s : Chip) (d : Nat) (f : Fld) (b : Bool) : (s.setFlag d f b).frames = s.frames := rfl
@[simp] theorem Chip.setFlag_globalKept (s : Chip) (d : Nat) (f : Fld) (b : Bool) : (s.setFlag d f b).globalKept = s.globalKept := rfl
@[simp] theorem Chip.setFlag_ff (s : Chip) (d : Nat) (f : Fld) (b : Bool) : (s.setFlag d f b).ff = s.ff := rfl
@[simp] theorem Chip.setFlag_lutRam (s : Chip) (d : Nat) (f : Fld) (b : Bool) : (s.setFlag d f b).lutRam = s.lutRam := rfl
@[simp] theorem Chip.setFlag_ramWords (s : Chip) (d : Nat) (f : Fld) (b : Bool) : (s.setFlag d f b).ramWords = s.ramWords := rfl
@[simp] theorem Chip.setFlag_ramMacros (s : Chip) (d : Nat) (f : Fld) (b : Bool) : (s.setFlag d f b).ramMacros = s.ramMacros := rfl
@[simp] theorem Chip.setFlag_gates (s : Chip) (d : Nat) (f : Fld) (b : Bool) : (s.setFlag d f b).gates = s.gates := rfl
@[simp] theorem Chip.setFlag_regions (s : Chip) (d : Nat) (f : Fld) (b : Bool) : (s.setFlag d f b).regions = s.regions := rfl
@[simp] theorem Chip.setFlag_claims (s : Chip) (d : Nat) (f : Fld) (b : Bool) : (s.setFlag d f b).claims = s.claims := rfl
@[simp] theorem Chip.setFlag_latches (s : Chip) (d : Nat) (f : Fld) (b : Bool) : (s.setFlag d f b).latches = s.latches := rfl
@[simp] theorem Chip.setFlag_frozen (s : Chip) (d : Nat) (f : Fld) (b : Bool) : (s.setFlag d f b).frozen = s.frozen := rfl
@[simp] theorem Chip.setFlag_frozenEdge (s : Chip) (d : Nat) (f : Fld) (b : Bool) : (s.setFlag d f b).frozenEdge = s.frozenEdge := rfl
@[simp] theorem Chip.setFlag_collars (s : Chip) (d : Nat) (f : Fld) (b : Bool) : (s.setFlag d f b).collars = s.collars := rfl
@[simp] theorem Chip.setFlag_dividers (s : Chip) (d : Nat) (f : Fld) (b : Bool) : (s.setFlag d f b).dividers = s.dividers := rfl
@[simp] theorem Chip.setFlag_nc (s : Chip) (d : Nat) (f : Fld) (b : Bool) : (s.setFlag d f b).nc = s.nc := rfl
@[simp] theorem Chip.setFlag_ncUse (s : Chip) (d : Nat) (f : Fld) (b : Bool) : (s.setFlag d f b).ncUse = s.ncUse := rfl
@[simp] theorem Chip.setFlag_returnedAt (s : Chip) (d : Nat) (f : Fld) (b : Bool) : (s.setFlag d f b).returnedAt = s.returnedAt := rfl
@[simp] theorem Chip.setFlag_notices (s : Chip) (d : Nat) (f : Fld) (b : Bool) : (s.setFlag d f b).notices = s.notices := rfl
@[simp] theorem Chip.setFlag_health (s : Chip) (d : Nat) (f : Fld) (b : Bool) : (s.setFlag d f b).health = s.health := rfl
@[simp] theorem Chip.setFlag_flights (s : Chip) (d : Nat) (f : Fld) (b : Bool) : (s.setFlag d f b).flights = s.flights := rfl
@[simp] theorem Chip.setFlag_ports (s : Chip) (d : Nat) (f : Fld) (b : Bool) : (s.setFlag d f b).ports = s.ports := rfl
@[simp] theorem Chip.setFlag_crl (s : Chip) (d : Nat) (f : Fld) (b : Bool) : (s.setFlag d f b).crl = s.crl := rfl
@[simp] theorem Chip.setFlag_live (s : Chip) (d : Nat) (f : Fld) (b : Bool) : (s.setFlag d f b).live = s.live := rfl
@[simp] theorem Chip.setFlag_karn (s : Chip) (d : Nat) (f : Fld) (b : Bool) : (s.setFlag d f b).karn = s.karn := rfl
@[simp] theorem Chip.setFlag_pmc (s : Chip) (d : Nat) (f : Fld) (b : Bool) : (s.setFlag d f b).pmc = s.pmc := rfl
@[simp] theorem Chip.setFlag_cores (s : Chip) (d : Nat) (f : Fld) (b : Bool) : (s.setFlag d f b).cores = s.cores := rfl
@[simp] theorem Chip.setFlag_coreMem (s : Chip) (d : Nat) (f : Fld) (b : Bool) : (s.setFlag d f b).coreMem = s.coreMem := rfl
@[simp] theorem Chip.setFlag_coreMems (s : Chip) (d : Nat) (f : Fld) (b : Bool) : (s.setFlag d f b).coreMems = s.coreMems := rfl
@[simp] theorem Chip.setFlag_blwStore (s : Chip) (d : Nat) (f : Fld) (b : Bool) : (s.setFlag d f b).blwStore = s.blwStore := rfl
@[simp] theorem Chip.setFlag_blwReady (s : Chip) (d : Nat) (f : Fld) (b : Bool) : (s.setFlag d f b).blwReady = s.blwReady := rfl
@[simp] theorem Chip.setFlag_blwHeld (s : Chip) (d : Nat) (f : Fld) (b : Bool) : (s.setFlag d f b).blwHeld = s.blwHeld := rfl
@[simp] theorem Chip.setFlag_blwWindow (s : Chip) (d : Nat) (f : Fld) (b : Bool) : (s.setFlag d f b).blwWindow = s.blwWindow := rfl
@[simp] theorem Chip.setFlag_blwQueue (s : Chip) (d : Nat) (f : Fld) (b : Bool) : (s.setFlag d f b).blwQueue = s.blwQueue := rfl
@[simp] theorem Chip.setFlag_blwWorkers (s : Chip) (d : Nat) (f : Fld) (b : Bool) : (s.setFlag d f b).blwWorkers = s.blwWorkers := rfl
@[simp] theorem Chip.setFlag_fabMail (s : Chip) (d : Nat) (f : Fld) (b : Bool) : (s.setFlag d f b).fabMail = s.fabMail := rfl
@[simp] theorem Chip.setFlag_chn (s : Chip) (d : Nat) (f : Fld) (b : Bool) : (s.setFlag d f b).chn = s.chn := rfl
@[simp] theorem Chip.setFlag_chnDies (s : Chip) (d : Nat) (f : Fld) (b : Bool) : (s.setFlag d f b).chnDies = s.chnDies := rfl
@[simp] theorem Chip.setFlag_chnAll (s : Chip) (d : Nat) (f : Fld) (b : Bool) : (s.setFlag d f b).chnAll = s.chnAll := rfl
@[simp] theorem Chip.setFlag_cues (s : Chip) (d : Nat) (f : Fld) (b : Bool) : (s.setFlag d f b).cues = s.cues := rfl
@[simp] theorem Chip.setFlag_patWords (s : Chip) (d : Nat) (f : Fld) (b : Bool) : (s.setFlag d f b).patWords = s.patWords := rfl
@[simp] theorem Chip.setFlag_patMems (s : Chip) (d : Nat) (f : Fld) (b : Bool) : (s.setFlag d f b).patMems = s.patMems := rfl
@[simp] theorem Chip.setFlag_blwMems (s : Chip) (d : Nat) (f : Fld) (b : Bool) : (s.setFlag d f b).blwMems = s.blwMems := rfl
@[simp] theorem Chip.setFlag_cacheMems (s : Chip) (d : Nat) (f : Fld) (b : Bool) : (s.setFlag d f b).cacheMems = s.cacheMems := rfl
@[simp] theorem Chip.setFlag_banks (s : Chip) (d : Nat) (f : Fld) (b : Bool) : (s.setFlag d f b).banks = s.banks := rfl
@[simp] theorem Chip.setFlag_lanes (s : Chip) (d : Nat) (f : Fld) (b : Bool) : (s.setFlag d f b).lanes = s.lanes := rfl
@[simp] theorem Chip.setFlag_quadRef (s : Chip) (d : Nat) (f : Fld) (b : Bool) : (s.setFlag d f b).quadRef = s.quadRef := rfl
@[simp] theorem Chip.setFlag_macs (s : Chip) (d : Nat) (f : Fld) (b : Bool) : (s.setFlag d f b).macs = s.macs := rfl
@[simp] theorem Chip.setFlag_subs (s : Chip) (d : Nat) (f : Fld) (b : Bool) : (s.setFlag d f b).subs = s.subs := rfl
@[simp] theorem Chip.setFlag_dram (s : Chip) (d : Nat) (f : Fld) (b : Bool) : (s.setFlag d f b).dram = s.dram := rfl
@[simp] theorem Chip.setFlag_ddr (s : Chip) (d : Nat) (f : Fld) (b : Bool) : (s.setFlag d f b).ddr = s.ddr := rfl
@[simp] theorem Chip.setFlag_taps (s : Chip) (d : Nat) (f : Fld) (b : Bool) : (s.setFlag d f b).taps = s.taps := rfl
@[simp] theorem Chip.setFlag_cmds (s : Chip) (d : Nat) (f : Fld) (b : Bool) : (s.setFlag d f b).cmds = s.cmds := rfl
@[simp] theorem Chip.setFlag_log (s : Chip) (d : Nat) (f : Fld) (b : Bool) : (s.setFlag d f b).log = s.log := rfl
@[simp] theorem Chip.setFlag_timeSvc (s : Chip) (d : Nat) (f : Fld) (b : Bool) : (s.setFlag d f b).timeSvc = s.timeSvc := rfl
@[simp] theorem Chip.setFlag_sec (s : Chip) (d : Nat) (f : Fld) (b : Bool) : (s.setFlag d f b).sec = s.sec := rfl
@[simp] theorem Chip.setFlag_fuses (s : Chip) (d : Nat) (f : Fld) (b : Bool) : (s.setFlag d f b).fuses = s.fuses := rfl
@[simp] theorem Chip.setFlag_devTime (s : Chip) (d : Nat) (f : Fld) (b : Bool) : (s.setFlag d f b).devTime = s.devTime := rfl
@[simp] theorem Chip.setFlag_doms (s : Chip) (d : Nat) (f : Fld) (b : Bool) : (s.setFlag d f b).doms = s.doms := rfl
@[simp] theorem Chip.setFlag_clocks (s : Chip) (d : Nat) (f : Fld) (b : Bool) : (s.setFlag d f b).clocks = s.clocks := rfl
@[simp] theorem Chip.setFlag_ramps (s : Chip) (d : Nat) (f : Fld) (b : Bool) : (s.setFlag d f b).ramps = s.ramps := rfl
@[simp] theorem Chip.setFlag_railOut (s : Chip) (d : Nat) (f : Fld) (b : Bool) : (s.setFlag d f b).railOut = s.railOut := rfl
@[simp] theorem Chip.setFlag_inReset (s : Chip) (d : Nat) (f : Fld) (b : Bool) : (s.setFlag d f b).inReset = s.inReset := rfl
@[simp] theorem Chip.setFlag_resetDue (s : Chip) (d : Nat) (f : Fld) (b : Bool) : (s.setFlag d f b).resetDue = s.resetDue := rfl
@[simp] theorem Chip.setFlag_haltOut (s : Chip) (d : Nat) (f : Fld) (b : Bool) : (s.setFlag d f b).haltOut = s.haltOut := rfl
@[simp] theorem Chip.setFlag_haltDie (s : Chip) (d : Nat) (f : Fld) (b : Bool) : (s.setFlag d f b).haltDie = s.haltDie := rfl

@[simp] theorem Chip.onPort_frame (s : Chip) (r p : Nat) (f : NocPort → NocPort) (g : SMap NocPort) :
    { s.onPort r p f with ports := g } = { s with ports := g } := rfl
@[simp] theorem Chip.onPort_regs (s : Chip) (r p : Nat) (f : NocPort → NocPort) : (s.onPort r p f).regs = s.regs := rfl
@[simp] theorem Chip.onPort_cfg (s : Chip) (r p : Nat) (f : NocPort → NocPort) : (s.onPort r p f).cfg = s.cfg := rfl
@[simp] theorem Chip.onPort_reg (s : Chip) (r p : Nat) (f : NocPort → NocPort) (a b : Nat) : (s.onPort r p f).reg a b = s.reg a b := rfl
@[simp] theorem Chip.onPort_fld (s : Chip) (r p : Nat) (f : NocPort → NocPort) (a : Nat) (x : Fld) : (s.onPort r p f).fld a x = s.fld a x := rfl
@[simp] theorem Chip.onRegion_frame (s : Chip) (d r : Nat) (f : RegionRec → RegionRec) (g : SMap RegionRec) :
    { s.onRegion d r f with regions := g } = { s with regions := g } := rfl
@[simp] theorem Chip.onRegion_regs (s : Chip) (d r : Nat) (f : RegionRec → RegionRec) : (s.onRegion d r f).regs = s.regs := rfl
@[simp] theorem Chip.onRegion_cfg (s : Chip) (d r : Nat) (f : RegionRec → RegionRec) : (s.onRegion d r f).cfg = s.cfg := rfl
@[simp] theorem Chip.onRegion_reg (s : Chip) (d r : Nat) (f : RegionRec → RegionRec) (a b : Nat) : (s.onRegion d r f).reg a b = s.reg a b := rfl
@[simp] theorem Chip.onRegion_fld (s : Chip) (d r : Nat) (f : RegionRec → RegionRec) (a : Nat) (x : Fld) : (s.onRegion d r f).fld a x = s.fld a x := rfl
@[simp] theorem Chip.onDom_frame (s : Chip) (d n : Nat) (f : DomRec → DomRec) (g : SMap DomRec) :
    { s.onDom d n f with doms := g } = { s with doms := g } := rfl
@[simp] theorem Chip.onDom_regs (s : Chip) (d n : Nat) (f : DomRec → DomRec) : (s.onDom d n f).regs = s.regs := rfl
@[simp] theorem Chip.onDom_cfg (s : Chip) (d n : Nat) (f : DomRec → DomRec) : (s.onDom d n f).cfg = s.cfg := rfl
@[simp] theorem Chip.onDom_reg (s : Chip) (d n : Nat) (f : DomRec → DomRec) (a b : Nat) : (s.onDom d n f).reg a b = s.reg a b := rfl
@[simp] theorem Chip.onDom_fld (s : Chip) (d n : Nat) (f : DomRec → DomRec) (a : Nat) (x : Fld) : (s.onDom d n f).fld a x = s.fld a x := rfl
@[simp] theorem Chip.onClock_frame (s : Chip) (d : Nat) (f : DieClock → DieClock) (g : SMap DieClock) :
    { s.onClock d f with clocks := g } = { s with clocks := g } := rfl
@[simp] theorem Chip.onClock_regs (s : Chip) (d : Nat) (f : DieClock → DieClock) : (s.onClock d f).regs = s.regs := rfl
@[simp] theorem Chip.onClock_cfg (s : Chip) (d : Nat) (f : DieClock → DieClock) : (s.onClock d f).cfg = s.cfg := rfl
@[simp] theorem Chip.onClock_reg (s : Chip) (d : Nat) (f : DieClock → DieClock) (a b : Nat) : (s.onClock d f).reg a b = s.reg a b := rfl
@[simp] theorem Chip.onClock_fld (s : Chip) (d : Nat) (f : DieClock → DieClock) (a : Nat) (x : Fld) : (s.onClock d f).fld a x = s.fld a x := rfl
@[simp] theorem Chip.setReg_dev (s : Chip) (d off : Nat) (w : W36) : (s.setReg d off w).dev = s.dev := rfl
@[simp] theorem Chip.setReg_runs (s : Chip) (d off : Nat) (w : W36) (x : Nat) : (s.setReg d off w).runs x = s.runs x := rfl
@[simp] theorem Chip.setFld_dev (s : Chip) (d : Nat) (f : Fld) (v : Nat) : (s.setFld d f v).dev = s.dev := rfl
@[simp] theorem Chip.setFld_runs (s : Chip) (d : Nat) (f : Fld) (v : Nat) (x : Nat) : (s.setFld d f v).runs x = s.runs x := rfl
@[simp] theorem Chip.setFlag_dev (s : Chip) (d : Nat) (f : Fld) (b : Bool) : (s.setFlag d f b).dev = s.dev := rfl
@[simp] theorem Chip.setFlag_runs (s : Chip) (d : Nat) (f : Fld) (b : Bool) (x : Nat) : (s.setFlag d f b).runs x = s.runs x := rfl

end Sys2Proof.Machine
end

