-- ==== Sys2Proof/Laws/Word.lean ====
section
/-! SUPPORT. Laws of the fields of a word: what a field reads after a field was written. -/

namespace Sys2Proof

theorem testBit_bits {n : Nat} (w : BitVec n) (lo width i : Nat) :
    (bits w lo width).testBit i = (decide (i < width) && w.getLsbD (lo + i)) := by
  simp [bits, Nat.testBit_mod_two_pow, Nat.testBit_shiftRight, BitVec.getLsbD]

theorem getLsbD_putBits {n : Nat} (w : BitVec n) (lo width v i : Nat) (h : i < n) :
    (putBits w lo width v).getLsbD i = if lo ≤ i ∧ i < lo + width then v.testBit (i - lo) else w.getLsbD i := by
  simp only [putBits, BitVec.getLsbD_or, BitVec.getLsbD_and, BitVec.getLsbD_not, BitVec.getLsbD_ofNat, h, decide_true,
    Bool.true_and, Nat.testBit_shiftLeft, Nat.testBit_mod_two_pow, Nat.testBit_two_pow_sub_one]
  by_cases h1 : lo ≤ i
  · by_cases h2 : i < lo + width
    · have h3 : i - lo < width := by omega
      simp [h1, h2, h3]
    · have h3 : ¬ (i - lo < width) := by omega
      simp [h1, h2, h3]
  · simp [h1]

/-- A field reads what was written to it, cut to its width. -/
theorem bits_putBits_same {n : Nat} (w : BitVec n) (lo width v : Nat) (h : lo + width ≤ n) :
    bits (putBits w lo width v) lo width = v % 2 ^ width := by
  apply Nat.eq_of_testBit_eq
  intro i
  rw [testBit_bits, Nat.testBit_mod_two_pow]
  by_cases hi : i < width
  · rw [getLsbD_putBits _ _ _ _ _ (by omega)]
    simp [hi]
  · simp [hi]

/-- A field keeps its value when bits outside it are written. -/
theorem bits_putBits_other {n : Nat} (w : BitVec n) (lo width lo' width' v : Nat)
    (h : lo' + width' ≤ lo ∨ lo + width ≤ lo') :
    bits (putBits w lo width v) lo' width' = bits w lo' width' := by
  apply Nat.eq_of_testBit_eq
  intro i
  rw [testBit_bits, testBit_bits]
  by_cases hi : i < width'
  · by_cases hn : lo' + i < n
    · rw [getLsbD_putBits _ _ _ _ _ hn, if_neg (by omega)]
    · rw [BitVec.getLsbD_of_ge _ _ (by omega), BitVec.getLsbD_of_ge _ _ (by omega)]
  · simp [hi]

theorem bits_lt {n : Nat} (w : BitVec n) (lo width : Nat) : bits w lo width < 2 ^ width :=
  Nat.mod_lt _ (Nat.two_pow_pos width)

end Sys2Proof
end

