-- ==== Sys2Proof/Laws/Chip.lean ====
section
/-! SUPPORT. What the shared operations do, said once: registers and fields read after written, and for each operation all that it
can change. -/

namespace Sys2Proof.Machine

/-! ### Registers -/

theorem regKey_inj {d off d' off' : Nat} (h : off < 2 ^ 23) (h' : off' < 2 ^ 23) :
    regKey d off = regKey d' off' ↔ d = d' ∧ off = off' := by unfold regKey; omega

/-- A register whose key is not listed reads its Reset column. -/
theorem Chip.reg_unlisted {s : Chip} {d off : Nat} (h : SMap.find? s.regs (regKey d off) = none) : s.reg d off = resetWord off := by
  simp [Chip.reg, h]

/-- A register read after a register was written. -/
theorem Chip.reg_setReg (s : Chip) (d off d' off' : Nat) (w : W36) :
    (s.setReg d off w).reg d' off' = if regKey d' off' = regKey d off then w else s.reg d' off' := by
  simp only [Chip.reg, Chip.setReg, SMap.find?_put]
  by_cases h : regKey d' off' = regKey d off <;> simp [h]

@[simp] theorem Chip.reg_setReg_same (s : Chip) (d off : Nat) (w : W36) : (s.setReg d off w).reg d off = w := by
  simp [Chip.reg_setReg]

theorem Chip.reg_setReg_other (s : Chip) {d off d' off' : Nat} (w : W36) (h : regKey d' off' ≠ regKey d off) :
    (s.setReg d off w).reg d' off' = s.reg d' off' := by simp [Chip.reg_setReg, h]

/-- Writing any one register leaves the others as they were. -/
theorem Chip.setReg_regsBut (s : Chip) {d off : Nat} (w : W36) (ho : off < 2 ^ 23) :
    RegsBut (OneReg d off) s (s.setReg d off w) := by
  intro d' off' h hn
  refine Chip.reg_setReg_other s w ?_
  intro e
  exact hn ((regKey_inj h ho).mp e)

/-- A field read after it was written. -/
theorem Chip.fld_setFld_same (s : Chip) (d : Nat) (f : Fld) (v : Nat) (h : f.lo + f.width ≤ 36) :
    (s.setFld d f v).fld d f = v % 2 ^ f.width := by
  simp [Chip.fld, Chip.setFld, bits_putBits_same _ _ _ _ h]

/-- A field read after a field of another register was written. -/
theorem Chip.fld_setFld_reg (s : Chip) {d d' : Nat} {f f' : Fld} (v : Nat) (h : regKey d' f'.off ≠ regKey d f.off) :
    (s.setFld d f v).fld d' f' = s.fld d' f' := by
  simp [Chip.fld, Chip.setFld, Chip.reg_setReg_other _ _ h]

/-- A field read after another field of its register was written. -/
theorem Chip.fld_setFld_bits (s : Chip) (d : Nat) {f f' : Fld} (v : Nat) (ho : f'.off = f.off)
    (h : f'.lo + f'.width ≤ f.lo ∨ f.lo + f.width ≤ f'.lo) : (s.setFld d f v).fld d f' = s.fld d f' := by
  simp [Chip.fld, Chip.setFld, ho, bits_putBits_other _ _ _ _ _ _ h]

/-- Two fields that share no bit: of registers with different keys, or of one register at disjoint bits. -/
def Fld.Apart (d : Nat) (f : Fld) (d' : Nat) (f' : Fld) : Prop :=
  regKey d' f'.off ≠ regKey d f.off ∨ (d' = d ∧ f'.off = f.off ∧ (f'.lo + f'.width ≤ f.lo ∨ f.lo + f.width ≤ f'.lo))

/-- A field that is apart from a written field keeps its value. -/
theorem Chip.fld_setFld_apart (s : Chip) {d d' : Nat} {f f' : Fld} (v : Nat) (h : Fld.Apart d f d' f') :
    (s.setFld d f v).fld d' f' = s.fld d' f' := by
  rcases h with h | ⟨rfl, ho, h⟩
  · exact Chip.fld_setFld_reg s v h
  · exact Chip.fld_setFld_bits s d' v ho h

theorem Chip.fld_lt (s : Chip) (d : Nat) (f : Fld) : s.fld d f < 2 ^ f.width := bits_lt _ _ _

theorem Chip.setFlag_eq (s : Chip) (d : Nat) (f : Fld) (b : Bool) : s.setFlag d f b = s.setFld d f (ofBool b) := rfl

theorem Chip.flag_setFlag_same (s : Chip) (d : Nat) (f : Fld) (b : Bool) (h : f.lo + f.width ≤ 36) (hw : f.width = 1) :
    (s.setFlag d f b).flag d f = b := by
  simp only [Chip.flag, Chip.setFlag, Chip.fld_setFld_same _ _ _ _ h, hw]
  cases b <;> rfl

theorem Chip.flag_setFld_apart (s : Chip) {d d' : Nat} {f f' : Fld} (v : Nat) (h : Fld.Apart d f d' f') :
    (s.setFld d f v).flag d' f' = s.flag d' f' := by simp [Chip.flag, Chip.fld_setFld_apart s v h]

theorem Chip.reg_resetRegs (s : Chip) (d lo hi d' off : Nat) :
    (s.resetRegs d lo hi).reg d' off =
      if regKey d lo ≤ regKey d' off ∧ regKey d' off < regKey d hi then resetWord off else s.reg d' off := by
  have h := SMap.find?_dropRange s.regs (regKey d lo) (regKey d hi) (regKey d' off)
  simp only [Chip.reg, Chip.resetRegs, h]
  by_cases hk : regKey d lo ≤ regKey d' off ∧ regKey d' off < regKey d hi <;> simp [hk]

/-! ### How register frames are put together -/

theorem OnlyRegs.refl (s : Chip) : OnlyRegs s s := rfl

theorem OnlyRegs.trans {a b c : Chip} (h : OnlyRegs a b) (h' : OnlyRegs b c) : OnlyRegs a c := by
  unfold OnlyRegs at *; rw [h', h]

theorem OnlyRegs.setReg (s : Chip) (d off : Nat) (w : W36) : OnlyRegs s (s.setReg d off w) := rfl

theorem OnlyRegs.setFld (s : Chip) (d : Nat) (f : Fld) (v : Nat) : OnlyRegs s (s.setFld d f v) := rfl

theorem OnlyRegs.setFlag (s : Chip) (d : Nat) (f : Fld) (b : Bool) : OnlyRegs s (s.setFlag d f b) := rfl

theorem OnlyRegs.resetRegs (s : Chip) (d lo hi : Nat) : OnlyRegs s (s.resetRegs d lo hi) := rfl

theorem OnlyRegs.when {s : Chip} {c : Bool} {f : Chip → Chip} (h : OnlyRegs s (f s)) : OnlyRegs s (s.when c f) := by
  cases c
  · rfl
  · exact h

theorem OnlyRegs.each {α : Type} {f : Chip → α → Chip} (h : ∀ s x, OnlyRegs s (f s x)) (xs : List α) (s : Chip) :
    OnlyRegs s (s.each xs f) := by
  induction xs generalizing s with
  | nil => rfl
  | cons x xs ih => exact (h s x).trans (ih (f s x))

theorem OnlyRegs.upTo {f : Chip → Nat → Chip} (h : ∀ s x, OnlyRegs s (f s x)) (n : Nat) (s : Chip) : OnlyRegs s (s.upTo n f) :=
  OnlyRegs.each h (List.range n) s

theorem RegsBut.refl (P : Nat → Nat → Prop) (s : Chip) : RegsBut P s s := fun _ _ _ _ => rfl

theorem RegsBut.trans {P : Nat → Nat → Prop} {a b c : Chip} (h : RegsBut P a b) (h' : RegsBut P b c) : RegsBut P a c :=
  fun d off ho hn => (h' d off ho hn).trans (h d off ho hn)

theorem RegsBut.mono {P Q : Nat → Nat → Prop} {a b : Chip} (h : RegsBut P a b) (hpq : ∀ d off, P d off → Q d off) : RegsBut Q a b :=
  fun d off ho hn => h d off ho (fun hp => hn (hpq d off hp))

theorem RegsBut.of_regs {P : Nat → Nat → Prop} {a b : Chip} (h : b.regs = a.regs) : RegsBut P a b := by
  intro d off _ _; simp [Chip.reg, h]

theorem RegsBut.setReg {P : Nat → Nat → Prop} (s : Chip) {d off : Nat} (w : W36) (ho : off < 2 ^ 23) (hp : P d off) :
    RegsBut P s (s.setReg d off w) :=
  (Chip.setReg_regsBut s w ho).mono (fun _ _ h => by obtain ⟨rfl, rfl⟩ := h; exact hp)

theorem RegsBut.setFld {P : Nat → Nat → Prop} (s : Chip) {d : Nat} {f : Fld} (v : Nat) (ho : f.off < 2 ^ 23) (hp : P d f.off) :
    RegsBut P s (s.setFld d f v) := RegsBut.setReg s _ ho hp

theorem RegsBut.setFlag {P : Nat → Nat → Prop} (s : Chip) {d : Nat} {f : Fld} (b : Bool) (ho : f.off < 2 ^ 23) (hp : P d f.off) :
    RegsBut P s (s.setFlag d f b) := RegsBut.setReg s _ ho hp

theorem RegsBut.when {P : Nat → Nat → Prop} {s : Chip} {c : Bool} {f : Chip → Chip} (h : RegsBut P s (f s)) :
    RegsBut P s (s.when c f) := by
  cases c
  · exact RegsBut.refl P s
  · exact h

theorem RegsBut.each {α : Type} {P : Nat → Nat → Prop} {f : Chip → α → Chip} (xs : List α)
    (h : ∀ s, ∀ x ∈ xs, RegsBut P s (f s x)) (s : Chip) : RegsBut P s (s.each xs f) := by
  induction xs generalizing s with
  | nil => exact RegsBut.refl P s
  | cons x xs ih =>
    exact (h s x (by simp)).trans (ih (fun s y hy => h s y (by simp [hy])) (f s x))

theorem RegsBut.upTo {P : Nat → Nat → Prop} {f : Chip → Nat → Chip} (n : Nat) (h : ∀ s, ∀ x, x < n → RegsBut P s (f s x))
    (s : Chip) : RegsBut P s (s.upTo n f) :=
  RegsBut.each (List.range n) (fun s x hx => h s x (List.mem_range.mp hx)) s

/-- A field outside what a register frame names keeps its value. -/
theorem RegsBut.fld {P : Nat → Nat → Prop} {a b : Chip} (h : RegsBut P a b) {d : Nat} {f : Fld} (ho : f.off < 2 ^ 23)
    (hn : ¬ P d f.off) : b.fld d f = a.fld d f := by simp [Chip.fld, h d f.off ho hn]

/-! ### The device state -/

/-- Entering a device state changes that state and CFG_STATUS of the four dies. -/
theorem Chip.setDev_only (s : Chip) (v : DevState) : OnlyRegs { s with cfg := { s.cfg with dev := v } } (s.setDev v) :=
  OnlyRegs.upTo (fun s d => OnlyRegs.setFld s d _ _) 4 _

@[simp] theorem Chip.setDev_dev (s : Chip) (v : DevState) : (s.setDev v).dev = v := by
  unfold Chip.dev; rw [Chip.setDev_only s v]

theorem Chip.setDev_regsBut (s : Chip) (v : DevState) :
    RegsBut (fun d off => d < 4 ∧ off = F.CFG_STATUS_DEV_STATE.off) s (s.setDev v) := by
  have h0 : RegsBut (fun d off => d < 4 ∧ off = F.CFG_STATUS_DEV_STATE.off) s { s with cfg := { s.cfg with dev := v } } :=
    RegsBut.of_regs rfl
  exact h0.trans (RegsBut.upTo 4 (fun s x hx => RegsBut.setFld s _ (by decide) ⟨hx, rfl⟩) _)

theorem Chip.setDev_shows (s : Chip) (v : DevState) {d : Nat} (hd : d < 4) :
    (s.setDev v).fld d F.CFG_STATUS_DEV_STATE = v.code := by
  have hv : v.code % 2 ^ 4 = v.code := by cases v <;> rfl
  have hne : ∀ a b : Nat, a ≠ b → regKey a F.CFG_STATUS_DEV_STATE.off ≠ regKey b F.CFG_STATUS_DEV_STATE.off := by
    intro a b hab h; exact hab ((regKey_inj (by decide) (by decide)).mp h).1
  have hr : List.range 4 = [0, 1, 2, 3] := rfl
  simp only [Chip.setDev, Chip.upTo, hr, List.foldl]
  have : d = 0 ∨ d = 1 ∨ d = 2 ∨ d = 3 := by omega
  rcases this with rfl | rfl | rfl | rfl
  · rw [Chip.fld_setFld_reg _ _ (hne 0 3 (by decide)), Chip.fld_setFld_reg _ _ (hne 0 2 (by decide)),
      Chip.fld_setFld_reg _ _ (hne 0 1 (by decide)), Chip.fld_setFld_same _ _ _ _ (by decide)]; exact hv
  · rw [Chip.fld_setFld_reg _ _ (hne 1 3 (by decide)), Chip.fld_setFld_reg _ _ (hne 1 2 (by decide)),
      Chip.fld_setFld_same _ _ _ _ (by decide)]; exact hv
  · rw [Chip.fld_setFld_reg _ _ (hne 2 3 (by decide)), Chip.fld_setFld_same _ _ _ _ (by decide)]; exact hv
  · rw [Chip.fld_setFld_same _ _ _ _ (by decide)]; exact hv

/-! ### Packets submitted -/

theorem Chip.submit_frame (s : Chip) (router port : Nat) (p : Packet) :
    s.submit router port p = { s with ports := (s.submit router port p).ports } := by unfold Chip.submit Chip.onPort; rfl

@[simp] theorem Chip.submit_reg (s : Chip) (router port : Nat) (p : Packet) (d off : Nat) :
    (s.submit router port p).reg d off = s.reg d off := rfl

/-- A packet submitted waits last at its port, or is refused to its endpoint where it can never fit the window (R202). -/
theorem Chip.submit_port (s : Chip) (router port : Nat) (p : Packet) :
    (s.submit router port p).port router port =
      if s.fits router port p then { s.port router port with waiting := (s.port router port).waiting ++ [p] }
      else { s.port router port with refusedOwn := (s.port router port).refusedOwn ++ [p] } := by
  simp [Chip.submit, Chip.onPort, Chip.port]

theorem Chip.sendFlit_frame (s : Chip) (router port : Nat) (f : Flit) :
    s.sendFlit router port f = { s with ports := (s.sendFlit router port f).ports } := rfl

/-! ### The fabric settles; a router's nc -/

/-- Steps that each change flip-flops only change flip-flops only together. -/
theorem foldl_ff {α : Type} {f : Chip → α → Chip} (h : ∀ s x, f s x = { s with ff := (f s x).ff }) (l : List α) (s : Chip) :
    l.foldl f s = { s with ff := (l.foldl f s).ff } := by
  induction l generalizing s with
  | nil => rfl
  | cons x l ih =>
    have join : ∀ a b c : Chip, b = { a with ff := b.ff } → c = { b with ff := c.ff } → c = { a with ff := c.ff } := by
      intro a b c h h'; rw [h', h]
    exact join s (f s x) _ (h s x) (ih (f s x))

/-- Asynchronous resets of a die change flip-flops only (R42). -/
theorem Chip.settle_frame (s : Chip) (d : Nat) : s.settle d = { s with ff := (s.settle d).ff } :=
  foldl_ff (fun _ _ => rfl) _ s

theorem Chip.onUse_frame (s : Chip) (router : Nat) (f : NcUse → NcUse) :
    s.onUse router f = { s with ncUse := (s.onUse router f).ncUse } := rfl

@[simp] theorem Chip.useOf_onUse (s : Chip) (router : Nat) (f : NcUse → NcUse) : (s.onUse router f).useOf router = f (s.useOf router) := by
  simp [Chip.onUse, Chip.useOf]

@[simp] theorem Chip.onUse_regs (s : Chip) (router : Nat) (f : NcUse → NcUse) : (s.onUse router f).regs = s.regs := rfl
@[simp] theorem Chip.onUse_ports (s : Chip) (router : Nat) (f : NcUse → NcUse) : (s.onUse router f).ports = s.ports := rfl
@[simp] theorem Chip.onUse_flights (s : Chip) (router : Nat) (f : NcUse → NcUse) : (s.onUse router f).flights = s.flights := rfl

/-! ### What reads only one part of the chip -/

theorem Chip.reg_congr {a b : Chip} (h : a.regs = b.regs) (d off : Nat) : a.reg d off = b.reg d off := by simp [Chip.reg, h]

theorem Chip.fld_congr {a b : Chip} (h : a.regs = b.regs) (d : Nat) (f : Fld) : a.fld d f = b.fld d f := by
  simp [Chip.fld, Chip.reg_congr h]

theorem Chip.flag_congr {a b : Chip} (h : a.regs = b.regs) (d : Nat) (f : Fld) : a.flag d f = b.flag d f := by
  simp [Chip.flag, Chip.fld_congr h]

theorem Chip.dev_congr {a b : Chip} (h : a.cfg = b.cfg) : a.dev = b.dev := by simp [Chip.dev, h]

theorem Chip.runs_congr {a b : Chip} (h : a.cfg = b.cfg) (h' : a.inReset = b.inReset) (d : Nat) : a.runs d = b.runs d := by
  simp [Chip.runs, Chip.alive, Chip.dieInReset, Chip.dev_congr h, h']

/-! ### The event log -/

theorem OnlyRegsAndLog.refl (s : Chip) : OnlyRegsAndLog s s := rfl

theorem OnlyRegsAndLog.trans {a b c : Chip} (h : OnlyRegsAndLog a b) (h' : OnlyRegsAndLog b c) : OnlyRegsAndLog a c := by
  unfold OnlyRegsAndLog at *; rw [h', h]

theorem OnlyRegs.log {a b : Chip} (h : OnlyRegs a b) : OnlyRegsAndLog a b := by
  unfold OnlyRegs OnlyRegsAndLog at *; rw [h]

theorem OnlyRegsAndLog.cmds (s : Chip) (m : SMap CmdPort) : OnlyRegsAndLog s { s with cmds := m } := rfl

theorem OnlyRegsAndLog.log (s : Chip) (m : SMap LogEntry) : OnlyRegsAndLog s { s with log := m } := rfl

theorem OnlyRegsAndLog.ports (s : Chip) (m : SMap NocPort) : OnlyRegsAndLog s { s with ports := m } := rfl

theorem OnlyRegsAndLog.each {α : Type} {f : Chip → α → Chip} (h : ∀ s x, OnlyRegsAndLog s (f s x)) (xs : List α) (s : Chip) :
    OnlyRegsAndLog s (s.each xs f) := by
  induction xs generalizing s with
  | nil => rfl
  | cons x xs ih => exact (h s x).trans (ih (f s x))

theorem OnlyRegsAndLog.upTo {f : Chip → Nat → Chip} (h : ∀ s x, OnlyRegsAndLog s (f s x)) (n : Nat) (s : Chip) :
    OnlyRegsAndLog s (s.upTo n f) := OnlyRegsAndLog.each h (List.range n) s

theorem OnlyRegsAndLog.when {s : Chip} {c : Bool} {f : Chip → Chip} (h : OnlyRegsAndLog s (f s)) :
    OnlyRegsAndLog s (s.when c f) := by
  cases c
  · rfl
  · exact h

theorem Chip.passOver_only (s : Chip) (d seq : Nat) : OnlyRegsAndLog s (s.passOver d seq) :=
  OnlyRegsAndLog.upTo (fun t _ => OnlyRegsAndLog.cmds t _) 5 s

theorem Chip.passOver_regs (s : Chip) (d seq : Nat) : (s.passOver d seq).regs = s.regs := by
  simp only [Chip.passOver, Chip.upTo]
  generalize List.range 5 = l
  induction l generalizing s with
  | nil => rfl
  | cons x l ih => rw [List.foldl_cons, ih]

theorem Chip.passOver_logs (s : Chip) (d seq : Nat) : (s.passOver d seq).log = s.log := by
  simp only [Chip.passOver, Chip.upTo]
  generalize List.range 5 = l
  induction l generalizing s with
  | nil => rfl
  | cons x l ih => rw [List.foldl_cons, ih]

/-- Logging an event changes the log, DRN_LOG_STATUS of the die, the ports' read marks and the gateway's waiting packets only. -/
theorem Chip.logEv_only (s : Chip) (d : Nat) (ev : Ev) (detail : Nat) : OnlyRegsAndLog s (s.logEv d ev detail) := by
  have hsub : ∀ (t : Chip) r p q, OnlyRegsAndLog t (t.submit r p q) := fun t _ _ _ => OnlyRegsAndLog.ports t _
  unfold Chip.logEv
  extract_lets seq level e gone old t1 t2 t3
  have h1 : OnlyRegsAndLog s t1 := OnlyRegsAndLog.log s _
  have h2 : OnlyRegsAndLog s t2 := h1.trans (OnlyRegs.setFld _ _ _ _).log
  have h3 : OnlyRegsAndLog s t3 := by
    show OnlyRegsAndLog s (if level = 4096 then _ else _)
    split
    · exact (h2.trans (OnlyRegs.setFlag _ _ _ _).log).trans (Chip.passOver_only _ _ _)
    · exact h2.trans (OnlyRegs.setFld _ _ _ _).log
  split
  · exact h3.trans (hsub _ _ _ _)
  · exact h3

theorem Chip.logEv_regsBut (s : Chip) (d : Nat) (ev : Ev) (detail : Nat) : RegsBut (LogReg d) s (s.logEv d ev detail) := by
  unfold Chip.logEv
  extract_lets seq level e gone old t1 t2 t3
  have h1 : RegsBut (LogReg d) s t1 := RegsBut.of_regs rfl
  have h2 : RegsBut (LogReg d) s t2 := h1.trans (RegsBut.setFld _ _ (by decide) ⟨rfl, rfl⟩)
  have h3 : RegsBut (LogReg d) s t3 := by
    show RegsBut (LogReg d) s (if level = 4096 then _ else _)
    split
    · exact (h2.trans (RegsBut.setFlag _ _ (by decide) ⟨rfl, rfl⟩)).trans (RegsBut.of_regs (Chip.passOver_regs _ _ _))
    · exact h2.trans (RegsBut.setFld _ _ (by decide) ⟨rfl, rfl⟩)
  split
  · exact h3.trans (RegsBut.of_regs rfl)
  · exact h3

/-- A field outside DRN_LOG_STATUS keeps its value when an event is logged. -/
theorem Chip.logEv_fld (s : Chip) (d : Nat) (ev : Ev) (detail d' : Nat) {f : Fld} (ho : f.off < 2 ^ 23)
    (h : f.off ≠ Reg.DRN_LOG_STATUS) : (s.logEv d ev detail).fld d' f = s.fld d' f :=
  (Chip.logEv_regsBut s d ev detail).fld ho (fun hp => h hp.2)

/-- Logging an event puts it newest in its die's log. -/
theorem Chip.logEv_newest (s : Chip) {d : Nat} (hd : d < 4) {ev : Ev} (hc : ev.code < 2 ^ 12) (hv : ev.sev < 4) (detail : Nat) :
    Logged s (s.logEv d ev detail) d ev detail := by
  have hp : ∀ (t : Chip) r p q, (t.submit r p q).log = t.log ∧ (t.submit r p q).regs = t.regs := fun t _ _ _ => ⟨rfl, rfl⟩
  have ho : ∀ (t : Chip) a b, (t.passOver a b).log = t.log := by
    intro t a b
    have h := Chip.passOver_logs t a b
    exact h
  unfold Chip.logEv
  extract_lets seq level e gone old t1 t2 t3
  have hs : seq < 2 ^ 20 := Nat.mod_lt _ (by decide)
  have hl : t3.log = t1.log := by
    show (if level = 4096 then _ else _ : Chip).log = _
    split
    · rw [ho]; rfl
    · rfl
  have hn : t3.fld d F.DRN_LOG_STATUS_NEWEST = seq := by
    have h2 : t2.fld d F.DRN_LOG_STATUS_NEWEST = seq := by
      rw [Chip.fld_setFld_same _ _ _ _ (by decide)]; exact Nat.mod_eq_of_lt hs
    show (if level = 4096 then _ else _ : Chip).fld d _ = _
    split
    · rw [Chip.fld_congr (Chip.passOver_regs _ _ _), Chip.setFlag_eq, Chip.fld_setFld_bits (f := F.DRN_LOG_STATUS_WRAPPED) (f' := F.DRN_LOG_STATUS_NEWEST) _ _ _ rfl (by decide)]; exact h2
    · rw [Chip.fld_setFld_bits (f := F.DRN_LOG_STATUS_LEVEL) (f' := F.DRN_LOG_STATUS_NEWEST) _ _ _ rfl (by decide)]; exact h2
  have hf : SMap.find? t3.log (logKey d seq) = some e := by
    rw [hl]
    show SMap.find? (SMap.put _ (logKey d seq) e) (logKey d seq) = some e
    simp [SMap.find?_put]
  have h0 : e.w0.toNat = seq + ev.code * 2 ^ 20 + ev.sev * 2 ^ 32 + d * 2 ^ 34 := by
    show (BitVec.ofNat 36 _).toNat = _
    rw [BitVec.toNat_ofNat]; apply Nat.mod_eq_of_lt; omega
  have key : ∀ t : Chip, t.log = t3.log → t.regs = t3.regs → Logged s t d ev detail := by
    intro t h1 h2
    have hn' : t.fld d F.DRN_LOG_STATUS_NEWEST = seq := by rw [Chip.fld_congr h2]; exact hn
    refine ⟨⟨e, ?_, ?_, ?_, rfl⟩, hn'⟩
    · rw [hn', h1]; exact hf
    · simp only [bits, h0, Nat.shiftRight_eq_div_pow]; omega
    · simp only [bits, h0, Nat.shiftRight_eq_div_pow]; omega
  split
  · exact key _ (hp _ _ _ _).1 (hp _ _ _ _).2
  · exact key _ rfl rfl

/-! ### What a frame leaves -/

theorem OnlyRegs.cfg_eq {a b : Chip} (h : OnlyRegs a b) : b.cfg = a.cfg := by rw [h]
theorem OnlyRegs.dev_eq {a b : Chip} (h : OnlyRegs a b) : b.dev = a.dev := by unfold Chip.dev; rw [h]
theorem OnlyRegs.fuses_eq {a b : Chip} (h : OnlyRegs a b) : b.fuses = a.fuses := by rw [h]
theorem OnlyRegs.inReset_eq {a b : Chip} (h : OnlyRegs a b) : b.inReset = a.inReset := by rw [h]
theorem OnlyRegs.ports_eq {a b : Chip} (h : OnlyRegs a b) : b.ports = a.ports := by rw [h]
theorem OnlyRegs.sec_eq {a b : Chip} (h : OnlyRegs a b) : b.sec = a.sec := by rw [h]
theorem OnlyRegs.now_eq {a b : Chip} (h : OnlyRegs a b) : b.now = a.now := by rw [h]
theorem OnlyRegs.cmds_eq {a b : Chip} (h : OnlyRegs a b) : b.cmds = a.cmds := by rw [h]
theorem OnlyRegs.log_eq {a b : Chip} (h : OnlyRegs a b) : b.log = a.log := by rw [h]
theorem OnlyRegs.resetDue_eq {a b : Chip} (h : OnlyRegs a b) : b.resetDue = a.resetDue := by rw [h]
theorem OnlyRegs.runs_eq {a b : Chip} (h : OnlyRegs a b) (d : Nat) : b.runs d = a.runs d := by
  unfold Chip.runs Chip.alive Chip.dieInReset; rw [h.dev_eq, h.inReset_eq]

theorem OnlyRegsAndLog.cfg_eq {a b : Chip} (h : OnlyRegsAndLog a b) : b.cfg = a.cfg := by rw [h]
theorem OnlyRegsAndLog.dev_eq {a b : Chip} (h : OnlyRegsAndLog a b) : b.dev = a.dev := by unfold Chip.dev; rw [h]
theorem OnlyRegsAndLog.fuses_eq {a b : Chip} (h : OnlyRegsAndLog a b) : b.fuses = a.fuses := by rw [h]
theorem OnlyRegsAndLog.inReset_eq {a b : Chip} (h : OnlyRegsAndLog a b) : b.inReset = a.inReset := by rw [h]
theorem OnlyRegsAndLog.sec_eq {a b : Chip} (h : OnlyRegsAndLog a b) : b.sec = a.sec := by rw [h]
theorem OnlyRegsAndLog.now_eq {a b : Chip} (h : OnlyRegsAndLog a b) : b.now = a.now := by rw [h]
theorem OnlyRegsAndLog.resetDue_eq {a b : Chip} (h : OnlyRegsAndLog a b) : b.resetDue = a.resetDue := by rw [h]
theorem OnlyRegsAndLog.runs_eq {a b : Chip} (h : OnlyRegsAndLog a b) (d : Nat) : b.runs d = a.runs d := by
  unfold Chip.runs Chip.alive Chip.dieInReset; rw [h.dev_eq, h.inReset_eq]

/-! ### How a statement of completion is reached -/

/-- A command whose meaning is one function of the chip has its effect where that function's result meets P. -/
theorem Done.of_onChip {i : Instr} {s : State} {f : Chip → Chip} {P : Chip → Prop} (h : exec i s = s.onChip f)
    (hp : P (f s.chip)) : Done i s P := ⟨f s.chip, h, hp⟩

/-- The same for a command that acts while the links of its die run. -/
theorem Done.of_onLinks {i : Instr} {s : State} {d : Nat} {f : Chip → Chip} {P : Chip → Prop} (h : exec i s = s.onLinks d f)
    (hr : s.chip.linked d = true) (hp : P (f s.chip)) : Done i s P :=
  ⟨f s.chip, by rw [h]; simp [hr], hp⟩

/-- The same for a command after which asynchronous resets take hold (R42). -/
theorem DoneFabric.of_onFabric {i : Instr} {s : State} {f : Chip → Chip} {P : Chip → Prop} (h : exec i s = s.onFabric f)
    (hp : P (f s.chip)) : DoneFabric i s P := ⟨f s.chip, h, hp⟩

/-- The same for a command that acts while its die runs. -/
theorem Done.of_onDie {i : Instr} {s : State} {d : Nat} {f : Chip → Chip} {P : Chip → Prop} (h : exec i s = s.onDie d f)
    (hr : s.chip.runs d = true) (hp : P (f s.chip)) : Done i s P :=
  ⟨f s.chip, by rw [h]; simp [hr], hp⟩

end Sys2Proof.Machine
end

