-- ==== Sys2Proof/WellFormed.lean ====
section
/-! DEFINITION. What a command must meet beyond the types of its operands. Every operand that the spec bounds by a width or a count
carries that bound in its type; the checks below bound lists and indexes into lists. -/

namespace Sys2Proof

/-- How many slots a frame's VALID field announces (R450). -/
def KarnFrame.valid (f : KarnFrame) : Nat := (List.range 4).foldl (fun n i => n + ofBool (bit f.ctrl i)) 0

/-- Whether a scan of the JTAG chain names the TAP of each die at most once (R18). -/
def scansOnce (d : Die) (rest : List TapScan) : Bool := decide ((d :: rest.map (·.die)).Nodup)

/-- Whether a command is well formed. -/
def Instr.wf (i : Instr) : Bool :=
  match i with
  | .supplyFall _ _ => true
  | .suppliesValid _ => true
  | .porstNLow => true
  | .porstNHigh _ => true
  | .porSequenceComplete => true
  -- a failing word is named once
  | .selftestComplete _ _ _ _ bad => decide (bad.Nodup)
  | .vttXcvFall _ => true
  | .vccioBFall _ _ => true
  | .vddqDdrFall _ => true
  | .bootStart => true
  | .imageWord _ => true
  | .loadSynthLocked => true
  | .loadClockTimeout => true
  | .backoffExpire => true
  | .doneNHigh => true
  | .doneWaitLong => true
  | .doneLow => true
  | .releaseStageTimer => true
  | .regionStageTimer _ _ => true
  | .regionFault _ _ _ => true
  | .regionRepaired _ _ => true
  | .lutramCheck _ _ _ _ => true
  | .ramPortAccess _ _ _ _ => true
  | .clrRam _ _ _ => true
  | .ramClearSweepDone _ _ => true
  | .cfgRamClear _ _ => true
  | .ramClearDone _ => true
  | .gateWrite _ _ _ _ _ => true
  | .gateRead _ _ _ _ => true
  | .gateEntryVisible _ _ _ _ => true
  | .gateSlotFreed _ _ _ _ => true
  | .gclkSourceChange _ _ _ => true
  | .clockRampStep _ _ => true
  | .flitInject _ _ => true
  | .flitArrive _ => true
  | .flitAgeTick _ => true
  | .reorderDeliver _ _ => true
  -- 256 stream-table entries (R210)
  | .nocHoleExpired _ _ entry => decide (entry < 256)
  | .writeAck _ _ => true
  -- at most 32 packets in a window (R202)
  | .nocRetryTimeout _ _ packet => decide (packet < 32)
  | .wakeNack _ _ => true
  -- at most 32 packets in a window (R202)
  | .wakeResend _ _ packet => decide (packet < 32)
  | .notReady _ _ => true
  | .unreachable _ _ => true
  | .nocPortWrite _ _ _ _ => true
  | .remoteRstRise _ _ => true
  | .rstBothLow _ _ _ => true
  | .advertTimer _ _ _ => true
  | .advert _ _ _ _ _ => true
  | .patternDone _ _ _ _ _ => true
  | .negTimeout _ _ _ => true
  | .alignTestDone _ _ _ _ => true
  | .rxOkTimeout _ _ _ => true
  | .crelinkFrame _ _ _ _ => true
  | .retrain _ _ _ _ => true
  | .rewiden _ _ _ _ => true
  | .fence _ _ _ _ => true
  | .fenceNotice _ _ _ _ => true
  | .haltInput _ => true
  | .coreRun _ _ => true
  | .coreStop _ _ => true
  | .clrP _ _ => true
  | .clrX _ _ => true
  | .clrY _ _ => true
  | .coreClearDone _ _ => true
  | .move _ _ => true
  | .mpy _ _ => true
  | .mac _ _ => true
  | .dmpy _ _ => true
  | .dmac _ _ => true
  | .sum _ _ => true
  | .dif _ _ => true
  | .add _ _ => true
  | .sub _ _ => true
  | .adda _ _ => true
  | .suba _ _ => true
  | .tfr _ _ => true
  | .clrAcc _ _ => true
  | .neg _ _ => true
  | .abs _ _ => true
  | .cmp _ _ => true
  | .andOp _ _ => true
  | .orOp _ _ => true
  | .xorOp _ _ => true
  | .maxi _ _ => true
  | .mini _ _ => true
  | .nop _ _ => true
  | .rts _ _ => true
  | .rti _ _ => true
  | .waittask _ _ => true
  | .emit _ _ => true
  | .emitTokenSend _ _ => true
  | .abort _ _ => true
  | .sleep _ _ => true
  | .sleepWake _ _ => true
  | .kick _ _ => true
  | .enddo _ _ => true
  | .bexr _ _ => true
  | .rep _ _ => true
  | .repLc _ _ => true
  | .lock _ _ => true
  | .setipl _ _ => true
  | .branch _ _ => true
  | .call _ _ => true
  | .bApn _ _ => true
  | .callApn _ _ => true
  | .doLoop _ _ => true
  | .ldi _ _ => true
  | .movr _ _ => true
  | .movc _ _ => true
  | .memoryMove _ _ => true
  | .moda _ _ => true
  | .asr _ _ => true
  | .asl _ _ => true
  | .norm _ _ => true
  | .scale _ _ => true
  | .interruptAccept _ _ => true
  | .nmiEntry _ _ => true
  | .watchdogExpire _ _ => true
  | .wdogKick _ _ _ => true
  | .coreTimerExpire _ _ => true
  | .doorbell _ _ _ => true
  | .dispatch _ _ => true
  | .oboeReadReq _ _ => true
  | .oboeWriteReq _ _ => true
  | .inboxStream _ _ => true
  | .dmaStart _ _ _ _ => true
  | .dmaResponse _ _ => true
  | .token _ => true
  | .dispatchStart _ _ => true
  | .emitPacket _ => true
  | .emitAbort _ => true
  | .ready _ => true
  | .blwTimeout _ _ => true
  | .releaseItem _ _ => true
  | .blwResultPop _ => true
  | .failHead _ _ _ => true
  | .blwFlowWrite _ _ _ => true
  | .blwTplWrite _ _ _ _ => true
  | .blwWorkerWrite _ _ _ => true
  | .blwFabportWrite _ _ _ => true
  | .histClr _ _ => true
  | .fabTxSlot _ _ => true
  | .fabRxFlit _ _ => true
  | .acceptedChange _ _ _ _ _ _ => true
  | .chnEncOpen _ _ _ => true
  | .chnEncShort _ _ _ => true
  | .encoderFaultClear _ _ _ => true
  | .coastMaxExpire _ _ => true
  | .agreementTick => true
  | .posDFrame _ _ _ => true
  | .loadingTimeout _ _ => true
  | .timePulseSend _ => true
  | .timePulseReceive _ _ _ => true
  | .chnTimeStep _ _ => true
  | .chnTimeRate _ _ => true
  | .chnTimeLo _ => true
  | .chnChCfgWrite _ _ _ => true
  | .presetGo _ _ _ => true
  | .chnPosLo _ _ => true
  | .chnZlatLo _ _ => true
  | .cueWr _ _ _ => true
  | .uioCuePush _ _ _ => true
  | .patWr _ _ _ _ => true
  | .uioPatData _ _ _ => true
  | .cueFire _ _ => true
  | .cuePreWake _ _ => true
  | .flush _ _ _ => true
  | .slip _ _ => true
  | .padRelease _ => true
  | .bankCtrlRelease _ _ _ => true
  | .uioShort _ _ _ => true
  | .uioShortClear _ _ _ _ => true
  | .pllLock _ _ _ => true
  | .xcvPllLost _ _ => true
  | .detectDone _ _ _ => true
  | .trainingComplete _ _ _ _ _ _ => true
  | .trainTimeout _ _ _ => true
  -- a group of at most four lanes (R428)
  | .lockDone _ _ _ _ probes => decide (probes.length ≤ 4)
  | .lockTimeout _ _ _ => true
  | .exchangeDone _ _ _ _ _ _ _ _ _ => true
  | .retryWaitExpire _ _ _ => true
  | .xcvLockLost _ _ _ => true
  | .xcvRetrain _ _ _ _ => true
  | .bitslip _ _ _ _ => true
  | .laneTxWord _ _ _ _ => true
  | .laneRxWord _ _ _ _ => true
  | .macTxWord _ _ _ _ => true
  | .txTimestamp _ _ _ => true
  | .macRxFrame _ _ _ _ _ _ _ _ => true
  -- a block for each slot announced (R450)
  | .karnFrame _ _ frame => decide (frame.slots.length = frame.valid)
  | .karnIngressInject _ _ => true
  | .keySwitch _ _ _ => true
  | .krnDevnumWrite _ _ => true
  | .krnTimeSend => true
  | .krnLoaded _ _ _ => true
  | .krnSystemDone _ _ => true
  | .krnBootReq _ _ _ _ _ => true
  -- at most 248 image words a message (R459)
  | .krnImageData _ _ _ words => decide (words.length ≤ 248)
  | .krnTime _ _ _ => true
  -- each channel once (R461)
  | .krnPos _ _ chans => decide ((chans.map (·.1)).Nodup)
  | .krnPosTimeout _ _ => true
  | .linkKey _ => true
  | .ddrBringupStep _ _ => true
  | .rankTrainingDone _ _ _ => true
  | .reinit _ _ _ => true
  | .ddrReadReq _ _ => true
  | .ddrWriteReq _ _ => true
  | .ddrAccessIssue _ _ _ _ _ _ => true
  | .refreshTimer _ _ _ => true
  | .retrainTimer _ _ => true
  | .caParityAlert _ _ _ _ => true
  | .ddrMigStart _ _ _ => true
  | .migrationCopy _ _ _ => true
  | .ddrErrq _ _ => true
  | .macCheck _ _ => true
  | .initWalkLine _ _ => true
  | .rekey _ => true
  | .rekeyWalkLine _ _ _ => true
  | .mieFlipArm _ _ => true
  | .testEnWrite _ _ => true
  | .powerSet _ => true
  | .pwrGo _ _ _ => true
  | .pwrPerfGo _ _ _ => true
  | .pwrRestore _ _ _ => true
  | .autoSleepRequest _ _ => true
  | .powerCommit _ _ => true
  | .quiesceExpire _ _ => true
  | .sleepStateReached _ _ => true
  | .wakeStart _ _ _ => true
  | .wakeComplete _ _ => true
  | .levelChangeStep _ _ => true
  | .pwrTimerExpire _ _ => true
  | .pwrPinwake _ _ => true
  | .monitorWindow _ _ => true
  | .ckmMonRestore _ _ => true
  | .synthLock _ _ => true
  | .ckmSynUnlock _ _ => true
  | .sysRefRelock _ => true
  -- four sensors a die (R586)
  | .tempSample _ temps => decide (temps.length = 4)
  -- seven rails a die (R586)
  | .railSample _ mv => decide (mv.length = 7)
  -- at most one packet (R571)
  | .cmdWrite x => decide (x.words.length ≤ 256) && decide (x.cut.length < 5)
  -- at most one reply (R572)
  | .replyRead words => decide (words ≤ 256)
  | .flagsRead => true
  -- a line ends at its CR LF (R568)
  | .conLine chars => chars.all (fun c => c != 0x0D && c != 0x0A)
  | .drnCmd _ _ => true
  | .drnReply _ => true
  | .drnRestart _ => true
  | .status _ => true
  | .selftestReport _ => true
  | .eventRead _ => true
  | .eventAck _ => true
  | .reset _ => true
  | .regRead _ => true
  | .regWrite _ => true
  | .healthRead _ => true
  | .timeService _ => true
  | .timeSample _ => true
  | .configLoad _ => true
  | .configData _ => true
  | .regionLoad _ => true
  | .regionIsolate _ => true
  | .regionResume _ => true
  | .regionReset _ => true
  | .regionClear _ => true
  | .regionActivate _ => true
  | .updateWrite _ => true
  | .updateVerify _ => true
  | .updateApply _ => true
  | .tokenPost _ => true
  | .resultPop _ => true
  | .positionRead _ => true
  | .rankRetire _ => true
  | .debugChallenge _ => true
  | .debugUnlock _ => true
  | .debugLock _ => true
  | .lifecycleAdvance _ => true
  | .ownerKeySet _ => true
  | .epochAdvance _ => true
  | .nonceExpire => true
  | .dieResetStart _ => true
  | .dieResetReturn _ => true
  | .trstNLow => true
  -- a scan of the chain names a TAP once
  | .extest x => scansOnce x.scan.die x.scan.rest
  | .samplePreload x _ => scansOnce x.die x.rest
  | .idcode x => scansOnce x.die x.rest
  | .bypass x => scansOnce x.die x.rest
  | .mailbox x _ => scansOnce x.die x.rest
  | .dbg x _ => scansOnce x.die x.rest
  | .dbgNop _ => true
  | .read _ => true
  | .activeRead _ => true
  | .write _ => true
  | .memRead _ => true
  | .memWrite _ => true
  | .attach _ => true
  | .detach _ => true
  | .halt _ => true
  | .forceHalt _ => true
  | .haltComplete _ _ => true
  | .resume _ => true
  | .step _ => true
  | .pmcCfgWrite _ _ _ => true
  | .pmcCounterRead _ _ _ => true
  | .pmcCounterWrite _ _ _ _ => true
  | .pmcFlush _ _ _ => true
  | .pmcOverflow _ _ _ => true
  | .obePmcUserWrite _ _ _ _ => true
  | .registerWrite _ _ _ => true
  | .deviceResetStart => true
  | .domainPowerFault _ _ => true
  | .vttXcvRise _ => true
  | .vccioBRise _ _ => true
  | .vddqDdrRise _ => true
  -- an edge of a clock is named once
  | .clusterClockEdge _ edges => decide (edges.Nodup)
  | .coastCount _ _ => true
  | .cuePatternEnd _ _ => true
  | .pauseQuantaExpire _ _ _ => true
  | .testLogicReset => true

end Sys2Proof
end

