-- ==== Sys2Proof/Tests/Slice0.lean ====
section
/-! SUPPORT. The model's own tests: the well-formedness checks refuse an ill-formed term each; words written out from the spec's
encodings; and, for every obligation with hypotheses, states and operands that meet them clause by clause. -/

namespace Sys2Proof.Tests

set_option Elab.async false

open Sys2Proof Sys2Proof.Machine

/-! ### States -/

/-- A part in USER, every port an OWNER. -/
def up : Chip := { cfg := { dev := .user }, sec := { auth := 0x3FF } }

/-- A part in another device state. -/
def inDev (v : DevState) : Chip := { up with cfg := { dev := v } }

/-- A state of a chip, with blank flash and an empty queue. -/
def st (c : Chip) : State := { chip := c }

/-- A chip where port p runs a packet. -/
def cmdAt (c : Chip) (p : Nat) (h : W36) (ws : List W36) : Chip :=
  { c with cmds := c.cmds.set p { running := some (h :: ws) } }

/-- The header of a packet: opcode, parameter count, die (R571). -/
def header (op len die : Nat) : W36 := word (op * 2 ^ 26 + len * 2 ^ 18 + die)

/-- Fields set one after another. -/
def withFlds (c : Chip) (d : Nat) (l : List (Fld × Nat)) : Chip := l.foldl (fun c e => c.setFld d e.1 e.2) c

/-- A flit at the head of what a local port has delivered. -/
def delivers (c : Chip) (router port : Nat) (f : Flit) : Chip :=
  c.onPort router port (fun q => { q with delivered := f :: q.delivered })

/-! ### Well-formedness (every check refuses an ill-formed term) -/

theorem test_wf_selftestComplete : (Instr.selftestComplete 0 0 0 0 [⟨.ram 0 5, 7⟩, ⟨.ram 0 5, 7⟩]).wf = false := by decide +kernel

theorem test_wf_nocHoleExpired : (Instr.nocHoleExpired 0 0 256).wf = false ∧ (Instr.nocHoleExpired 0 0 255).wf = true := by
  decide +kernel

theorem test_wf_nocRetryTimeout : (Instr.nocRetryTimeout 0 0 32).wf = false ∧ (Instr.nocRetryTimeout 0 0 31).wf = true := by
  decide +kernel

theorem test_wf_wakeResend : (Instr.wakeResend 0 0 32).wf = false ∧ (Instr.wakeResend 0 0 31).wf = true := by decide +kernel

theorem test_wf_karnFrame : (Instr.karnFrame 0 0 { ctrl := 3, slots := [0], tag := 0 }).wf = false ∧
    (Instr.karnFrame 0 0 { ctrl := 1, slots := [0], tag := 0 }).wf = true := by decide +kernel

theorem test_wf_krnImageData : (Instr.krnImageData 0 0 0 (List.replicate 249 0)).wf = false ∧
    (Instr.krnImageData 0 0 0 (List.replicate 248 0)).wf = true := by decide +kernel

theorem test_wf_krnPos : (Instr.krnPos 0 0 [(1, 0, 0, 0), (1, 5, 0, 0)]).wf = false := by decide +kernel

theorem test_wf_tempSample : (Instr.tempSample 0 [0, 0, 0]).wf = false := by decide +kernel

theorem test_wf_railSample : (Instr.railSample 0 [0, 0, 0, 0, 0, 0, 0, 0]).wf = false := by decide +kernel

theorem test_wf_cmdWrite : (Instr.cmdWrite ⟨List.replicate 257 0, []⟩).wf = false ∧
    (Instr.cmdWrite ⟨[], [1, 2, 3, 4, 5]⟩).wf = false ∧ (Instr.cmdWrite ⟨List.replicate 256 0, [0x30]⟩).wf = true := by decide +kernel

theorem test_wf_replyRead : (Instr.replyRead 257).wf = false ∧ (Instr.replyRead 256).wf = true := by decide +kernel

theorem test_wf_conLine : (Instr.conLine [0x41, 0x0D, 0x0A]).wf = false ∧ (Instr.conLine [0x41]).wf = true := by decide +kernel

theorem test_wf_lockDone : (Instr.lockDone 0 0 0 0 (List.replicate 5 (0, 0))).wf = false := by decide +kernel

theorem test_wf_clusterClockEdge : (Instr.clusterClockEdge 0 [⟨7, true⟩, ⟨7, true⟩]).wf = false ∧
    (Instr.clusterClockEdge 0 [⟨7, true⟩, ⟨7, false⟩]).wf = true := by decide +kernel

theorem test_wf_scans : (Instr.bypass ⟨2, [⟨0, 2, 0⟩, ⟨2, 2, 0⟩]⟩).wf = false ∧ (Instr.idcode ⟨2, [⟨0, 2, 0⟩, ⟨1, 2, 0⟩]⟩).wf = true := by
  decide +kernel

/-! ### The queue and the table's words -/

/-- No row of the table gives bits, so no word spells a command. -/
theorem test_table_word (nbits w : Nat) : decodeTableWord nbits w = none := rfl

/-- A step takes the command at the front of the queue. -/
theorem test_step_front : (core.step { (State.reset) with pending := [.flagsRead, .bootStart] }) =
    exec .flagsRead { (State.reset) with pending := [.bootStart] } := rfl

/-! ### Witnesses: the machine, start-up, regions -/

theorem witness_StepRunsFrontCommandOrTicks : (({ st up with pending := [.flagsRead] } : State)).pending = .flagsRead :: [] ∧
    (st up).pending = [] := by decide +kernel

theorem witness_FlashStaysCanonical : FlashCanonical (st up) := by unfold FlashCanonical; decide +kernel

theorem witness_ResetSequence :
    (inDev .off).dev = .off ∧ up.dev ≠ .off ∧
    (({ inDev .por with cfg := { dev := .por, porstLow := true } } : Chip)).dev = .por ∧
    (let c : Chip := { cfg := { dev := .user, resetPending := true } }; c.alive = true ∧ c.cfg.resetPending = true) ∧
    (let c : Chip := { cfg := { dev := .por, sequencing := true } };
      c.dev = .por ∧ c.cfg.sequencing = true ∧ c.cfg.porstLow = false) ∧
    ((inDev .selftest).dev = .selftest ∧ macroFails ((List.range 9).map (fun w => ⟨.ram 1 5, BitVec.ofNat 16 w⟩)) 1 = true ∧
      macroFails ((List.range 8).map (fun w => ⟨.ram 1 5, BitVec.ofNat 16 w⟩)) 1 = false) ∧
    up.dev ≠ .por ∧ up.dev ≠ .selftest := by decide +kernel

theorem witness_SupplyFlags : up.alive = true ∧ (inDev .off).runs 3 = false := by decide +kernel

/-- A full load from flash, before its last header word but one. -/
def headLoad : Loader := { src := .flash 1 0x100, count := 30 }

/-- A full load that waits for its synthesisers, with one of them locked or not. -/
def clockWaits (lock : Nat) (src : ImageSource) : Chip :=
  let c : Chip := { cfg := { dev := .loading, clockWait := true }, loads := [(4, some { src := src })] }
  withFlds c 0 [(F.CKM_GCLK_EN 0, 1), (F.CKM_GCLK_SRC 0, 2), (F.CKM_SYN_STATUS_LOCK 2, lock)]

theorem witness_StartUpAttempts :
    (let c := inDev .blank; c.dev = .blank ∧ c.cfg.probe = none ∧ c.loads = [] ∧ c.cfg.mode.toNat < 4) ∧
    (inDev .backoff).dev = .backoff ∧
    (let c : Chip := { inDev .loading with loads := [(4, some headLoad)] };
      c.alive = true ∧ c.dev ≠ .secureHalt ∧ c.loads.get 4 = some headLoad ∧ headLoad.writing = false ∧ headLoad.count < 31 ∧
      headLoad.src = .flash 1 0x100 ∧ headLoad.queue = [] ∧ headLoad.stream = none) ∧
    (let c := clockWaits 1 (.flash 0 0);
      (∃ l, c.loads.get 4 = some l ∧ l.port = none) ∧ c.cfg.clockWait = true ∧
      c.synthsAll (fun d y => c.flag d (F.CKM_SYN_STATUS_LOCK y)) = true) ∧
    (let c := clockWaits 0 (.host 1);
      (∃ l, c.loads.get 4 = some l ∧ l.kind = .full ∧ l.port = none) ∧ c.cfg.clockWait = true ∧
      (∀ k, k < 4 → c.loads.get k = none) ∧ c.synthsAll (fun d y => c.flag d (F.CKM_SYN_STATUS_LOCK y)) = false) := by
  refine ⟨by decide +kernel, by decide +kernel, by decide +kernel, ⟨⟨_, rfl, rfl⟩, by decide +kernel⟩,
    ⟨⟨_, rfl, rfl, rfl⟩, by decide +kernel⟩⟩

theorem witness_DoneLineAndRelease :
    (withFlds up 0 [(F.CFG_STATUS_DONE_OUT, 1)]).flag 0 F.CFG_STATUS_DONE_OUT = true ∧
    (let c := withFlds (inDev .releasing) 0 [(F.CFG_RELEASE_DONE_WARN, 3)];
      c.dev = .releasing ∧ c.cfg.releasing = false ∧ c.cfg.doneWaitLogged = false ∧ c.fld c.lead F.CFG_RELEASE_DONE_WARN ≠ 0) ∧
    (let c := withFlds up 0 [(F.CFG_STATUS_DONE_IN, 1)]; c.flag c.lead F.CFG_STATUS_DONE_IN = true ∧ c.dev = .user) ∧
    (let c : Chip := { cfg := { dev := .releasing, releasing := true } };
      c.dev = .releasing ∧ c.cfg.releasing = true ∧ c.fld c.lead F.CFG_STATUS_STAGE < 3) ∧
    (let c : Chip := withFlds { cfg := { dev := .releasing, releasing := true } } 0 [(F.CFG_STATUS_STAGE, 3)];
      c.fld c.lead F.CFG_STATUS_STAGE = 3) := by decide +kernel

theorem witness_RegionEvents :
    (let c := (up.setRegion 1 15 Rgn.staging).onRegion 1 15 (fun x => { x with stepping := true });
      c.runs 1 = true ∧ (c.region 1 15).stepping = true ∧ c.regionState 1 15 ≠ Rgn.empty ∧ c.regionState 1 15 ≠ Rgn.loading ∧
      c.fld 1 (F.CFG_REGION_STATUS_STAGE 15) < 3) ∧
    (let c := withFlds ((up.setRegion 1 15 Rgn.staging).onRegion 1 15 (fun x => { x with stepping := true })) 1
        [(F.CFG_REGION_STATUS_STAGE 15, 3)];
      (c.region 1 15).stepping = true ∧ c.regionState 1 15 = Rgn.staging ∧ c.fld 1 (F.CFG_REGION_STATUS_STAGE 15) = 3) ∧
    (∀ x ∈ [Rgn.staging, Rgn.active, Rgn.isolated, Rgn.sleeping], (up.setRegion 3 0 x).regionState 3 0 = x) ∧
    (∀ cause ∈ [1, 3],
      let c := withFlds (up.setRegion 0 0 Rgn.faulted) 0
        [(F.CFG_REGION_CTRL_AUTO_REPAIR 0, 1), (F.CFG_REGION_STATUS_FAULT_CAUSE 0, cause)];
      c.runs 0 = true ∧ c.regionState 0 0 = Rgn.faulted ∧ c.flag 0 (F.CFG_REGION_CTRL_AUTO_REPAIR 0) = true ∧
      c.fld 0 (F.CFG_REGION_STATUS_FAULT_CAUSE 0) = cause) ∧
    up.domState 0 15 ≠ 3 := by decide +kernel

/-- A packet of a command runs at port p of a chip and passes every check. -/
theorem accepts_of (c : Chip) (p op : Nat) (h : W36) (ws : List W36) (ha : c.admitted p op = some (h, ws))
    (hb : (c.cmd p).buffered = none) (hr : (c.cmd p).runningFrom = none) : Accepts c p op h ws := ⟨ha, hb, hr⟩

theorem witness_RegionCommands :
    (let c := cmdAt (up.setRegion 2 15 Rgn.active) 1 (header 0x083 1 2) [15];
      Accepts c 1 0x083 (header 0x083 1 2) [15] ∧ c.dieInReset (cmdDie (header 0x083 1 2)) = false ∧ c.updates = [] ∧
      c.regionState (cmdDie (header 0x083 1 2)) 15 = Rgn.active) ∧
    (let c := (cmdAt (up.setRegion 2 15 Rgn.isolated) 1 (header 0x083 1 2) [15]).onRegion 2 15
        (fun x => { x with act := some { chan := 0, lo := 0, hi := 0 } });
      Accepts c 1 0x083 (header 0x083 1 2) [15] ∧ c.regionState 2 15 = Rgn.isolated ∧ (c.region 2 15).act.isSome = true) ∧
    (let c := cmdAt (up.setRegion 2 15 Rgn.isolated) 1 (header 0x084 1 2) [15];
      Accepts c 1 0x084 (header 0x084 1 2) [15] ∧ c.regionState 2 15 = Rgn.isolated ∧ c.updates = []) ∧
    (let c := cmdAt (up.setRegion 2 15 Rgn.isolated) 1 (header 0x085 1 2) [15];
      Accepts c 1 0x085 (header 0x085 1 2) [15] ∧ c.regionState 2 15 = Rgn.isolated ∧ c.updates = []) ∧
    (let c := cmdAt (up.setRegion 2 15 6) 1 (header 0x086 1 2) [15];
      Accepts c 1 0x086 (header 0x086 1 2) [15] ∧ c.loads = [] ∧ 1 ≤ c.regionState 2 15 ∧ c.regionState 2 15 ≤ 6) ∧
    (let c := cmdAt (up.setRegion 2 15 Rgn.staging) 1 (header 0x087 4 2) [15, 5, 9, 0];
      Accepts c 1 0x087 (header 0x087 4 2) [15, 5, 9, 0] ∧ c.regionState 2 15 ∈ activateStates ∧
      windowOf [15, 5, 9, 0] = (5, 9) ∧ atOrBeyond (c.chnPos 2 0) (9 * 256) = false) := by
  simp only [Accepts]; decide +kernel


/-! ### Witnesses: fabric, clocks, power -/

/-- A region that runs: ACTIVE, after its last stage, its global clock 0 delivering edges. -/
def running (c : Chip) (d r : Nat) : Chip :=
  withFlds (c.setRegion d r Rgn.active) d [(F.CFG_REGION_STATUS_STAGE r, 3), (F.CKM_GCLK_ACTIVE 0, 1)]

/-- The oldest entry of a gate, shown to the reader. -/
def entry : GateEntry := { data := 5, chk := checkBits 5, visible := true }

/-- Gate 31 of side 1 (east) of region 0 of die 3 towards region 1, both halves enabled, with entries in it. -/
def gated (l : List GateEntry) : Chip :=
  let c := running (running up 3 0) 3 1
  let c := c.setFrameWord (frameAddr 3 0 (16000 + 32 * 1 + 31)) 0 1
  let c := c.setFrameWord (frameAddr 3 1 (16000 + 32 * 3 + 31)) 0 0x80
  { c with gates := c.gates.set (gateKey 3 0 1 31) { entries := l } }

theorem witness_RamPortsAndClearing :
    (let c := running up 1 15;
      c.portClocked 1 2047 false = true ∧ c.cascaded 1 2047 = false ∧ bits (c.ramCfg 1 2047) 0 2 = 0 ∧
      bit (c.ramCfg 1 2047) 8 = false ∧ (c.ramWord 1 2047 1023).syndrome = 0 ∧ c.flipArmed 1 1 2047 = false) ∧
    (let c := up.setRegion 2 15 Rgn.isolated; let v : W36 := word (2 ^ 12 + 2047);
      c.flag 2 F.CFG_RAM_STATUS_BUSY = false ∧ bit v 12 = true ∧ c.regionState 2 (bits v 0 11 / 128) = Rgn.isolated) ∧
    (let v : W36 := word (2 ^ 12);
      up.flag 2 F.CFG_RAM_STATUS_BUSY = false ∧ bit v 12 = true ∧ up.regionState 2 (bits v 0 11 / 128) ≠ Rgn.isolated) := by
  decide +kernel

theorem witness_ClusterEdgesAndGates :
    (∀ inv ∈ [0, 1], let c := running (up.setFrameWord (frameAddr 1 15 0) 0 1) 1 15;
      let c := c.setFrameWord (frameAddr 1 15 2) 0 (word (inv * 2 ^ 5));
      c.runs 1 = true ∧ c.usedRams 1 = [] ∧ c.listedFrames 1 16000 16128 = [] ∧
      clusterClocked c 1 [⟨0, inv = 0⟩] 144 144 = true ∧ clusterClocked c 1 [⟨0, inv = 1⟩] 144 144 = false) ∧
    (let c : Chip := { up with lutRam := SMap.set ([] : SMap LutRam) (cellKey 1 191 191 63) { written := true, data := 1, chk := 0 } };
      (c.lutRam.get (cellKey 1 191 191 63)).written = true ∧
      lutCheck (c.lutRam.get (cellKey 1 191 191 63)).data ≠ (c.lutRam.get (cellKey 1 191 191 63)).chk) ∧
    lutCheck (up.lutRam.get (cellKey 1 0 0 0)).data = (up.lutRam.get (cellKey 1 0 0 0)).chk ∧
    (let c := gated [];
      c.gateOut 3 0 1 31 = true ∧ c.gateClock 3 0 1 31 false = true ∧ c.writesOn 3 0 = true ∧ c.gateFull 3 0 1 31 = false ∧
      c.flipArmed 3 11 (32 * 1 + 31) = false) ∧
    (let c := gated (List.replicate 8 entry);
      c.gateOut 3 0 1 31 = true ∧ c.gateClock 3 0 1 31 false = true ∧ c.writesOn 3 0 = true ∧ c.gateFull 3 0 1 31 = true) ∧
    (let c := gated [entry, entry];
      acrossSide 0 1 = some 1 ∧ c.gateShown 3 0 1 31 = some entry ∧ c.gateClock 3 1 (opposite 1) 31 true = true ∧
      c.writesOn 3 1 = true ∧ (c.gates.get (gateKey 3 0 1 31)).entries = entry :: [entry] ∧
      (∀ x ∈ (c.gates.get (gateKey 3 0 1 31)).entries, checkBits x.data = x.chk)) := by decide +kernel

theorem witness_ClocksRampAndLock :
    (let c := withFlds up 1 [(F.CKM_GCLK_EN 23, 1)]; let v : W36 := 0x12;
      c.runs 1 = true ∧ c.flag 1 (F.CKM_GCLK_EN 23) = true ∧ bit v 4 = true ∧ bits v 0 4 ≠ c.fld 1 (F.CKM_GCLK_SRC 23)) ∧
    (∀ n ∈ [1, 5, 6], let c : Chip := { up with ramps := up.ramps.set (2 * 128 + 78) { step := n } };
      c.runs 2 = true ∧ (c.ramps.get (2 * 128 + 78)).step = n) ∧
    (let c := withFlds up 0 [(F.CKM_MON_ACTIVE, 1), (F.CKM_MON_EXPECT, 1000)];
      c.runs 0 = true ∧ c.flag 0 F.CKM_MON_ACTIVE = true ∧
      windowBad 1000 (c.fld 0 F.CKM_MON_EXPECT) (c.fld 0 F.CKM_XIN_TOL) = false) ∧
    (let c := (withFlds up 0 [(F.CKM_MON_ACTIVE, 1), (F.CKM_MON_EXPECT, 1000)]).onClock 0 (fun x => { x with badRun := 1 });
      c.runs 0 = true ∧ c.flag 0 F.CKM_MON_ACTIVE = true ∧ c.flag 0 F.CKM_MON_FAILED = false ∧ 1 ≤ (c.clock 0).badRun ∧
      windowBad 0 (c.fld 0 F.CKM_MON_EXPECT) (c.fld 0 F.CKM_XIN_TOL) = true) ∧
    (let c := (withFlds up 0 [(F.CKM_MON_FAILED, 1), (F.CKM_SYS_REF, 1)]).onClock 0 (fun x => { x with goodRun := 16 });
      c.runs 0 = true ∧ c.flag 0 F.CKM_MON_FAILED = true ∧ 16 ≤ (c.clock 0).goodRun ∧ c.flag 0 F.CKM_SYS_REF = true) ∧
    (∀ lock ∈ [0, 1], let c := withFlds up 3 [(F.CKM_SYN_CFG_EN 7, 1), (F.CKM_SYN_STATUS_LOCK 7, lock), (F.CKM_SYN_CFG_REF 7, 1)];
      c.runs 3 = true ∧ c.flag 3 (F.CKM_SYN_CFG_EN 7) = true ∧ c.fld 3 (F.CKM_SYN_STATUS_LOCK 7) = lock ∧
      (c.flag 3 (F.CKM_SYN_CFG_REF 7) && c.flag 3 F.CKM_MON_FAILED) = false) ∧
    (let c := withFlds up 0 [(F.CKM_SYS_LOCK, 0)]; c.runs 0 = true ∧ c.flag 0 F.CKM_SYS_LOCK = false) := by decide +kernel

theorem witness_PowerRequests :
    (let c := withFlds up 1 [(F.PWR_DOM_CFG_REG_REQ 15, 1)]; let v : W36 := 1;
      c.runs 1 = true ∧ c.flag 1 (F.PWR_DOM_CFG_REG_REQ 15) = true ∧ bit v 5 = false ∧ bit v 6 = false ∧ 1 ≤ bits v 0 2 ∧
      offers 15 (bits v 0 2) = true ∧ c.domState 1 15 = 0 ∧ c.domPhase 1 15 = 0 ∧ (c.dom 1 15).queued = false ∧
      c.refusers 1 15 (bits v 0 2) = [9]) ∧
    (let c := withFlds up 1 [(F.PWR_DOM_CFG_REG_REQ 16, 1)]; let v : W36 := 3;
      c.flag 1 (F.PWR_DOM_CFG_REG_REQ 16) = true ∧ offers 16 (bits v 0 2) = true ∧ c.domState 1 16 = 0 ∧ c.domPhase 1 16 = 0 ∧
      (c.dom 1 16).queued = false ∧ c.refusers 1 16 (bits v 0 2) = []) ∧
    (let c := withFlds up 1 [(F.PWR_DOM_CFG_REG_REQ 31, 1)]; let v : W36 := 0x10;
      c.runs 1 = true ∧ c.flag 1 (F.PWR_DOM_CFG_REG_REQ 31) = true ∧ bit v 2 = false ∧ bit v 6 = false ∧
      c.domState 1 31 = 0 ∧ c.domPhase 1 31 = 0 ∧ bits v 3 2 ≠ c.fld 1 (F.PWR_DOM_STATUS_LEVEL 31)) ∧
    (∀ e ∈ [(0, 15), (0, 32), (1, 44)], let c := withFlds up e.1 [(F.PWR_DOM_CFG_REG_REQ e.2, 1)];
      c.runs e.1 = true ∧ c.flag e.1 (F.PWR_DOM_CFG_REG_REQ e.2) = true ∧ (e.2 < 16 ∨ (32 ≤ e.2 ∧ (e.2 ≠ 44 ∨ e.1 ≠ 0)))) ∧
    (let c := withFlds up 1 [(F.PWR_DOM_CFG_REG_REQ 16, 1), (F.PWR_DOM_STATUS_ON_OSC 16, 1)]; let v : W36 := 0x40;
      c.runs 1 = true ∧ c.flag 1 (F.PWR_DOM_CFG_REG_REQ 16) = true ∧ bit v 2 = false ∧ bit v 5 = false ∧ c.domState 1 16 = 0 ∧
      c.domPhase 1 16 = 0 ∧ c.flag 1 (F.PWR_DOM_STATUS_ON_OSC 16) = true ∧ (c.ramps.get (1 * 128 + 32 + 16)).step = 0) ∧
    (∀ mode ∈ [1, 2], let c := withFlds (up.setCoreState 3 63 Obe.sleep) 3 [(F.PWR_DOM_CFG_AUTO_SLEEP (Dom.quad 15), mode)];
      c.runs 3 = true ∧ c.fld 3 (F.PWR_DOM_CFG_AUTO_SLEEP (Dom.quad 15)) = mode ∧ c.domState 3 (Dom.quad 15) = 0 ∧
      c.domPhase 3 (Dom.quad 15) = 0 ∧ (c.dom 3 (Dom.quad 15)).queued = false ∧
      Obe.sleep ∈ (quadCores 15).map (fun n => c.coreState 3 n) ∧
      (∀ n ∈ quadCores 15, c.coreState 3 n ∈ [Obe.sleep, Obe.reset, Obe.faultHalt]) ∧ c.refusers 3 (Dom.quad 15) mode = []) := by
  decide +kernel

/-- Domain dom of die d in a phase of an entry or a wake, with its record. -/
def inPhase (c : Chip) (d dom ph : Nat) (r : DomRec) : Chip :=
  (withFlds c d [(F.PWR_DOM_STATUS_PHASE dom, ph)]).onDom d dom (fun _ => r)

theorem witness_PowerEntriesAndWakes :
    (∀ t ∈ [1, 3], let c := inPhase (up.setRegion 1 15 (if t = 3 then Rgn.isolated else Rgn.active)) 1 15 1 { target := t };
      c.runs 1 = true ∧ c.inStep2 1 15 = true ∧ c.refusers 1 15 (c.dom 1 15).target = [] ∧ c.unconfirmed 1 15 = false ∧
      c.regionState 1 15 ∈ [Rgn.active, Rgn.isolated]) ∧
    (let c := (inPhase up 0 16 1 { target := 1 }).onPort 0 2 (fun q => { q with sent := [{ flits := [{}] }] });
      c.runs 0 = true ∧ c.inStep2 0 16 = true ∧ c.refusers 0 16 (c.dom 0 16).target = [] ∧ c.unconfirmed 0 16 = true) ∧
    (∀ t ∈ [1, 3], let c := inPhase up 2 46 1 { target := t, committed := true };
      c.runs 2 = true ∧ c.domPhase 2 46 = 1 ∧ (c.dom 2 46).committed = true ∧ (c.dom 2 46).target = t ∧
      c.flag 2 (F.PWR_DOM_STATUS_WAKE_PENDING 46) = false) ∧
    (∀ v ∈ [1, 3], let c := withFlds up 2 [(F.PWR_DOM_STATUS_STATE 40, v)];
      c.runs 2 = true ∧ c.domState 2 40 = v ∧ c.domPhase 2 40 = 0 ∧ (c.dom 2 40).queued = false ∧
      (v = 1 ∨ (c.clock 2).raising.length < 2)) ∧
    (let c := (inPhase (withFlds (up.setRegion 2 0 Rgn.sleeping) 2 [(F.CFG_REGION_CTRL_RESUME_ON_WAKE 0, 1)]) 2 0 2 {}).onRegion 2 0
        (fun x => { x with wasActive := true });
      c.runs 2 = true ∧ c.domPhase 2 0 = 2 ∧ 0 ∉ (c.clock 2).waiting ∧ c.regionState 2 0 = Rgn.sleeping ∧
      ((c.region 2 0).wasActive && c.flag 2 (F.CFG_REGION_CTRL_RESUME_ON_WAKE 0)) = true) ∧
    (let c := withFlds up 1 [(F.PWR_TIMER_EN 7, 1), (F.PWR_TIMER_DOM 7, 46), (F.PWR_DOM_STATUS_STATE 46, 1)];
      c.runs 1 = true ∧ c.flag 1 (F.PWR_TIMER_EN 7) = true ∧ c.fld 1 (F.PWR_TIMER_DOM 7) = 46 ∧ c.domState 1 46 ≠ 0 ∧
      c.domPhase 1 46 = 0 ∧ (c.dom 1 46).queued = false ∧ (c.clock 1).raising.length < 2) ∧
    (let c := withFlds up 1 [(F.PWR_PINWAKE_EDGE 7, 3), (F.PWR_PINWAKE_DOM 7, 46), (F.PWR_DOM_STATUS_STATE 46, 1)];
      c.runs 1 = true ∧ c.fld 1 (F.PWR_PINWAKE_EDGE 7) ≠ 0 ∧ c.fld 1 (F.PWR_PINWAKE_DOM 7) = 46 ∧ c.domState 1 46 ≠ 0 ∧
      c.domPhase 1 46 = 0 ∧ (c.dom 1 46).queued = false ∧ (c.clock 1).raising.length < 2) := by decide +kernel

theorem witness_LevelsAndSamples :
    (∀ n ∈ [1, 2], let c := inPhase up 1 31 3 { levelBusy := true, levelSteps := n, levelTo := 3 };
      c.runs 1 = true ∧ c.domPhase 1 31 = 3 ∧ (c.dom 1 31).levelBusy = true ∧ (c.dom 1 31).levelSteps = n ∧
      (c.ramps.get (1 * 128 + 32 + 31)).step = 0 ∧ c.fld 1 (F.PWR_DOM_STATUS_LEVEL 31) ≤ (c.dom 1 31).levelTo) ∧
    up.runs 3 = true ∧ signed 9 (up.fld 3 F.HMN_CFG_TWARN) ≤ signed 9 (0x0FF#9).toNat := by decide +kernel

/-! ### Witnesses: the network on chip -/

/-- A one-flit packet from router 0x22 port 2 to a router's port, sealed. -/
def flit (typ router port : Nat) (w2 : W36 := 0) : Flit :=
  Flit.seal { w0 := head0 0 router port typ 0, w1 := head1 0 0x22 2 0 true false, w2 := w2 }

/-- Flights at router 0x11. -/
def flying (l : List Flight) : Chip := { up with flights := l }

theorem witness_PortsInjectAndFlitsMove :
    (let fl : Flight := { flit := flit Typ.event 0x23 2, router := 0x11, inPort := 3, age := 254 }; let c := flying [fl]; let t := c.nextNc 0x11;
      c.flights.filter (fun f => f.router = 0x11) = [fl] ∧ fl.inPort < 4 ∧ t.portOpen 0x11 fl.inPort = true ∧ fl.age < 255 ∧
      fl.flit.syndrome 0 = 0 ∧ fl.flit.syndrome 1 = 0 ∧
      fl.flit.typ ≠ 15 ∧ t.route 0x11 fl.flit = .dir 1 ∧ t.portOpen 0x11 1 = true ∧ bundleAt 0x11 1 = none ∧
      neighbour 0x11 1 = some 0x12) ∧
    (let a : Flight := { flit := flit Typ.event 0x23 2, router := 0x11, inPort := 3, age := 254 }; let b := { a with age := 0, inPort := 0 };
      let c := flying [a, b]; let t := c.nextNc 0x11;
      c.flights.filter (fun f => f.router = 0x11) = [a, b] ∧ b.age < a.age ∧ a.age < 255 ∧ a.inPort ≠ b.inPort ∧
      (∀ f ∈ [a, b], f.inPort < 4 ∧ t.portOpen 0x11 f.inPort = true ∧ f.flit.syndrome 0 = 0 ∧ f.flit.syndrome 1 = 0 ∧
        f.flit.typ ≠ 15 ∧ t.route 0x11 f.flit = .dir 1) ∧
      t.portOpen 0x11 1 = true ∧ bundleAt 0x11 1 = none ∧ neighbour 0x11 1 = some 0x12 ∧
      (deflections 0x11 (((t.targetOf 0x11 b.flit).map (·.1)).getD 0x11) (some 1) b.inPort).find?
        (fun q => q != 1 && t.portOpen 0x11 q) = some 2 ∧
      bundleAt 0x11 2 = none ∧ neighbour 0x11 2 = some 0x21) ∧
    (let fl : Flight := { flit := flit Typ.event 0x23 2, router := 0x11, age := 255 };
      (flying [fl]).flights.filter (fun f => f.router = 0x11) = [fl] ∧ fl.inPort < 4 ∧
      ((flying [fl]).nextNc 0x11).portOpen 0x11 fl.inPort = true ∧ 255 ≤ fl.age) ∧
    (∀ f ∈ up.flights, f.router ≠ 0xFF) ∧ (flying [{ age := 255 }]).flights[0]? = some { age := 255 } ∧
    (∀ port ∈ [0, 2], let f := flit Typ.writeAck 0x23 2;
      let c := withFlds (up.onPort 0x11 port (fun q => { q with out := [f] })) 0 [(F.NOC_PORT_EN 9 port, 1)];
      let t := (c.when (port = 2) (fun c => c.dmaRefill (dieOf 0x11) (coreOf 0x11))).takeTurn 0x11 port;
      c.runs (dieOf 0x11) = true ∧ t.portEnabled 0x11 port = true ∧ (t.port 0x11 port).out = f :: [] ∧ f.syndrome 0 = 0 ∧
      f.syndrome 1 = 0 ∧ f.typ ≠ 15 ∧ t.route 0x11 f = .dir 1 ∧ t.portFree 0x11 1 = true ∧
      bundleAt 0x11 1 = none ∧ neighbour 0x11 1 = some 0x12) ∧
    (let b : Payload := { w2 := 1, w3 := 2 }; let pk : Packet := { router := 0x23, port := 2, typ := Typ.writeReq, body := [b] };
      let c := withFlds (up.onPort 0x11 2 (fun q => { q with waiting := [pk] })) 0 [(F.NOC_PORT_EN 9 2, 1)];
      let t := (c.when true (fun c => c.dmaRefill (dieOf 0x11) (coreOf 0x11))).takeTurn 0x11 2;
      c.runs (dieOf 0x11) = true ∧ t.portEnabled 0x11 2 = true ∧ t.mayInject 0x11 2 = true ∧ (t.port 0x11 2).out = [] ∧ (t.port 0x11 2).sent = [] ∧
      (t.port 0x11 2).waiting = pk :: [] ∧ (t.port 0x11 2).deferred = none ∧ t.streamReady 0x11 2 pk.key = true ∧ pk.body = [b] ∧
      1 + pk.resp ≤ t.window 0x11 2 ∧ t.portFree 0x11 1 = true ∧ pk.typ ≠ 15 ∧
      t.route 0x11 (Flit.seal {
        w0 := head0 pk.dev pk.router pk.port pk.typ pk.flow
        w1 := head1 t.ownDevice 0x11 2 0 true b.poison
        w2 := b.w2
        w3 := b.w3 }) = .dir 1) := by
  refine ⟨?_, ?_, ?_, ?_, ?_, ?_, ?_⟩ <;> decide +kernel

/-- A sent packet of one flit to port 2 of router 0x23, and what it sent. -/
def sentFlit : Flit := flit Typ.writeReq 0x23 2
def sentPk : SentPacket := { flits := [sentFlit], key := txKey 0 0x23 2 0 }

/-- An answer from port 2 of router 0x23: its payload words name a sequence or the header words of the packet it answers. -/
def answer (typ : Nat) (w2 w3 : W36) : Flit :=
  Flit.seal { w0 := head0 0 0x22 2 typ 0, w1 := head1 0 0x23 2 0 true false, w2 := w2, w3 := w3 }

/-- Port 2 of router 0x22 with sent packets and answers. -/
def sender (l : List SentPacket) (a : List Flit) : Chip := up.onPort 0x22 2 (fun q => { q with sent := l, answers := a })

theorem witness_SendersAct :
    (let a := answer Typ.writeAck 0 0; let c := sender [{ sentPk with key := 1, flits := [] }, sentPk] [a];
      c.runs (dieOf 0x22) = true ∧ (c.port 0x22 2).answers = a :: [] ∧ a.typ = Typ.writeAck ∧ a.poison = false ∧
      (c.port 0x22 2).ackedIdx a = some 1 ∧ (c.port 0x22 2).sent[1]? = some sentPk ∧ sentPk.origin = .plain ∧
      (c.port 0x22 2).deferred = none) ∧
    (∀ limit ∈ [0, 1], let c := withFlds (sender [sentPk, sentPk] []) 0 [(F.NOC_RETRY_RETRY_LIMIT, limit)];
      c.runs (dieOf 0x22) = true ∧ (c.port 0x22 2).sent[0]? = some sentPk ∧ sentPk.unsent = 0 ∧ sentPk.refused = false ∧
      (limit = 1 → sentPk.retries < c.fld (dieOf 0x22) F.NOC_RETRY_RETRY_LIMIT) ∧
      (limit = 0 → c.fld (dieOf 0x22) F.NOC_RETRY_RETRY_LIMIT ≤ sentPk.retries) ∧ (c.port 0x22 2).deferred = none ∧
      (∀ x ∈ (c.port 0x22 2).sent, x.origin = .plain ∧ x.typ ≠ Typ.emit ∧ x.typ ≠ Typ.cmd)) ∧
    (let a := answer Typ.wakeNack sentFlit.w0 sentFlit.w1; let c := sender [sentPk] [a];
      c.runs (dieOf 0x22) = true ∧ (c.port 0x22 2).answers = a :: [] ∧ a.typ = Typ.wakeNack ∧ a.poison = false ∧
      (c.port 0x22 2).refusedIdx a = some 0 ∧ (c.port 0x22 2).sent[0]? = some sentPk ∧ sentPk.refused = false ∧
      sentPk.wakes + 1 ≤ c.fld (dieOf 0x22) F.NOC_RETRY_WAKE_LIMIT) ∧
    (let p := { sentPk with refused := true }; ((sender [p] []).port 0x22 2).sent[0]? = some p ∧ p.refused = true) ∧
    (∀ typ ∈ [Typ.notReady, Typ.unreachable], let a := answer typ sentFlit.w0 sentFlit.w1; let c := sender [sentPk, sentPk] [a];
      c.runs (dieOf 0x22) = true ∧ (c.port 0x22 2).answers = a :: [] ∧ a.typ = typ ∧ a.poison = false ∧
      (c.port 0x22 2).refusedIdx a = some 0 ∧ (c.port 0x22 2).sent[0]? = some sentPk ∧ sentPk.refused = false ∧
      (c.port 0x22 2).deferred = none ∧
      (∀ x ∈ (c.port 0x22 2).sent, x.origin = .plain ∧ x.typ ≠ Typ.emit ∧ x.typ ≠ Typ.cmd)) := by decide +kernel

theorem witness_ReorderHolesAndPortSettings :
    (let h : Held := { key := 4, seq := 4095, flit := flit Typ.writeReq 0x11 2 }; let e : RxEntry := { key := 4, expect := 4095 };
      let c := up.onPort 0x11 2 (fun q => { q with held := [h], table := [e], delivered := List.replicate 7 {} });
      c.runs (dieOf 0x11) = true ∧ (c.port 0x11 2).again = [] ∧ (c.port 0x11 2).nextHeld = some h ∧
      h.flit.typ ≠ Typ.readResp ∧ (c.port 0x11 2).table.find? (fun x => x.key = h.key) = some e ∧
      (c.port 0x11 2).delivered.length < 8) ∧
    ((up.port 0x11 3).again = [] ∧ (up.port 0x11 3).nextHeld = none) ∧
    (let h : Held := { key := 4, seq := 9 }; let e : RxEntry := { key := 4 };
      let c : Chip := { up.onPort 0x11 2 (fun q => { q with held := [h], table := [e] }) with now := up.evictQuiet 0 };
      (c.port 0x11 2).table[0]? = some e ∧ h ∈ (c.port 0x11 2).held ∧ h.key = e.key ∧
      c.evictQuiet (dieOf 0x11) ≤ c.now - e.advanced ∧ c.evictQuiet (dieOf 0x11) ≤ c.now - h.since ∧
      (∀ x ∈ (c.port 0x11 2).held, x.key = e.key → x.seq = e.expect → c.evictQuiet (dieOf 0x11) ≤ c.now - x.since)) ∧
    up.collarOpen 0 0 = false ∧ (running up 0 0).collarOpen 0 0 = true ∧
    (up.port 0x11 2).table[(0 : Nat)]? = none := by decide +kernel


/-! ### Witnesses: die-to-die links, security, the reset of a die -/

/-- A bundle side in a training state, with its record. -/
def bundled (d e k v : Nat) (r : CrlSide := {}) (l : List (Fld × Nat) := []) : Chip :=
  (withFlds (withFlds up d [(F.CRL_BUNDLE_STATUS_STATE e k, v)]) d l).onCrl d e k (fun _ => r)

theorem witness_BundleTraining :
    up.linked 3 = true ∧
    (let c := bundled 1 1 7 Crl.resetWait; c.linked 1 = true ∧ c.dieInReset (peerDie 1 1) = false ∧ c.crlState 1 1 7 = Crl.resetWait) ∧
    (let c := bundled 1 1 7 Crl.pattern; c.linked 1 = true ∧ c.crlState 1 1 7 = Crl.pattern ∧
      crlCapability (BitVec.ofNat 40 (2 ^ 19 - 1)) true ≠ 0 ∧ crlCapability (BitVec.ofNat 40 (2 ^ 18 - 1)) true = 0) ∧
    (let c := bundled 1 1 7 Crl.negotiate; c.crlState 1 1 7 = Crl.negotiate) ∧
    (∀ b ∈ [true, false], let c := bundled 1 1 7 Crl.align { peerRxOk := b };
      c.crlState 1 1 7 = Crl.align ∧ (c.crlSide 1 1 7).peerRxOk = b) ∧
    (∀ n ∈ [1, 3], (bundled 1 1 7 Crl.align {} [(F.CRL_BUNDLE_STATUS_ATTEMPT 1 7, n)]).fld 1 (F.CRL_BUNDLE_STATUS_ATTEMPT 1 7) = n) := by
  decide +kernel

/-- Word 1 of an advert of bundle 7: capability, floor, proposal, echo, ATTEMPT, RX_OK, RETRAIN, FENCED and cause (R240). -/
def adv1 (cap floor prop echo att rxok retrain fenced cause : Nat) : W36 :=
  word (cap * 2 ^ 5 + floor * 2 ^ 7 + prop * 2 ^ 9 + echo * 2 ^ 11 + att * 2 ^ 13 + 7 * 2 ^ 15 + rxok * 2 ^ 18 + retrain * 2 ^ 19 +
    fenced * 2 ^ 21 + cause * 2 ^ 22)

theorem witness_BundleAdverts :
    (let c := bundled 2 0 0 Crl.negotiate; c.linked 2 = true ∧ c.dieInReset (peerDie 2 0) = false ∧ 2 ≤ c.crlState 2 0 0) ∧
    (bundled 2 0 0 Crl.resetWait).crlState 2 0 0 < 2 ∧ (∀ crc : BitVec 8, crc + 1 ≠ crc) ∧
    (let c := bundled 1 1 7 Crl.negotiate { cap := 2, propose := 1, agreeing := 1 } [(F.CRL_BUNDLE_STATUS_FLOOR 1 7, 2)];
      let w1 := adv1 1 2 1 1 0 0 0 0 0; let k := bits w1 15 3;
      let p := min (min (c.crlSide 1 1 k).cap (bits w1 5 2)) (min (c.fld 1 (F.CRL_BUNDLE_STATUS_FLOOR 1 k)) (bits w1 7 2));
      k = 7 ∧ c.crlState 1 1 k = Crl.negotiate ∧ bit w1 21 = false ∧ bits w1 13 2 ≤ c.fld 1 (F.CRL_BUNDLE_STATUS_ATTEMPT 1 k) ∧
      bits w1 5 2 ≠ 3 ∧ bits w1 7 2 ≠ 3 ∧ p ≠ 0 ∧ bits w1 9 2 = p ∧ bits w1 11 2 = p ∧ p ≠ 3 ∧ 1 ≤ (c.crlSide 1 1 k).agreeing) ∧
    (let c := bundled 1 1 7 Crl.align { alignOk := true }; let w1 := adv1 2 2 2 2 0 1 0 0 0; let k := bits w1 15 3;
      c.crlState 1 1 k = Crl.align ∧ (c.crlSide 1 1 k).alignOk = true ∧ bit w1 18 = true ∧ bit w1 21 = false ∧
      bits w1 13 2 ≤ c.fld 1 (F.CRL_BUNDLE_STATUS_ATTEMPT 1 k) ∧ bits w1 5 2 ≠ 3 ∧ bits w1 7 2 ≠ 3 ∧ bits w1 9 2 ≠ 3 ∧
      bits w1 11 2 ≠ 3) ∧
    (∀ e ∈ [(1, 0), (2, 1)],
      let c := bundled 1 1 7 Crl.active {} [(F.CRL_BUNDLE_STATUS_WIDTH 1 7, 2)];
      c.crlState 1 1 7 = Crl.active ∧ bits (adv1 2 2 e.1 2 0 0 e.2 0 0) 15 3 = 7 ∧ bits (adv1 2 2 e.1 2 0 0 e.2 0 0) 9 2 = e.1 ∧
      bits (adv1 2 2 e.1 2 0 0 e.2 0 0) 19 3 = e.2 ∧ (e.1 ≠ c.crlWidth 1 1 7 ∨ 2 ≠ c.crlWidth 1 1 7 ∨ e.2 = 1)) ∧
    (∀ v ∈ [1, 4], let c := bundled 1 1 7 v;
      1 ≤ c.crlState 1 1 7 ∧ c.crlState 1 1 7 ≤ 4 ∧ (c.crlSide 1 1 7).askedAt = none) ∧
    (∀ cause ∈ [2, 5], bits (adv1 2 2 2 2 0 0 0 1 cause) 22 3 = cause ∧ bit (adv1 2 2 2 2 0 0 0 1 cause) 21 = true ∧
      bits (adv1 2 2 2 2 0 0 0 1 cause) 5 8 = 0xAA) := by
  refine ⟨?_, ?_, ?_, ?_, ?_, ?_, ?_, ?_⟩ <;> decide +kernel

theorem bits_append_high {k m : Nat} (x : BitVec k) (f : BitVec m) : bits (x ++ f) m k = x.toNat := by
  have h := f.isLt
  have hx := x.isLt
  rw [bits, BitVec.toNat_append, Nat.shiftRight_or_distrib, Nat.shiftLeft_shiftRight, Nat.shiftRight_eq_div_pow,
    Nat.div_eq_of_lt h, Nat.or_zero, Nat.mod_eq_of_lt hx]

theorem bits_append_low {k m : Nat} (x : BitVec k) (f : BitVec m) (lo n : Nat) (h : lo + n ≤ m) :
    bits (x ++ f) lo n = bits f lo n := by
  rw [bits, bits]
  apply Nat.eq_of_testBit_eq
  intro i
  rw [Nat.testBit_mod_two_pow, Nat.testBit_mod_two_pow, Nat.testBit_shiftRight, Nat.testBit_shiftRight]
  by_cases hi : i < n
  · have e := BitVec.getLsbD_append (x := x) (y := f) (i := lo + i)
    rw [if_pos (by omega)] at e
    simp only [BitVec.getLsbD] at e
    rw [e]
  · simp [hi]

theorem crc_append {m : Nat} (x : BitVec 8) (f : BitVec m) :
    (List.range m).map (fun i => (x ++ f).getLsbD i) = (List.range m).map (fun i => f.getLsbD i) := by
  refine List.map_congr_left (fun i hi => ?_)
  have e := BitVec.getLsbD_append (x := x) (y := f) (i := i)
  rw [if_pos (List.mem_range.1 hi)] at e
  exact e

/-- The body of a frame with its CRC above it. -/
def withCrc8 (f : BitVec 752) : BitVec 760 := crc8 ((List.range 752).map (fun i => f.getLsbD i)) ++ f

theorem withCrc8_crc (f : BitVec 752) : bits (withCrc8 f) 752 8 = frameCrc (withCrc8 f) :=
  (bits_append_high _ f).trans (congrArg (fun l => (crc8 l).toNat) (crc_append (crc8 ((List.range 752).map (fun i => f.getLsbD i))) f).symm)

theorem withCrc8_low (f : BitVec 752) : bits (withCrc8 f) 748 4 = bits f 748 4 := bits_append_low _ f 748 4 (by decide)

/-- A frame of three flits with FCOUNT 15. -/
def frameBody : BitVec 752 := BitVec.ofNat 752 (15 * 2 ^ 748 + 7 * 2 ^ 744 + 12345)

theorem frameBody_count : bits frameBody 748 4 = 15 := by decide +kernel

/-- That frame, with its CRC. -/
def goodFrame : BitVec 760 := withCrc8 frameBody


theorem witness_BundleFramesAndControls :
    (bits goodFrame 752 8 = frameCrc goodFrame ∧ bits goodFrame 748 4 = 15) ∧
    (let c := bundled 3 0 7 Crl.active { rxCount := 15 };
      c.linked 3 = true ∧ c.crlState 3 0 7 = Crl.active ∧ 15 = (c.crlSide 3 0 7).rxCount) ∧
    (∀ limit ∈ [0, 1], let c := bundled 3 0 7 Crl.active { rxCount := 14 } [(F.CRL_CFG_ERR_LIMIT, limit)];
      c.linked 3 = true ∧ c.crlState 3 0 7 = Crl.active ∧ 15 ≠ (c.crlSide 3 0 7).rxCount ∧
      c.fld 3 F.CRL_CFG_ERR_LIMIT = limit) ∧
    (bundled 3 0 7 Crl.align).crlState 3 0 7 ≠ Crl.active ∧
    (∀ v ∈ [0, 2], let c := withFlds up 3 [(F.CRL_SIDEBAND_PEER_RST, v)];
      c.linked 3 = true ∧ c.peerRst 3 1 = (v == 2)) ∧
    (∀ v ∈ [4, 5], let c := bundled 3 1 7 v {} [(F.CRL_SIDEBAND_PEER_RST, 0)]; let w : W36 := 0;
      c.linked 3 = true ∧ bit w 2 = false ∧ bit w 1 = false ∧ c.peerRst 3 1 = false ∧
      4 ≤ c.crlState 3 1 7 ∧ c.crlState 3 1 7 ≤ 5) ∧
    (up.linked 0 = true ∧ up.dieInReset (peerDie 0 1) = false ∧ (2 : Nat) ≠ edgeOf 0 0 ∧ (2 : Nat) ≠ edgeOf 0 1 ∧
      (0 : Nat) = edgeOf 0 0 ∧ peerDie 0 (1 - 1) ≠ 2) :=
  ⟨⟨withCrc8_crc frameBody, (withCrc8_low frameBody).trans frameBody_count⟩, by decide +kernel⟩

theorem witness_HaltInputHalts : up.linked 2 = true ∧ up.dev ≠ .secureHalt ∧ up.dev ≠ .selftest ∧ (inDev .off).linked 2 = false ∧
    (inDev .secureHalt).dev = .secureHalt ∧ (inDev .selftest).dev = .selftest := by decide +kernel

/-- A part at LEVEL 1 with a nonce, an owner's hash and failures so far. -/
def locked (c : Chip) (x : Option (BitVec 256)) (fails : Nat) (hash : BitVec 384) : Chip :=
  { c with sec := { c.sec with level := 1, nonce := x, fails := fails }, fuses := { c.fuses with ownerHash := hash } }

/-- The packet of a DEBUG_UNLOCK whose words are all zero. -/
def unlockWords : List W36 := List.replicate 48 0

theorem witness_DebugUnlocking :
    (let h := header 0x180 0 3; let c := locked (cmdAt up 0 h []) none 7 1;
      Accepts c 0 0x180 h [] ∧ c.dieInReset (cmdDie h) = false ∧ c.unlockBarred = false) ∧
    (let h := header 0x180 0 3; let c := cmdAt up 4 h []; Accepts c 4 0x180 h [] ∧ c.unlockBarred = true) ∧
    (let h := header 0x181 48 0; let c := locked (cmdAt up 1 h unlockWords) (some 9) 7 1;
      Accepts c 1 0x181 h unlockWords ∧ c.dieInReset (cmdDie h) = false ∧ c.unlockBarred = false ∧ c.sec.nonce = some 9 ∧
      c.sec.fails = 7) ∧
    (let h := header 0x181 48 0; let c := locked (cmdAt up 1 h unlockWords) none 0 1;
      Accepts c 1 0x181 h unlockWords ∧ c.sec.nonce = none) ∧
    (let h := header 0x182 0 1; let c := cmdAt up 0 h []; Accepts c 0 0x182 h [] ∧ c.dieInReset (cmdDie h) = false) := by
  simp only [Accepts]; decide +kernel

/-- Whether an unlock is good rests on Config.ecdsaVerify, whose value nothing fixes: under the right hash, it is what that answers. -/
theorem witness_unlockGood :
    let signed := octetsOf (nonceWords 9 ++ [word (bits up.fuses.uid 0 36), word (bits up.fuses.uid 36 36)])
    (locked up (some 9) 0 (Config.sha384 (octets384 0 ++ octets384 0))).unlockGood 9 unlockWords =
      Config.ecdsaVerify 0 0 (Config.sha384 signed) 0 0 := by
  have h : ∀ n, ((unlockWords.drop (12 * n)).take 12).foldl (fun v w => v * 2 ^ 32 + bits w 0 32) 0 = 0 := by
    intro n
    simp only [unlockWords, List.drop_replicate, List.take_replicate]
    generalize min 12 (48 - 12 * n) = m
    induction m with
    | zero => rfl
    | succ m ih => rw [List.replicate_succ, List.foldl_cons]; exact ih
  simp only [Chip.unlockGood, locked, h, BitVec.ofNat_eq_ofNat, beq_self_eq_true, Bool.true_and]

/-- A packet of one parameter word at SVC. -/
def at1 (c : Chip) (op : Nat) (w : W36) : Chip := cmdAt c 1 (header op 1 0) [w]

theorem witness_FuseCommands :
    (∀ n ∈ [3, 2 + 15 * 4, 1 + 12 * 4], Accepts (at1 up 0x183 (word n)) 1 0x183 (header 0x183 1 0) [word n]) ∧
    lifecycleParam (word 3) = false ∧ lifecycleParam (word (2 + 15 * 4)) = false ∧ lifecycleParam (word (1 + 12 * 4)) = true ∧
    up.fuses.ownerHash = 0 ∧
    (Accepts (locked (at1 up 0x183 (word (2 + 12 * 4))) none 0 1) 1 0x183 (header 0x183 1 0) [word (2 + 12 * 4)] ∧
      lifecycleParam (word (2 + 12 * 4)) = true ∧ (locked up none 0 1).sec.level < bits (word (2 + 12 * 4)) 0 2 ∧
      (locked up none 0 1).fuses.nextLevel < bits (word (2 + 12 * 4)) 0 2 ∧ (locked up none 0 1).fuses.ownerHash ≠ 0) ∧
    (∀ n ∈ [0, 1], let ws := List.replicate 20 (word n);
      Accepts (cmdAt (inDev .blank) 1 (header 0x184 20 0) ws) 1 0x184 (header 0x184 20 0) ws ∧
      (BitVec.ofNat 256 (wideWords ((ws.drop 12).take 8)) = 0 ↔ n = 0) ∧ (inDev .blank).sec.level = 0) ∧
    (∀ n ∈ [0, 64, 65], Accepts (at1 (inDev .blank) 0x185 (word n)) 1 0x185 (header 0x185 1 0) [word n] ∧
      (64 < bits (word n) 0 7 ↔ n = 65) ∧ ((inDev .blank).fuses.epoch < bits (word n) 0 7 ↔ n ≠ 0)) ∧
    (Accepts (at1 up 0x185 (word 64)) 1 0x185 (header 0x185 1 0) [word 64] ∧ up.dev = .user ∧
      up.fld 0 F.SEC_STATUS_IMAGE_EPOCH < bits (word 64) 0 7) ∧ (inDev .blank).dev ≠ .user := by
  refine ⟨?_, ?_, ?_, ?_, ?_, ?_, ?_, ?_, ?_, ?_⟩ <;> (try simp only [Accepts]) <;> decide +kernel

theorem witness_FusesOnlyGrow : ∃ t, exec .porstNLow (st up) = .next t := ⟨_, rfl⟩

theorem witness_DieResetAndReturn :
    (let c : Chip := { up with resetDue := 8 }; c.resetDue.getLsbD 3 = true ∧ c.runs 3 = true ∧ up.resetDue.getLsbD 3 = false) ∧
    (let c : Chip := { up with inReset := 8 }; c.dieInReset 3 = true ∧ c.alive = true ∧ c.dev ≠ .secureHalt) ∧
    (let c : Chip := { inDev .secureHalt with inReset := 8 }; c.dieInReset 3 = true ∧ c.dev = .secureHalt) ∧
    up.dieInReset 0 = false := by decide +kernel


/-! ### Witnesses: command ports -/

/-- A part whose port p holds a reply. -/
def replied (p : Nat) (r : List W36) : Chip := { up with cmds := up.cmds.set p { reply := some r } }

theorem witness_PacketsArriveRepliesAreRead :
    (∀ p ∈ [Port.svc, Port.con, Port.fab], idlePort up p) ∧ plainOp (header 0x005 1 0) ∧ plainOp (header 0x001 0 0) ∧
    (cmdLen (header 0x005 1 0) = [(0 : W36)].length ∧ ([] : List W36).length < cmdLen (header 0x005 1 0)) ∧
    (cmdLen (header 0x00B 0 0) = 0 ∧ opStates (cmdOp (header 0x00B 0 0)) = none ∧ vendorOp (cmdOp (header 0x00B 0 0)) = false) ∧
    ({ up with sec := { auth := 0 } } : Chip).portTakes Port.svc = false ∧
    (let c : Chip := { up with sec := { auth := 0 } };
      c.portAnswers Port.fab = true ∧ c.portAuth Port.fab = 0 ∧
      c.cmd Port.fab = { ackSeq := (c.cmd Port.fab).ackSeq, lastRefused := (c.cmd Port.fab).lastRefused } ∧
      c.dieInReset 0 = false ∧ c.lead = 0 ∧ cmdLen (header 0x001 0 0) = 0) ∧
    lineWords [0x30, 0x30, 0x34, 0x30, 0x30, 0x30, 0x30, 0x30, 0x30] = some (header 0x001 0 0 :: []) ∧
    lineWords [0x30, 0x30, 0x34] = none ∧ (up.dieInReset 0 = false ∧ up.lead = 0) ∧ up.lead ≠ 3 ∧
    (let c := replied Port.svc [1, 2];
      c.portTakes Port.svc = true ∧ (c.cmd Port.svc).reply = some [1, 2] ∧ (c.cmd Port.svc).repeatMark = false ∧
      2 ≤ [(1 : W36), 2].length) ∧
    (let c := cmdAt up Port.svc (header 0x001 0 0) [];
      c.portTakes Port.svc = true ∧ (c.cmd Port.svc).reply = none ∧ (c.cmd Port.svc).running = some (header 0x001 0 0 :: [])) ∧
    (let c := replied Port.fab [1, 2];
      c.alive = true ∧ c.dieInReset 0 = false ∧ c.lead = 0 ∧ (c.cmd Port.fab).reply = some [1, 2] ∧
      (c.cmd Port.fab).repeatMark = false ∧ (c.cmd Port.fab).readPos + 1 < [(1 : W36), 2].length) := by
  simp only [idlePort, plainOp]; decide +kernel

theorem witness_ReportCommands :
    (Accepts (cmdAt up 0 (header 0x001 0 3) []) 0 0x001 (header 0x001 0 3) [] ∧ up.dieInReset (cmdDie (header 0x001 0 3)) = false) ∧
    Accepts (cmdAt up 4 (header 0x002 0 3) []) 4 0x002 (header 0x002 0 3) [] ∧
    (∀ n ∈ [0, 1, 84, 85], Accepts (at1 up 0x003 (word (n * 2 ^ 20))) 1 0x003 (header 0x003 1 0) [word (n * 2 ^ 20)] ∧
      bits (word (n * 2 ^ 20)) 20 7 = n) ∧
    Accepts (cmdAt up 2 (header 0x008 0 2) []) 2 0x008 (header 0x008 0 2) [] ∧
    Accepts (cmdAt up 3 (header 0x281 0 1) []) 3 0x281 (header 0x281 0 1) [] := by
  simp only [Accepts]; decide +kernel

/-- A part with two events logged at D0. -/
def twoEvents (c : Chip) : Chip := (c.logEv 0 Ev.timeStep 1).logEv 0 Ev.timeStep 2

theorem witness_AckResetRestart :
    (let c := twoEvents (at1 up 0x004 (word 2));
      Accepts c 1 0x004 (header 0x004 1 0) [word 2] ∧ c.logBack 0 (bits (word 2) 0 20) < c.unreadBy 1 0) ∧
    (Accepts (at1 up 0x005 0) 1 0x005 (header 0x005 1 0) [0] ∧ bit (0 : W36) 0 = false) ∧
    (let c : Chip := { at1 up 0x005 1 with inReset := 0b0110, resetDue := 0b1000 };
      Accepts c 1 0x005 (header 0x005 1 0) [1] ∧ c.dieInReset 0 = false ∧ bit (1 : W36) 0 = true ∧ c.dev = .user ∧
      (∀ e : Die, e.val ≠ 0 → c.dieInReset e = true ∨ c.resetDue.getLsbD e = true)) ∧
    (let c : Chip := { at1 up 0x005 1 with inReset := 0b0110 };
      Accepts c 1 0x005 (header 0x005 1 0) [1] ∧ c.dieInReset 0 = false ∧ c.dieInReset 3 = false ∧
      c.resetDue.getLsbD 3 = false) ∧
    (let c := cmdAt up 1 (header 0x001 0 3) [];
      c.alive = true ∧ c.dieInReset 3 = false ∧ c.updates = [] ∧ (c.cmd 1).running = some (header 0x001 0 3 :: []) ∧
      (c.cmd 1).runningFrom = none ∧ (c.cmd 1).buffered = none ∧ cmdDie (header 0x001 0 3) = 3) := by
  simp only [Accepts]; decide +kernel

/-- A part whose time service runs, with its first sample still to come or not. -/
def timed (c : Chip) (first : Bool) : Chip := { c with timeSvc := { mode := 1, stepThr := 2, first := first } }

theorem witness_TimeService :
    (∀ n ∈ [0, 2, 3], Accepts (at1 up 0x009 (word n)) 1 0x009 (header 0x009 1 0) [word n] ∧ bits (word n) 0 2 = n) ∧
    (let c := timed (at1 up 0x00A (word 2000)) true;
      Accepts c 1 0x00A (header 0x00A 1 0) [word 2000] ∧ c.timeSvc.mode = 1 ∧ c.timeSvc.first = true ∧
      (signed 36 (word 2000).toNat).natAbs ≤ max 1 c.timeSvc.stepThr * 1000) ∧
    (let c := timed (at1 up 0x00A (word 2001)) false;
      Accepts c 1 0x00A (header 0x00A 1 0) [word 2001] ∧ c.timeSvc.mode = 1 ∧
      max 1 c.timeSvc.stepThr * 1000 < (signed 36 (word 2001).toNat).natAbs ∧ c.chnAll.master < 4) ∧
    (let c := at1 up 0x00A 0; Accepts c 1 0x00A (header 0x00A 1 0) [0] ∧ c.timeSvc.mode ≠ 1) := by
  simp only [Accepts]; decide +kernel

theorem witness_BlockCommands :
    (let h := header 0x006 2 1; let c := withFlds (cmdAt up 0 h [5, 6]) 1 [(F.NOC_PORT_WIN 0 3, 1)];
      Accepts c 0 0x006 h [5, 6] ∧ c.dieInReset (cmdDie h) = false ∧ 2 ≤ c.window (gatewayOf (cmdDie h)) 3) ∧
    (let h := header 0x007 3 1; Accepts (cmdAt up 0 h [5, 6, 7]) 0 0x007 h [5, 6, 7]) ∧
    (let w := word (2 ^ 8 + 3 * 2 ^ 6 + 16); let c := at1 up 0x100 w;
      Accepts c 1 0x100 (header 0x100 1 0) [w] ∧ bits w 0 6 ≤ 46 ∧ bit w 8 = true ∧ bit w 11 = false ∧ 1 ≤ bits w 6 2 ∧
      offers (bits w 0 6) (bits w 6 2) = true ∧ c.domState 0 (bits w 0 6) = 0 ∧ c.domPhase 0 (bits w 0 6) = 0 ∧
      (c.dom 0 (bits w 0 6)).queued = false ∧ c.refusers 0 (bits w 0 6) (bits w 6 2) = []) ∧
    (let w := word (2 ^ 8 + 1 * 2 ^ 6 + 15); let c := at1 up 0x100 w;
      Accepts c 1 0x100 (header 0x100 1 0) [w] ∧ offers (bits w 0 6) (bits w 6 2) = true ∧
      c.refusers 0 (bits w 0 6) (bits w 6 2) = 9 :: []) ∧
    (let h := header 0x200 5 2; Accepts (cmdAt up 1 h [0, 0, 0, 0, 0]) 1 0x200 h [0, 0, 0, 0, 0]) ∧
    (let h := header 0x201 0 2; Accepts (cmdAt up 1 h []) 1 0x201 h [] ∧ (cmdAt up 1 h []).blwQueue.get 2 = []) ∧
    (let h := header 0x201 0 2; let c : Chip := { cmdAt up 1 h [] with blwQueue := SMap.set ([] : SMap (List BlwItem)) 2 [{}] };
      Accepts c 1 0x201 h [] ∧ c.blwQueue.get 2 = {} :: []) ∧
    (∀ free ∈ [0, 1], let w := word (1 + 2 * 1); let c := withFlds (at1 up 0x300 w) 0 [(F.DDR_CFG_LRANKS_M1 1, 1), (F.DDR_RANK_MAP_SPARE_FREE 1, free)];
      Accepts c 1 0x300 (header 0x300 1 0) [w] ∧ bits w 1 2 < c.lranks 0 (bits w 0 1) ∧
      c.fld 0 (F.DDR_RANK_MAP_SPARE_FREE (bits w 0 1)) = free ∧ c.flag 0 (F.DDR_STATUS_MIGRATING (bits w 0 1)) = false) := by
  refine ⟨?_, ?_, ?_, ?_, ?_, ?_, ?_, ?_⟩ <;> (simp only [Accepts]; decide +kernel)


/-! ### Oboe: words written out from the spec's tables -/

/-- The spec's own example (R287): MAC AC0 += X0*Y0 || X0 <= X[AP0]+AM || Y0 <= Y[AP4]+1 is 0x8_8811_8314. -/
theorem test_word_mac : OInstr.decode 0x888118314 = some (.alu .mac 0 2 0 0 (.load 0 3 0) (.load 4 1 2)) := by decide +kernel

/-- Class M (R282 to R286): 1, OP 0x08, S1 3, S2 0, D 1, NG 0, 00, an X move that stores AC1.L by AP7 −1, no Y move. -/
theorem test_word_sub : OInstr.decode 0b1_01000_11_00_1_0_00_10_111_10_111_0_00_000_00_000_0 =
    some (.alu .sub 3 0 1 0 (.store 7 2 7) .none) := by decide +kernel

/-- Class C (R288): 00000, FN 0x0C, 3 in [3:0]: LOCK 4; FN 0x0D, 8: SETIPL 8; FN 0x0E is reserved. -/
theorem test_word_control : OInstr.decode (0b0_0000_001100 * 2 ^ 25 + 3) = some (.lock 3) ∧
    OInstr.decode (0b0_0000_001101 * 2 ^ 25 + 8) = some (.setipl 8) ∧ OInstr.decode (0b0_0000_001110 * 2 ^ 25) = none := by
  decide +kernel

/-- Class B (R290): KIND 01, COND 01101, TARGET 0x1FFF: CALL LCNZ; KIND 10, COND 0, n 7: B (AP7). -/
theorem test_word_branch : OInstr.decode 0b0_0001_01_01101_000_00000000_1111111111111 = some (.branch 1 13 0x1FFF) ∧
    OInstr.decode 0b0_0001_10_00000_111_00000000_0000000000000 = some (.branchAp 0 0 7) := by decide +kernel

/-- Class D (R293): FORM 1, register 0x20 (AM0), END 0x100. -/
theorem test_word_do : OInstr.decode 0b0_0010_1_100000_00000000000_0000100000000 = some (.doReg 0x20 0x100) := by decide +kernel

/-- Class I (R296): register 0x37 (AL7), IMM 0x001FFF; PC cannot be loaded. -/
theorem test_word_ldi : OInstr.decode 0b0_0011_110111_0_000000000001111111111111 = some (.ldi 0x37 0x1FFF) ∧
    OInstr.decode 0b0_0011_010010_0_000000000001111111111111 = none := by decide +kernel

/-- Class R (R297): MOVC write of SRC 0x04 (AC0), H 1, OFFSET 0x0123; MOVC read into DST 0x01 (X1), H 0, OFFSET 0x0002. -/
theorem test_word_movc : OInstr.decode 0b0_0100_000000_000100_1_1_1_0000000100100011 = some (.movcWrite 4 1 0x123) ∧
    OInstr.decode 0b0_0100_000001_000000_1_0_0_0000000000000010 = some (.movcRead 1 0 2) := by decide +kernel

/-- Class L (R299): DIR 1, MEM 01, register 0x05 (AC1), MODE 110, n 3, DISP −1: a store to Y. -/
theorem test_word_memory : OInstr.decode 0b0_0101_1_01_000101_110_011_000_1111111111111 =
    some (.mem 1 1 5 6 3 0x1FFF) := by decide +kernel

/-- Class S (R301): SCALE with D 1, SRC 0x0E (BEX), k 5; ASL by 0 is reserved. -/
theorem test_word_shift : OInstr.decode 0b0_0110_011_1_001110_000_101_000000000000000 = some (.scale 1 5 14) ∧
    OInstr.decode 0b0_0110_001_0_000000_000000_000000000000000 = none := by decide +kernel

/-! ### Witnesses: Oboe cores -/

/-- Core 63 of die 3 runs, with a word at address 8191 that enters AG in oc 9. -/
def runs (w : Nat) (x : Core := {}) (l : List (Fld × Nat) := []) : Chip :=
  let c := withFlds (up.setCoreState 3 63 Obe.run) 3 l
  { c with
    cores := c.cores.set (coreKey 3 63) { x with pc := 8191, cycle := 9 }
    coreMem := c.coreMem.set (coreWordKey 3 63 0 8191) { data := word w, chk := checkBits (word w), valid := true } }

/-- That word is an instruction's. -/
def ran (i : OInstr) (x : Core := {}) (l : List (Fld × Nat) := []) : Chip := runs i.encode x l

/-- An instruction is about to enter AG at core 63. -/
def about (i : OInstr) (x : Core := {}) (l : List (Fld × Nat) := []) : Prop := oboeAt (ran i x l) 3 63 8191 9 i

/-- Registers of a core set. -/
def withRegs (l : List (Nat × Nat)) : Core := l.foldl (fun c e => c.setNow e.1 e.2) {}

theorem witness_OboeArithmetic :
    (∀ op ∈ [AluOp.mpy, .mac, .sum, .dif], about (.alu op 3 3 1 0 .none .none) (withRegs [(3, 0x800000)])) ∧
    (∀ op ∈ [AluOp.add, .sub, .tfr], about (.alu op 3 0 1 0 .none .none) (withRegs [(5, 2 ^ 55)])) ∧
    (∀ op ∈ [AluOp.adda, .suba, .clr, .neg, .abs], about (.alu op 0 0 1 0 .none .none) (withRegs [(5, 2 ^ 55)])) ∧
    (∀ op ∈ [AluOp.mpy, .mac, .sum, .dif, .add, .sub, .adda, .suba, .tfr, .clr, .neg, .abs], (aluExpected op 1 2 3 4 5).isSome = true) ∧
    (∀ op ∈ [AluOp.dmpy, .dmac], about (.alu op 3 3 0 1 .none .none)) ∧
    (∀ op ∈ [AluOp.cmp, .and, .or, .xor], about (.alu op 3 0 1 0 .none .none)) ∧
    (∀ op ∈ [AluOp.maxi, .mini], about (.alu op 3 0 0 0 .none .none)) ∧ about (.alu .move 0 0 0 0 .none .none) ∧
    (∀ i ∈ [OInstr.asr 1 55, .asl 0 1, .norm 1 14, .scale 0 7 4], about i) := by
  refine ⟨?_, ?_, ?_, ?_, ?_, ?_, ?_, ?_, ?_⟩ <;> (try simp only [about, oboeAt, oboeReady]) <;> decide +kernel

theorem witness_OboeMoves :
    (∀ r : Fin 64, r.val ∈ [0, 4, 5, 6, 7, 8, 9, 10, 11, 12, 13, 14, 15, 16, 0x37] → about (.ldi r 0xFFFFFF)) ∧
    about (.movr 0x0D 4) ∧ (about (.movcRead 3 1 0xFF) ∧ about (.movcRead 3 0 2)) ∧ about (.movcWrite 4 1 0xFFFF) ∧
    (about (.movcWrite 3 0 4) ∧ (4 : Fin 65536).val ∈ [2, 3, 4]) ∧
    (∀ st : Fin 2, ∀ mode : Fin 8, mode.val ∈ [1, 6] → about (.mem st 1 5 mode 7 (if mode = 6 then 0x1FFF else 0))) ∧
    ((ran (.mem 0 1 5 1 7 0)).coreWord 3 63 2 0 = (0, 0)) ∧
    (about (.alu .move 0 0 0 0 .none (.load 7 3 2)) ∧ about (.alu .move 0 0 0 0 (.load 7 3 2) .none)) ∧
    (∀ i ∈ [OInstr.moda 7 0x1FFF, .bexr, .setipl 8, .nop, .kick], about i) := by
  refine ⟨?_, ?_, ?_, ?_, ?_, ?_, ?_, ?_, ?_⟩ <;> (try simp only [about, oboeAt, oboeReady]) <;> decide +kernel

/-- The stack of a core. -/
def stacked (n : Nat) (x : Core := {}) : Core := { x with sys := List.replicate n (5, 0x100) }

/-- A NOP about to enter AG in a core with slots, a repetition, a LOCK sequence or loops. -/
def nopIn (i : OInstr) (x : Core) : Prop := oboeReady (ran i x) 3 63 8191 9 i

theorem witness_OboeControlFlow :
    (∀ i ∈ [OInstr.branch 1 0 0x1FFF, .branch 0 1 7, .branchAp 1 15 7], about i (stacked 15)) ∧
    (about .rts (stacked 1) ∧ ((ran .rts (stacked 1)).core 3 63).sys = (5, 0x100) :: []) ∧
    (∀ n ∈ [1, 2], nopIn .nop { slots := n }) ∧ (∀ b ∈ [true, false], about .rti { stacked 1 with inPoison := b } ∧
      (((ran .rti { stacked 1 with inPoison := b }).core 3 63).inPoison = false ↔ b = false) ∧
      ((ran .rti { stacked 1 with inPoison := b }).core 3 63).poisonAt < ((ran .rti { stacked 1 with inPoison := b }).core 3 63).sys.length) ∧
    (let x : Core := { pc := 6, cycle := 9 }; let i : OInstr := .doImm 0 7;
      let c : Chip := { ran i x with
        cores := SMap.set ([] : SMap Core) (coreKey 3 63) x
        coreMem := SMap.set ([] : SMap RamWord) (coreWordKey 3 63 0 6) { data := word i.encode, chk := checkBits (word i.encode), valid := true } };
      oboeAt c 3 63 6 9 i ∧ 6 + 1 ≤ 7) ∧
    (∀ n ∈ [1, 2, 65535], nopIn .nop { (withRegs [(Rc.lc, n)]) with loops := [⟨5, 3, 8191, 9⟩] } ∧
      (withRegs [(Rc.lc, n)]).committed Rc.lc = n) ∧
    nopIn .enddo { loops := [⟨5, 3, 9, 9⟩] } ∧ about (.rep 4095) ∧ about .repLc ∧ (∀ n ∈ [1, 4096], nopIn .nop { rep := n }) ∧
    about (.lock 15) ∧ (∀ n ∈ [1, 16], nopIn .nop { lock := n }) := by
  refine ⟨?_, ?_, ?_, ?_, ?_, ?_, ?_, ?_, ?_, ?_, ?_, ?_⟩ <;> (try simp only [about, nopIn, oboeAt, oboeReady]) <;> decide +kernel


/-- The status register of a core: a bit set. -/
def srOf (b : Nat) (x : Core := {}) : Core := x.setNow Rc.sr (2 ^ b)

/-- A held task. -/
def aTask : HeldTask := { flow := 1023, seq := 2 ^ 20 - 1, attempt := 7 }

/-- A part of core 63 of die 3 in a state, with its record and fields. -/
def coreIn (v : Nat) (x : Core := {}) (l : List (Fld × Nat) := []) : Chip :=
  let c := withFlds (up.setCoreState 3 63 v) 3 l
  { c with cores := c.cores.set (coreKey 3 63) x }

/-- A flit at the head of the OBOE port of core 63 of die 3. -/
def atOboe (c : Chip) (f : Flit) : Chip := delivers c (coreRouter 3 63) 2 f

theorem witness_OboeTasks :
    (∀ worker ∈ [0, 1], about .waittask {} [(F.OBE_CTRL_WORKER 63, worker)] ∧
      (ran .waittask {} [(F.OBE_CTRL_WORKER 63, worker)]).readyDue 3 63 = (worker == 1) ∧
      (ran .waittask {} [(F.OBE_CTRL_WORKER 63, worker)]).hasRoom (coreRouter 3 63) 2 = true ∧
      ((ran .waittask {} [(F.OBE_CTRL_WORKER 63, worker)]).onPort (coreRouter 3 63) 2
        (fun q => { q with out := List.replicate 8 {} })).hasRoom (coreRouter 3 63) 2 = false) ∧
    (about .waittask { areaReady := true } ∧ ((withRegs []).committed Rc.sr).testBit Sr.tv = false) ∧
    (∀ l ∈ [[], [{}, ({} : Packet)]], about .emit { srOf Sr.tv with task := some aTask, tokens := l }) ∧
    (((srOf Sr.tv).committed Rc.sr).testBit Sr.tv = true ∧ (∀ i, i < 8 → ((ran .emit).coreWord 3 63 1 (0x1FD8 + i)).2 = 0)) ∧
    (about .abort { srOf Sr.tv with task := some aTask } ∧
      (ran .abort { srOf Sr.tv with task := some aTask }).hasRoom (coreRouter 3 63) 2 = true) ∧ about .sleep ∧
    (let c := coreIn Obe.sleep { wakeNoted := true };
      c.coreClocked 3 63 = true ∧ c.coreState 3 63 = Obe.sleep ∧ (c.core 3 63).wakeNoted = true ∧ (c.core 3 63).stepping = false) ∧
    (let p : Packet := { body := [{}] }; let c := coreIn Obe.run { tokens := [p] };
      c.runs 3 = true ∧ (c.core 3 63).tokens = p :: [] ∧ c.fits (coreRouter 3 63) 2 p = true ∧ c.hasRoom (coreRouter 3 63) 2 = true) ∧
    (let f : Flit := { w0 := head0 0 0 2 Typ.dispatch 1023, w2 := word (2 ^ 7) };
      let c := atOboe (coreIn Obe.waittask {} [(F.OBE_CTRL_WORKER 63, 1)]) f;
      c.coreClocked 3 63 = true ∧ ((c.core 3 63).committed Rc.sr).testBit Sr.lk = false ∧
      (c.port (coreRouter 3 63) 2).delivered = f :: [] ∧ f.typ = Typ.dispatch ∧ c.flag 3 (F.OBE_CTRL_WORKER 63) = true ∧
      c.coreState 3 63 = Obe.waittask ∧ bits f.w2 0 2 = 0 ∧ bit f.w2 7 = true ∧ f.poison = false ∧
      c.flipArmed 3 3 63 = false ∧ (c.core 3 63).pend = [] ∧ (c.core 3 63).stores = [] ∧ (c.core 3 63).stepping = false) := by
  refine ⟨?_, ?_, ?_, ?_, ?_, ?_, ?_, ?_, ?_⟩ <;> (try simp only [about, oboeAt, oboeReady]) <;> decide +kernel

/-- Core 63 of die 3 at a word that is no instruction. -/
def illegal (x : Core) : Prop :=
  let c := runs 0x400000000 x
  c.coreClocked 3 63 = true ∧ c.coreState 3 63 = Obe.run ∧ (c.core 3 63).haltAsked = false ∧ (c.core 3 63).stepping = false ∧
  (c.core 3 63).pend = [] ∧ (c.core 3 63).stores = [] ∧ c.coreWord 3 63 0 8191 = (0x400000000, 0) ∧
  OInstr.decode 0x400000000 = none ∧ c.vectorCheck 3 63 0 = 0

theorem witness_OboeFaultsAndInterrupts :
    (illegal (stacked 15) ∧ ((stacked 15).committed Rc.sr).testBit Sr.nmi = false ∧ (stacked 15).sys.length < 16) ∧
    (illegal (srOf Sr.nmi) ∧ ((srOf Sr.nmi).committed Rc.sr).testBit Sr.nmi = true) ∧
    (∀ user ∈ [0, 1], let c := (runs 0 {} [(F.OBE_CTRL_POISON_USER 63, user)]).writeCoreWord 3 63 0 8191 7 true;
      c.coreClocked 3 63 = true ∧ c.coreState 3 63 = Obe.run ∧ (c.core 3 63).pc = 8191 ∧ (c.core 3 63).cycle = 9 ∧
      c.coreWord 3 63 0 8191 = (7, 15#4) ∧ c.vectorCheck 3 63 1 = 0 ∧ c.fld 3 (F.OBE_CTRL_POISON_USER 63) = user) ∧
    (let c := coreIn Obe.run (stacked 15 (withRegs [(Rc.sr, 7 * 2 ^ 5)]))
        [(F.OBE_INT_PEND_PEND 63, 2 ^ 7), (F.OBE_INT_EN 63, 2 ^ 7), (F.OBE_INT_LEVEL 63, 7 * 2 ^ 21)]; let x := c.core 3 63;
      c.canAccept 3 63 = true ∧ c.wantedInt 3 63 (x.readAt Rc.sr x.cycle / 2 ^ 5 % 16) = some (7, 7) ∧ x.sys.length < 16 ∧
      x.pend = [] ∧ x.stores = [] ∧ c.vectorCheck 3 63 (2 + 7) = 0) ∧
    ((coreIn Obe.halted).canAccept 3 63 = false ∧ (coreIn Obe.run).wantedInt 3 63 0 = none) ∧
    (let c := coreIn Obe.sleep { stacked 15 with nmiWdog := true }; let x := c.core 3 63;
      c.canAccept 3 63 = true ∧ (x.nmiWdog = true ∨ x.nmiClk = true) ∧ (x.committed Rc.sr).testBit Sr.nmi = false ∧
      x.sys.length < 16 ∧ x.pend = [] ∧ x.stores = [] ∧ c.vectorCheck 3 63 0 = 0) ∧
    (let c := coreIn Obe.run {} [(F.OBE_WDOG_EN 63, 1)]; let x := c.core 3 63;
      c.coreClocked 3 63 = true ∧ c.flag 3 (F.OBE_WDOG_EN 63) = true ∧ c.coreState 3 63 = Obe.run ∧
      ((x.committed Rc.sr).testBit Sr.nmi = false ∨ x.wdogSeen = false)) ∧
    (let c := coreIn Obe.run { srOf Sr.nmi with wdogSeen := true } [(F.OBE_WDOG_EN 63, 1)]; let x := c.core 3 63;
      (x.committed Rc.sr).testBit Sr.nmi = true ∧ x.wdogSeen = true ∧ x.pend = [] ∧ x.stores = []) ∧
    up.runs 3 = true ∧
    (let c := coreIn Obe.waittask {} [(F.OBE_TIMER_EN 63, 1)];
      c.coreClocked 3 63 = true ∧ c.flag 3 (F.OBE_TIMER_EN 63) = true ∧
      (c.coreState 3 63 = Obe.run ∨ c.coreState 3 63 = Obe.waittask)) := by
  refine ⟨?_, ?_, ?_, ?_, ?_, ?_, ?_, ?_, ?_, ?_⟩ <;> (try simp only [illegal]) <;> decide +kernel

theorem witness_OboeStatesPortDma :
    (∀ v ∈ [2, 3], let c := withFlds up 3 [(F.CFG_STATUS_STAGE, v)];
      c.runs 3 = true ∧ c.coreState 3 63 = Obe.reset ∧ c.pastStage3 3 = (v == 3)) ∧
    (let c := coreIn Obe.faultHalt; c.runs 3 = true ∧ c.coreState 3 63 ≠ Obe.reset ∧ (c.core 3 63).task = none) ∧
    (∀ typ ∈ [Typ.readReq, Typ.writeReq], let f : Flit := { w0 := head0 0 0 2 typ 0, w2 := word 0x3FFF };
      let c := atOboe (coreIn Obe.run) f;
      c.coreClocked 3 63 = true ∧ ((c.core 3 63).committed Rc.sr).testBit Sr.lk = false ∧
      (c.port (coreRouter 3 63) 2).delivered = f :: [] ∧ f.typ = typ ∧ bits f.w3 0 6 = 0 ∧ f.poison = false ∧
      oboeOffset f.w2.toNat = some (1, 8191) ∧ c.coreWord 3 63 1 8191 = (0, 0) ∧ c.flipArmed 3 (2 + 1) 63 = false ∧
      (c.core 3 63).writing = [] ∧ (c.core 3 63).stores = []) ∧
    (∀ rd ∈ [4, 0], let f : Flit := { w0 := head0 0 0 2 Typ.stream 0 };
      let c := atOboe (coreIn Obe.run {} [(F.OBE_INBOX_EN 63, 1), (F.OBE_INBOX_LEN 63, 3), (F.OBE_INBOX_PTR_WR 63, 7),
        (F.OBE_INBOX_PTR_RD 63, rd)]) f;
      c.coreClocked 3 63 = true ∧ ((c.core 3 63).committed Rc.sr).testBit Sr.lk = false ∧ c.flag 3 (F.OBE_INBOX_EN 63) = true ∧
      c.inboxFull 3 63 = (rd == 0) ∧ (c.port (coreRouter 3 63) 2).delivered = f :: [] ∧ f.typ = Typ.stream ∧
      f.poison = false ∧ c.flipArmed 3 3 63 = false) ∧
    (up.runs 3 = true ∧ up.flag 3 (F.OBE_DMA_STATUS_BUSY 63 3) = false ∧ dmaPaired 1 2 12 = true ∧ dmaPaired 1 2 13 = false ∧
      dmaPaired 3 0 0 = true) ∧
    (let f : Flit := { w0 := head0 0 0 2 Typ.readResp 5, w1 := head1 0 0x23 3 0 true false };
      let r : DmaRead := { chan := 3, word := 0, left := 4, key := txKey 0 0x23 3 5 };
      let c := atOboe (coreIn Obe.run { reads := [r], dma := SMap.set ([] : SMap DmaChan) 3 { words := 4 } } [(F.OBE_DMA_STATUS_BUSY 63 3, 1)]) f;
      let x := c.core 3 63;
      c.coreClocked 3 63 = true ∧ (x.committed Rc.sr).testBit Sr.lk = false ∧
      (c.port (coreRouter 3 63) 2).delivered = f :: [] ∧ f.typ = Typ.readResp ∧ x.reads = [r] ∧ r.chan < 4 ∧
      r.key = txKey f.srcDev f.srcRouter f.srcPort f.flow ∧ r.left ≤ 4 ∧ c.flag 3 (F.OBE_DMA_STATUS_BUSY 63 r.chan) = true ∧
      (x.chan r.chan).words ≤ (x.chan r.chan).done + r.left) := by
  refine ⟨?_, ?_, ?_, ?_, ?_, ?_⟩ <;> decide +kernel


/-! ### Witnesses: Bellows -/

/-- Bellows runs on die 2, with fields set. -/
def bellows (l : List (Fld × Nat) := []) : Chip := withFlds up 2 ([(F.BLW_CTRL_RUN, 1), (F.CFG_STATUS_STAGE, 3)] ++ l)

/-- A token, EMIT or other flit waits at die 2's gateway. -/
def waits (c : Chip) (f : Flit) : Chip := delivers c (gatewayOf 2) 3 f

/-- A TOKEN for a template, slot and sequence of flow 1023 (R311). -/
def tokenFor (tpl slot seq : Nat) (err : Nat := 0) : Flit :=
  { w0 := head0 0 (gatewayOf 2) 3 Typ.token 1023, w2 := word (seq + tpl * 2 ^ 20 + slot * 2 ^ 28 + err * 2 ^ 33) }

/-- A template: VALID, with GATE, FORWARD and arity. -/
def template (t gate fwd arity : Nat) : List (Fld × Nat) :=
  [(F.BLW_TPL_A_VALID t, 1), (F.BLW_TPL_A_GATE t, gate), (F.BLW_TPL_A_FORWARD t, fwd), (F.BLW_TPL_A_ARITY_M1 t, arity)]

/-- An entry of the matching store. -/
def stored (c : Chip) (key : Nat) (e : BlwEntry) : Chip := { c with blwStore := c.blwStore.set key (some e) }

/-- With nothing armed no flip is, of any kind and index. -/
theorem flipArmed_off (c : Chip) (d : Nat) (h : c.flag d F.MIE_FLIP_SEL_ARM = false) (k i : Nat) : c.flipArmed d k i = false := by
  rw [Chip.flipArmed, h, Bool.false_and, Bool.false_and]

theorem witness_BellowsTokens :
    (∀ f ∈ (up.port (gatewayOf 2) 3).delivered, f.typ ≠ Typ.token) ∧
    (let f := tokenFor 255 3 0; let c := waits up f;
      c.runs 2 = true ∧ (c.port (gatewayOf 2) 3).delivered = f :: [] ∧ f.typ = Typ.token ∧ c.bellowsRuns 2 = false) ∧
    (let c := waits (bellows (template 255 0 0 2)) (tokenFor 255 3 0);
      c.bellowsRuns 2 = true ∧ c.flag 2 (F.BLW_TPL_A_VALID 255) = true ∧ ¬ 3 ≤ c.fld 2 (F.BLW_TPL_A_ARITY_M1 255)) ∧
    (let c := waits (bellows (template 255 0 1 3)) (tokenFor 255 3 0);
      (TokenIn.ofFlit (tokenFor 255 3 0)).tpl = 255 ∧ (TokenIn.ofFlit (tokenFor 255 3 0)).slot = 3 ∧
      c.bellowsRuns 2 = true ∧ c.flag 2 (F.BLW_TPL_A_VALID 255) = true ∧ 3 ≤ c.fld 2 (F.BLW_TPL_A_ARITY_M1 255) ∧
      c.flag 2 (F.BLW_TPL_A_FORWARD 255) = true) ∧
    (∀ en ∈ [0, 1], let c := bellows (template 255 1 0 3 ++ [(F.BLW_FLOW_EN 1023, en)]);
      c.flag 2 (F.BLW_TPL_A_GATE 255) = true ∧ c.fld 2 (F.BLW_FLOW_EN 1023) = en) ∧
    (let c := bellows (template 255 1 0 3 ++ [(F.BLW_FLOW_EN 1023, 1)]);
      2 ^ 19 ≤ c.distance 2 1023 (2 ^ 19) ∧ c.distance 2 1023 (2 ^ 19 - 1) < 2 ^ 19 ∧ c.itemFailed 2 1023 255 = false ∧
      c.distance 2 1023 255 < 256 ∧ 256 ≤ c.distance 2 1023 256) ∧
    (TokenIn.ofFlit (tokenFor 255 3 0 1)).err = true ∧
    (∀ l ∈ [([] : SMap (Option BlwSlot)), [(3, some {})]],
      let c := stored (bellows (template 255 0 0 3)) (blwKey 2 255 1023 7) { slots := l };
      c.blwStore.get (blwKey 2 255 1023 7) = some { slots := l } ∧ c.flag 2 F.MIE_FLIP_SEL_ARM = false ∧
      ((SMap.get l 3 : Option BlwSlot) = none ↔ l = [])) ∧
    ((bellows (template 255 0 0 3)).blwStore.get (blwKey 2 255 1023 7) = none ∧ (bellows []).storeUsed 2 < 16384) := by
  refine ⟨?_, ?_, ?_, ?_, ?_, ?_, ?_, ?_, ?_⟩ <;> decide +kernel

/-- Entries of template 0, flow 0 of die 2, by their sequences, and a store of them. -/
def entriesOf (l : List Nat) : SMap (Option BlwEntry) := l.map (fun i => (2 * 2 ^ 38 + i, some ({} : BlwEntry)))
def storeOf (l : List Nat) : Chip := { bellows (template 255 0 0 3) with blwStore := entriesOf l }

theorem keysIn_range (m : Nat) : ∀ l : List Nat, (∀ i ∈ l, i < m) → m ≤ 2 ^ 38 →
    (SMap.keysIn (entriesOf l) (2 * 2 ^ 38) ((2 + 1) * 2 ^ 38)).length = l.length := by
  intro l hl hm
  induction l with
  | nil => rfl
  | cons a l ih =>
    have ha := hl a (List.mem_cons_self ..)
    have ih := ih (fun i hi => hl i (List.mem_cons_of_mem _ hi))
    simp only [entriesOf, SMap.keysIn, List.map_cons] at ih ⊢
    rw [List.filter_cons_of_pos (by simp; omega)]
    simpa using ih

/-- A full matching store. -/
theorem storeOf_full (l : List Nat) (h : ∀ i ∈ l, i < 16384) : l.length ≤ (storeOf l).storeUsed 2 :=
  Nat.le_trans (Nat.le_of_eq (keysIn_range 16384 l h (by decide)).symm) (Nat.le_add_right _ _)

theorem witness_fullStore : ∃ c : Chip, 16384 ≤ c.storeUsed 2 :=
  ⟨storeOf (List.range 16384), by
    have h := storeOf_full (List.range 16384) (fun i hi => List.mem_range.1 hi)
    rwa [List.length_range] at h⟩

/-- Worker 64 of die 2: a fabric worker of class 15, enabled, in a state, holding tags. -/
def working (c : Chip) (st : Nat) (tags : List (Nat × Option Nat)) : Chip :=
  (withFlds c 2 [(F.BLW_WORKER_EN 64, 1), (F.BLW_WORKER_CLASS 64, 15), (F.BLW_WORKER_ROUTER 64, 0x9F), (F.BLW_WORKER_PORT 64, 1),
    (F.BLW_WSTAT_STATE 64, st), (F.BLW_WORKER_DEPTH_M1 64, 3)]).onWorker 2 64 (fun x => { x with tags := tags })

/-- The key of a task of template 255, flow 1023, the last sequence. -/
def aKey : Nat := blwKey 2 255 1023 (2 ^ 20 - 1)

theorem witness_BellowsTokensAndDispatch :
    (let c := { working (stored (bellows []) aKey {}) Wrk.idle [] with blwReady := SMap.set ([] : SMap (List Nat)) ((2 * 16 + 15) * 8 + 7) [aKey] };
      c.runs 2 = true ∧ c.bellowsRuns 2 = true ∧ c.nextTask 2 15 = some ((2 * 16 + 15) * 8 + 7, aKey) ∧
      c.pickWorker 2 15 = some (64, 0) ∧ c.blwStore.get aKey = some {}) ∧
    ((bellows []).nextTask 2 15 = none ∧ (bellows []).pickWorker 2 15 = none ∧ up.bellowsRuns 2 = false) := by
  refine ⟨?_, ?_⟩ <;> decide +kernel

/-- An EMIT of flow 1023 from worker 64: its word 2, and words 3 to 5. -/
def emitWith (w2 : Nat) (w3 : W36 := 0) : Flit :=
  { w0 := head0 0 (gatewayOf 2) 3 Typ.emit 1023, w1 := head1 0 0x9F 1 0 true false, w2 := word (w2 + (2 ^ 13 - 1) * 2 ^ 23), w3 := w3 }

/-- Die 2 with a task out at worker 64 under tag 3, and a flit of it waiting. -/
def outTask (e : BlwEntry) (l : List (Fld × Nat)) (f : Flit) : Chip :=
  waits (working (stored (bellows l) aKey e) Wrk.busy [(3, some aKey)]) f

/-- The EMIT that waits belongs to the task. -/
def ofTask (e : BlwEntry) (l : List (Fld × Nat)) (f : Flit) : Prop :=
  let c := outTask e l f
  c.runs 2 = true ∧ c.bellowsRuns 2 = true ∧ (c.port (gatewayOf 2) 3).delivered = f :: [] ∧ f.typ = Typ.emit ∧
  c.emitWorker 2 f = some 64 ∧ c.emitTask 2 64 f = some (aKey, e)

theorem witness_BellowsResults :
    (∀ b ∈ [0, 1], ofTask { phase := .out 64 3 } (template 255 1 0 0) (emitWith (b * 2 ^ 13 + 3 * 2 ^ 21))) ∧
    (∀ b ∈ [0, 1], let l := template 255 1 0 0 ++ [(F.BLW_TPL_B_FREE_TPL 255, 255), (F.BLW_FLOW_BASE 1023, 2 ^ 20 - 1)];
      let f := emitWith (2 ^ 13 + b * 2 ^ 14 + 2 ^ 15 + 3 * 2 ^ 21);
      ofTask { phase := .out 64 3 } l f ∧ (outTask { phase := .out 64 3 } l f).distance 2 1023 (2 ^ 20 - 1) < 2 ^ 19) ∧
    (let e : BlwEntry := { phase := .out 64 3, staged := List.replicate 8 {} };
      let l := template 255 1 0 0 ++ [(F.BLW_FLOW_BASE 1023, 2 ^ 20 - 1)];
      ofTask e l (emitWith (3 * 2 ^ 21)) ∧ (outTask e l (emitWith (3 * 2 ^ 21))).distance 2 1023 (2 ^ 20 - 1) < 2 ^ 19) ∧
    (∀ kind ∈ [0, 1, 3], bits (emitWith (kind * 2 ^ 16 + 3 * 2 ^ 21)).w2 16 2 = kind ∧
      (waits (bellows []) (emitWith (kind * 2 ^ 16 + 3 * 2 ^ 21))).emitWorker 2 (emitWith (kind * 2 ^ 16 + 3 * 2 ^ 21)) = none) ∧
    (ofTask { phase := .out 64 3 } [(F.BLW_TPL_A_RETRY_MAX 255, 1)] (emitWith (2 ^ 16 + 3 * 2 ^ 21)) ∧
      ofTask { phase := .out 64 3 } [] (emitWith (2 ^ 16 + 3 * 2 ^ 21) 2)) ∧
    (let c := waits (working (bellows []) Wrk.lost []) (emitWith (2 * 2 ^ 16));
      (c.port (gatewayOf 2) 3).delivered = emitWith (2 * 2 ^ 16) :: [] ∧ bits (emitWith (2 * 2 ^ 16)).w2 16 2 = 2 ∧
      c.workerAt 2 0x9F 1 = some 64 ∧ (bellows []).workerAt 2 0x9F 1 = none ∧ (emitWith (2 * 2 ^ 16)).srcDev = c.ownDevice ∧
      c.workerState 2 64 = Wrk.lost) ∧
    (∀ t ∈ [0, 1], let c := outTask { phase := .out 64 3 } [(F.BLW_TPL_B_TIMEOUT 255, t), (F.BLW_TPL_A_RETRY_MAX 255, 1)] {};
      c.runs 2 = true ∧ c.blwStore.get aKey = some { phase := .out 64 3 } ∧ blwDie aKey = 2 ∧ blwTpl aKey = 255 ∧
      c.fld 2 (F.BLW_TPL_B_TIMEOUT (blwTpl aKey)) = t ∧ c.workerState 2 64 ≠ Wrk.held ∧ c.finalWaits 2 64 3 = false ∧
      (c.onPort (gatewayOf 2) 3 (fun q => { q with
        waiting := [{ origin := .dispatch 64, body := [{ w2 := word (2 ^ 7 + 3 * 2 ^ 8) }] }] })).finalWaits 2 64 3 = true ∧
      0 < c.fld 2 (F.BLW_TPL_A_RETRY_MAX (blwTpl aKey))) := by
  refine ⟨?_, ?_, ?_, ?_, ?_, ?_, ?_⟩ <;> (try simp only [ofTask]) <;> decide +kernel

/-- FAB port 127 of die 2 enabled, its region ACTIVE. -/
def fabOn : Chip := withFlds (up.setRegion 2 (regionOf (fabRouter 2 127)) Rgn.active) 2 [(F.BLW_FABPORT_EN 127, 1)]

/-- The window of flow 1023 of die 2 holds a position at BASE 0. -/
def marked (c : Chip) (m : BlwMark) : Chip := c.setMark 2 1023 0 (some m)

theorem witness_BellowsReleaseAndRegisters :
    ((marked up {}).mark 2 1023 0 = some {} ∧ up.mark 2 1023 0 = none ∧ up.fld 2 (F.BLW_FLOW_BASE 1023) = 0) ∧
    (∀ k ∈ [0, 1, 2], let c := marked (withFlds up 2 [(F.BLW_TPL_B_REL_KIND 255, k)]) { release := some ({}, 255) };
      c.mark 2 1023 0 = some { release := some ({}, 255) } ∧ c.fld 2 (F.BLW_TPL_B_REL_KIND 255) = k ∧ c.blwQueue.get 2 = []) ∧
    (let c : Chip := { up with blwQueue := SMap.set ([] : SMap (List BlwItem)) 2 (List.replicate 512 {}) };
      512 ≤ (c.blwQueue.get 2).length) ∧
    (let c := marked up { failed := some (Cause.failHead, 256) }; c.mark 2 1023 0 = some { failed := some (Cause.failHead, 256) }) ∧
    (((marked up {}).marksOf 2 1023).any (fun m => (marked up {}).distance 2 1023 m.1 < 256) = true ∧
      (up.marksOf 2 1023).any (fun m => up.distance 2 1023 m.1 < 256) = false ∧ up.marksOf 2 1023 = [] ∧
      (marked up {}).marksOf 2 1023 ≠ []) ∧
    ((stored up aKey {}).tplInUse 2 255 = true ∧ up.tplInUse 2 255 = false) ∧
    (let v : W36 := word (0x80 + 2 * 2 ^ 8 + 2 ^ 16);
      bit v 16 = true ∧ bits v 8 2 = 2 ∧ dieOf (bits v 0 8) = 2 ∧ dieOf (bits (word 0x7F) 0 8) ≠ 2 ∧
      (∀ st ∈ [Obe.run, Obe.halted], ((List.range 64).any (fun n =>
        (up.setCoreState 2 0 st).coreState 2 n == Obe.halted && coreRouter 2 n == bits v 0 8)) = (st == Obe.halted)) ∧
      up.flag 2 (F.BLW_WORKER_EN 63) = false ∧ (withFlds up 2 [(F.BLW_WORKER_EN 63, 1)]).flag 2 (F.BLW_WORKER_EN 63) = true) ∧
    (up.cascaded 2 (fabRam 2 127) = false ∧
      (up.setFrameWord (frameAddr 2 (fabRam 2 127 / 128) (15872 + (fabRam 2 127 - fabRam 2 127 % 2) % 128)) 0 (word (2 ^ 22))).cascaded 2 (fabRam 2 127) = true) ∧
    (let c := fabOn;
      let c1 : Chip := { c with ramWords := c.ramWords.set (ramWordKey 2 (fabRam 2 127) 518) { data := 1, chk := checkBits 1, valid := true } };
      let phase := !c.flag 2 (F.BLW_FABPORT_TX_LAP 127);
      c.fabServed 2 127 = true ∧ up.fabServed 2 127 = false ∧ (c.port (fabRouter 2 127) 1).waiting = [] ∧
      (bit (c1.ramWord 2 (fabRam 2 127) 518).value 0 = phase ∨ bit (c.ramWord 2 (fabRam 2 127) 518).value 0 = phase) ∧
      c.flipArmed 2 1 (fabRam 2 127) = false ∧ (∀ k, k < 6 → (c.ramWord 2 (fabRam 2 127) (512 + k)).syndrome = 0)) ∧
    (let c := fabOn.onMail 2 127 (fun x => { x with failures := [(1, 2)] });
      c.fabRxFree 2 127 = true ∧ (c.mail 2 127).failures = (1, 2) :: []) ∧
    (let c := delivers fabOn (fabRouter 2 127) 1 {};
      c.fabServed 2 127 = true ∧ c.fabRxFree 2 127 = true ∧ (c.mail 2 127).failures = [] ∧
      (c.port (fabRouter 2 127) 1).delivered = {} :: []) := by
  refine ⟨?_, ?_, ?_, ?_, ?_, ?_, ?_, ?_, ?_, ?_, ?_⟩ <;> decide +kernel


/-! ### Witnesses: position timebase, pads, cues -/

/-- Channel 1 of die 3, with its record and fields. -/
def channel (x : ChnCh) (l : List (Fld × Nat) := []) : Chip := (withFlds up 3 l).onChan 3 1 (fun _ => x)

theorem witness_EncoderChannels :
    ((0b1010#4).getLsbD 1 = true ∧ (0b1010#4).getLsbD 0 = false ∧ (inDev .off).chnRuns 3 = false) ∧
    (∀ inv ∈ [0, 1], let c := channel {} [(F.CHN_CH_CFG_EN 1, 1), (F.CHN_CH_CFG_DIR_INV 1, inv)];
      c.chnRuns 3 = true ∧ c.flag 3 (F.CHN_CH_CFG_EN 1) = true ∧ c.flag 3 (F.CHN_CH_STATUS_FAULTED 1) = false ∧
      c.chnFollows 1 = false ∧ c.fld 3 (F.CHN_CH_CFG_DIR_INV 1) = inv ∧ forwardStep (c.chan 3 1).a (c.chan 3 1).b true false ∧
      forwardStep false true (c.chan 3 1).a (c.chan 3 1).b) ∧
    (let c := channel { revRun := 1 } [(F.CHN_CH_CFG_EN 1, 1), (F.CHN_CH_CFG_REV_LIMIT 1, 2), (F.CHN_CH_CFG_AUTO_REV 1, 1)];
      c.fld 3 (F.CHN_CH_CFG_REV_LIMIT 1) ≠ 0 ∧ (c.chan 3 1).revRun + 1 = c.fld 3 (F.CHN_CH_CFG_REV_LIMIT 1)) ∧
    (∀ v ∈ [3, 7], let c := channel { intervals := [5] } [(F.CHN_CH_STATUS_OPEN 1, v), (F.CHN_CH_CFG_ON_FAULT 1, 1)];
      c.chnRuns 3 = true ∧ (c.fld 3 (F.CHN_CH_STATUS_OPEN 1)).testBit 2 = (v == 7) ∧ (c.chan 3 1).intervals ≠ [] ∧
      c.flag 3 (F.CHN_CH_STATUS_FAULTED 1) = false ∧ c.flag 3 (F.CHN_CH_CFG_ON_FAULT 1) = true) ∧
    (∀ b ∈ [0, 1], (channel {} [(F.CHN_CH_STATUS_COASTING 1, b)]).fld 3 (F.CHN_CH_STATUS_COASTING 1) = b) ∧
    (((channel { coast := some 7 }).chan 3 1).coast = some 7 ∧ (up.chan 3 1).coast = none) ∧
    ((withFlds up 0 [(F.KRN_SYS_POS_EN_1, 1)]).chnFollows 1 = true ∧ up.chnFollows 1 = false) := by
  simp only [forwardStep]; decide +kernel

/-- A position frame of die 2, tick 5, both channels VALID, an operation of code 4, with its CRC. -/
def posBody : BitVec 256 := BitVec.ofNat 256 (0xA7 + 2 * 2 ^ 8 + 5 * 2 ^ 11 + 3 * 2 ^ 131 + 4 * 2 ^ 181)
def posFrame0 : BitVec 256 := posBody ||| BitVec.ofNat 256 ((posCrc posBody).toNat * 2 ^ 248)

/-- A die 3 with a frame of each other die for tick 5, all at integer 0, its own at 7. -/
def dissent : Chip :=
  let f (o : Nat) : BitVec 256 := BitVec.ofNat 256 (0xA7 + o * 2 ^ 8 + 5 * 2 ^ 11 + 3 * 2 ^ 131)
  (channel { int := 7, snaps := [(5, 7 * 256, true)] }).onChnDie 3 (fun x => { x with frames := [(0, f 0), (0, f 1), (0, f 2)] })

theorem witness_DeviceTimeAndPosition :
    (let c : Chip := { up with devTime := SMap.set ([] : SMap Nat) 0 (2 ^ 20 + 1) };
      c.chnRuns 0 = true ∧ c.chnAll.master = 0 ∧ pulseTime (c.time 0) = true ∧ c.chnAll.master ≠ 3 ∧ up.time 0 < 2 ^ 20 ∧
      1 < (2 ^ 20 + 2) % 2 ^ 20) ∧
    (let c : Chip := { up with devTime := SMap.set ([] : SMap Nat) 3 1000 };
      c.chnRuns 3 = true ∧ (∀ t ∈ [0, 2000, 2001], -1000 ≤ (1000 : Int) - t ↔ t ≠ 2001) ∧ (c.chnDies.get 3).afterReset = false) ∧
    (up.updates = [] ∧ (∀ x ∈ up.regions, x.2.act = none) ∧ up.regions = []) ∧ up.flag 3 (F.CHN_CH_STATUS_LOADING 1) = false ∧
    (dissent.votes 3 1 5 = [(0, 0), (1, 0), (2, 0), (3, 7)] ∧ (dissent.chan 3 1).corrected = 0 ∧
      median (dissent.votes 3 1 5) = 0 ∧ 1 < (diff48 7 0).natAbs ∧
      (dissent.votes 3 1 5).length < 2 * (dissent.votes 3 1 5).countP (fun v => (diff48 v.2 0).natAbs ≤ 1)) ∧
    (posGood posFrame0 = true ∧ posGood posBody = false ∧ 1 ≤ bits posFrame0 181 3 ∧ bits posFrame0 181 3 ≤ 4 ∧
      posRelay posFrame0 = false ∧ posValid posFrame0 1 = true ∧
      ∀ t ∈ [252, 255, 0], let c : Chip := { up with chnAll := { up.chnAll with tick := t } };
        let ahead := (bits posFrame0 184 8 + 256 - c.chnAll.tick % 256) % 256
        (1 ≤ ahead ∧ ahead ≤ 4 ↔ t ≠ 0)) ∧
    (let c := channel {} [(F.CHN_CH_STATUS_LOADING 1, 1)];
      (c.chnDies.get 3).frames = [] ∧ c.flag 3 (F.CHN_CH_STATUS_LOADING 1) = true ∧ (c.chan 3 1).adopted = none ∧
      (c.chan 3 1).heard = false ∧ ((channel { heard := true }).chan 3 1).heard = true) ∧
    (up.chnRuns 0 = true ∧ up.flag 0 (F.CHN_CH_STATUS_PENDING 1) = false ∧
      (withFlds up 0 [(F.CHN_CH_STATUS_PENDING 1, 1)]).flag 0 (F.CHN_CH_STATUS_PENDING 1) = true) := by
  refine ⟨?_, ?_, ?_, ?_, ?_, ?_, ?_, ?_⟩ <;> decide +kernel

/-- Bank 1 of die 3 fed: region 15 ACTIVE, synthesiser 7 locked at 1,250 MHz from the system clock. -/
def fed (l : List (Fld × Nat) := []) : Chip :=
  withFlds (withFlds (up.setRegion 3 15 Rgn.active) 0 [(F.CFG_STATUS_STAGE, 3)]) 3 ([(F.PWR_RAIL_VCCIO_OK, 3),
    (F.CKM_SYN_CFG_MULT 7, 25), (F.CKM_SYN_CFG_PDIV 7, 1), (F.CKM_SYN_CFG_ODIV 7, 4), (F.UIO_BANK_CFG_SYNTH 1, 7), (F.CKM_SYN_CFG_EN 7, 1), (F.CKM_SYN_STATUS_LOCK 7, 1),
    (F.CHN_CUE_CFG_EN 47, 1), (F.CHN_CUE_CFG_CHANNEL 47, 1), (F.CHN_CH_CFG_EN 1, 1), (F.CHN_TIME_STATUS_TIME_OK, 1)] ++ l)

/-- Serialiser 47 of die 3 with a record. -/
def cued (x : Cue) (l : List (Fld × Nat) := []) : Chip := (fed l).onCue 3 47 (fun _ => x)

/-- The words of a cue whose due position is 5, for the pattern at 0. -/
def dueAt5 : W36 × W36 := (0, word (5 * 2 ^ 12))

/-- Channel 1 of die 3 at integer 0, fraction 5. -/
def reached (c : Chip) : Chip := c.onChan 3 1 (fun x => { x with frac := 5 })

theorem witness_PadsCuesAndPatterns :
    ((fed).runs 3 = true ∧ (fed).bankFed 3 (47 / 24) = true ∧ up.bankFed 3 1 = false ∧ up.flag 3 (F.CHN_CUE_CFG_EN 47) = false) ∧
    (((cued { skipOne := true }).cue 3 47).skipOne = true ∧ ((cued { skipOne := true }).cue 3 47).fifo.length < 64) ∧
    (∀ n ∈ [63, 64], ((cued { fifo := List.replicate n (0, 0) }).cue 3 47).fifo.length = n) ∧
    ((cued { half := some 9 }).cue 3 47).half = some 9 ∧
    (let c := reached (cued { half := some 0 }); let y : Cue := { fifo := [dueAt5] };
      (c.cue 3 47).fifo = [] ∧ (c.cue 3 47).sending = none ∧ (c.cue 3 47).lateLogged = false ∧ c.cueCompares 3 47 = true ∧
      y.due = some 5 ∧ atOrBeyond (c.chnPos 3 (c.fld 3 (F.CHN_CUE_CFG_CHANNEL 47))) 5 = true ∧
      c.flag 3 (F.CHN_CUE_CFG_LATE_POLICY 47) = false ∧ c.patWord 3 (47 / 24) 0 = (0, false)) ∧
    ((fed).flipArmed 3 5 1 = false ∧ (∀ p, p < 24 → ((fed).cue 3 (24 * 1 + p)).sending = none)) ∧
    (let c := reached (cued { fifo := [dueAt5] });
      (c.cue 3 47).due = some 5 ∧ (c.cue 3 47).sending = none ∧ c.cueCompares 3 47 = true ∧
      atOrBeyond (c.chnPos 3 (c.fld 3 (F.CHN_CUE_CFG_CHANNEL 47))) 5 = true ∧ c.patWord 3 1 0 = (0, false)) ∧
    (let c0 := cued { fifo := [dueAt5] };
      let c : Chip := { c0 with patWords := c0.patWords.set (patKey 3 1 0) { data := 1, chk := 0, valid := true } };
      c.patWord 3 1 0 = (1, true) ∧ (c.patMems.get (2 * 3 + 1)).lastFail ≠ some 0 ∧ (c.cue 3 47).popHead.due = none) ∧
    ((up.cue 3 47).sending = none ∧ ((cued { sending := some {} } [(F.CHN_CUE_CFG_EN 47, 0)]).cue 3 47).sending ≠ none ∧
      (cued { sending := some {} } [(F.CHN_CUE_CFG_EN 47, 0)]).cueCompares 3 47 = false) ∧
    (let c := cued { fifo := [dueAt5] } [(F.CHN_CUE_CFG_WAKE_EN 47, 1), (F.CHN_CUE_CFG_LEAD 47, 1), (F.CHN_CUE_CFG_WAKE_DOM 47, 63)];
      c.flag 3 (F.CHN_CUE_CFG_WAKE_EN 47) = true ∧ (c.cue 3 47).woken = false ∧ c.cueCompares 3 47 = true ∧
      atOrBeyond (c.chnPos 3 1) ((5 + 2 ^ 56 - c.fld 3 (F.CHN_CUE_CFG_LEAD 47) * 256) % 2 ^ 56) = true ∧
      47 ≤ c.fld 3 (F.CHN_CUE_CFG_WAKE_DOM 47)) ∧
    (let c := fed.onBank 3 1 (fun x => { x with latched := true });
      (c.bank 3 1).latched = true ∧ c.domState 3 (Dom.bank 1) = 0 ∧ c.domPhase 3 (Dom.bank 1) ≠ 2 ∧
      c.asleep 3 (Dom.bank 1) = false ∧ c.domState 3 (bankRegion 3 1) = 0 ∧ c.domPhase 3 (bankRegion 3 1) ≠ 2 ∧
      c.asleep 3 (bankRegion 3 1) = false ∧ c.flag 3 (F.CKM_SYN_STATUS_LOCK (c.fld 3 (F.UIO_BANK_CFG_SYNTH 1))) = true ∧
      (withFlds c 3 [(F.CKM_SYN_STATUS_LOCK 7, 0)]).flag 3 (F.CKM_SYN_STATUS_LOCK 7) = false ∧ (up.bank 3 1).latched = false) ∧
    (let h := header 0x280 1 3; Accepts (cmdAt up 1 h [1]) 1 0x280 h [1] ∧ cmdDie h = 3 ∧ bits ([(1 : W36)].headD 0) 0 1 = 1) ∧
    (let c := fed [(F.UIO_PAIR_HM_EN 47, 1), (F.UIO_BANK_CFG_SHORT_LIMIT 1, 1), (F.UIO_PAIR_FUNC_N 47, 2)];
      c.flag 3 (F.UIO_PAIR_HM_EN (pinPair 1 47)) = true ∧ c.fld 3 (F.UIO_BANK_CFG_SHORT_LIMIT 1) ≠ 0 ∧
      c.shorted 3 1 47 = false ∧ (c.pinOut 3 1 47).1 = true) ∧
    ((cued { lastSlip := some 0, slipEdges := 4 }).cue 3 47).slipEdges = 4 ∧
    (let c := fed [(F.UIO_PAIR_FUNC_P 47, 1), (F.UIO_PAIR_FUNC_N 47, 1)];
      c.pinFunc 3 1 46 ≠ 0 ∧ c.pinFunc 3 1 47 ≠ 0) ∧
    (let c := cued { lastSlip := some 0 };
      c.pinMode 3 (47 / 24) 46 = .user ∧ c.pinFunc 3 (47 / 24) 46 = 0 ∧
      4000000000 < (({ c with now := 2 ^ 62 } : Chip).now - 0) * c.wordHz 3 (47 / 24) ∧ (c.now - 0) * c.wordHz 3 (47 / 24) ≤ 4000000000 ∧ c.wordHz 3 1 = 1250000000) := by
  refine ⟨?_, ?_, ?_, ?_, ?_, ?_, ?_, ?_, ?_, ?_, ?_, ?_, ?_, ?_⟩ <;> (try simp only [Accepts]) <;> decide +kernel


/-! ### Witnesses: transceivers, Ethernet, Karn links -/

/-- Quad 7 of die 1: a group of four lanes, enabled, PLL locked, in a state; fields set. -/
def grouped (v : Nat) (l : List (Fld × Nat) := []) (wait : Bool := false) : Chip :=
  let lanes := [0, 1, 2, 3].flatMap (fun x => [(F.XCV_LANE_CFG_EN 7 x, 1), (F.XCV_LANE_STATUS_STATE 7 x, v), (F.XCV_LANE_PROBE_POS 7 x, 0)])
  let c := withFlds up 1 ([(F.XCV_QUAD_CFG_GROUP 7, 2), (F.XCV_QUAD_STATUS_PLL_LOCK 7, 1), (F.PWR_RAIL_VTT_XCV_OK, 1)] ++ lanes ++ l)
  c.onLane 1 7 3 (fun x => { x with retryWait := wait })

theorem witness_LaneGroups :
    (let c := withFlds up 1 [(F.XCV_QUAD_CFG_PLL_EN 7, 1), (F.XCV_QUAD_CFG_NX2 7, 90)];
      c.runs 1 = true ∧ c.flag 1 (F.XCV_QUAD_CFG_PLL_EN 7) = true ∧ 14000000000 ≤ 312500000 * c.fld 1 (F.XCV_QUAD_CFG_NX2 7) ∧
      312500000 * c.fld 1 (F.XCV_QUAD_CFG_NX2 7) ≤ 28125000000 ∧ up.flag 1 (F.XCV_QUAD_CFG_PLL_EN 7) = false) ∧
    ((grouped 1).flag 1 (F.XCV_QUAD_STATUS_PLL_LOCK 7) = true ∧ (grouped 1).groupOf 1 7 3 = [0, 1, 2, 3]) ∧
    (∀ v ∈ [1, 2, 3, 4, 5], groupUp (grouped v) 1 7 3 ∧ (grouped v).laneState 1 7 3 = v ∧
      ((grouped v).lane 1 7 3).retryWait = false ∧ (grouped v).keyMissing 1 7 = false) ∧
    ((grouped 1 [] true).lane 1 7 3).retryWait = true ∧
    (∀ kind ∈ [0, 1], (grouped 2 [(F.XCV_LANE_CFG_TRAIN_KIND 7 3, kind)]).fld 1 (F.XCV_LANE_CFG_TRAIN_KIND 7 3) = kind) ∧
    (let lanes := [0, 1, 2, 3]; let straight (o : Nat) : Bool := lanes.all (fun x => bits (BitVec.ofNat 8 o) (2 * x) 2 == x % 4);
      let turned (o : Nat) : Bool := lanes.all (fun x => bits (BitVec.ofNat 8 o) (2 * x) 2 == 4 - 1 - x % 4);
      straight 0xE4 = true ∧ turned 0x1B = true ∧ straight 0 = false ∧ turned 0 = false) ∧
    (∀ x ∈ (grouped 3).groupOf 1 7 3, ((grouped 3).probe 1 7 x 0 0).1 = true) ∧
    (let c := grouped 3 [(F.XCV_LANE_PROBE_POS 7 0, 1)]; 0 ∈ c.groupOf 1 7 3 ∧ (c.probe 1 7 0 47 47).1 = false) ∧
    (let c := grouped 4 [(F.XCV_QUAD_CFG_KARN 7, 1)];
      c.cfg.mode ≠ 5 ∧ c.laneState 1 7 3 = 4 ∧ (c.lane 1 7 3).retryWait = false ∧ c.flag 1 (F.XCV_QUAD_CFG_KARN 7) = true ∧
      c.flag 1 (F.KRN_LINK_CFG_ENC 3) = false ∧ (1 : Nat) ≠ c.ownDevice ∧ (grouped 4).flag 1 (F.XCV_QUAD_CFG_KARN 7) = false) ∧
    (∀ b ∈ [0, 1], (grouped 5 [(F.XCV_LANE_CFG_ALIGN 7 3, b)]).fld 1 (F.XCV_LANE_CFG_ALIGN 7 3) = b) := by
  refine ⟨?_, ?_, ?_, ?_, ?_, ?_, ?_, ?_, ?_, ?_⟩ <;> (try simp only [groupUp]) <;> decide +kernel

/-- A client word that starts a frame. -/
def startWord (req : Nat) : ClientWord :=
  { data := 0, sop := true, eop := false, empty := 0, err := false, tsReq := BitVec.ofNat 2 req, tsOff := 0, tsTag := 0 }

/-- MAC 1 of die 2 in a mode, fed, its sub-ports LINK, with the transmit queue of sub-port 3. -/
def macOn (q : List ClientWord) (l : List (Fld × Nat) := []) : Chip :=
  let c := withFlds (up.setRegion 2 (quadRegion 2 4) Rgn.active) 2
    ([(F.ETH_CFG_MODE 1, 2), (F.CKM_SYN_CFG_EN 0, 1), (F.CKM_SYN_STATUS_LOCK 0, 1), (F.ETH_STATUS_LINK 1, 15), (F.ETH_CFG_MAXLEN 1, 1518), (F.ETH_CFG_PAUSE_EN 1, 1), (F.ETH_CFG_START_THR 1, 1)] ++ l)
  c.onSub 2 1 3 (fun x => { x with txq := q })

/-- A PAUSE frame before its FCS, 60 octets, and with its FCS. -/
def pauseBody : List (BitVec 8) :=
  [0x01, 0x80, 0xC2, 0x00, 0x00, 0x01, 1, 2, 3, 4, 5, 6, 0x88, 0x08, 0x00, 0x01, 0x00, 0x07] ++ List.replicate 42 0
def withFcs (b : List (BitVec 8)) : List (BitVec 8) := b ++ fcsOctets (crc32 b)

theorem withFcs_good (b : List (BitVec 8)) :
    fcsOctets (crc32 ((withFcs b).take ((withFcs b).length - 4))) = (withFcs b).drop ((withFcs b).length - 4) := by
  have h : (withFcs b).length - 4 = b.length := by simp [withFcs, fcsOctets]
  rw [h, withFcs, List.take_left, List.drop_left]

theorem witness_LaneWordsAndFrames :
    (let c := withFlds ((grouped 5).setRegion 1 3 Rgn.active) 1 [(F.CKM_SYN_CFG_EN 0, 1), (F.CKM_SYN_STATUS_LOCK 0, 1)];
      c.runs 1 = true ∧ c.quadFed 1 7 = true ∧ c.laneState 1 7 3 = 5 ∧ (c.lane 1 7 3).txFifo.length < 16 ∧
      (grouped 5).quadFed 1 7 = false) ∧
    (let c := grouped 5;
      c.laneState 1 7 3 = 5 ∧ c.ethMode 1 7 = 0 ∧ c.flag 1 (F.XCV_QUAD_CFG_KARN 7) = false ∧ c.fld 1 (F.XCV_LANE_CFG_PRBS 7 3) = 0 ∧
      (c.lane 1 7 3).errs = [] ∧ (c.decoded 1 7 3 (c.framed 1 7 3 0)).2.1 < 8 ∧ (c.lane 1 7 3).shown = none ∧
      (c.lane 1 7 3).rxFifo = []) ∧
    (up.macFed 2 1 = false ∧ (macOn []).macFed 2 1 = true ∧ (macOn []).ethPort 2 1 3 = 3) ∧
    (∀ n ∈ [252, 253], ((macOn (List.replicate n (startWord 0))).sub 2 1 3).txq.length = n ∧ (macOn []).ethDepth 2 1 = 256) ∧
    (∀ r ∈ [1, 2], let v := startWord r; let c := macOn [v];
      (c.sub 2 1 3).cur = none ∧ (c.sub 2 1 3).txq = v :: [] ∧ v.sop = true ∧ asksTime v = true ∧ c.mayStart 2 1 3 = true ∧
      v.eop = false) ∧
    (up.fld 2 (F.ETH_STATUS_LINK 1)).testBit 3 = false ∧
    (let c := macOn [];
      (c.fld 2 (F.ETH_STATUS_LINK 1)).testBit 3 = true ∧ c.flag 2 (F.ETH_CFG_PAUSE_EN 1) = true ∧
      (c.fld 2 (F.ETH_CFG_FEC 1)).testBit 3 = false ∧ c.fld 2 (F.ETH_CFG_MAXLEN 1) = 1518) ∧
    ((withFcs pauseBody).length = 64 ∧ pauseQuanta (withFcs pauseBody) = some 7 ∧ pauseQuanta (withFcs (List.replicate 60 0)) = none) := by
  refine ⟨?_, ?_, ?_, ?_, ?_, ?_, ?_, ?_⟩ <;> decide +kernel

/-- Link 3 of die 1, ACTIVE, with its record. -/
def linked (x : KarnLink) (l : List (Fld × Nat) := []) : Chip :=
  (withFlds up 1 ([(F.KRN_LINK_STATUS_STATE 3, 5)] ++ l)).onKarn 1 3 (fun _ => x)

/-- A frame with its CRC: VALID, CREDIT, FSEQ, and the blocks of its slots; its tag. -/
def karnFrameOf (valid credit fseq : Nat) (slots : List (BitVec 256)) (tag : BitVec 128) : KarnFrame :=
  let low := valid + credit * 2 ^ 4 + fseq * 2 ^ 16
  { ctrl := karnCrc low slots ++ BitVec.ofNat 32 low, slots := slots, tag := tag }

/-- The tag that opens a frame rests on Config.gcmUnseal, whose value nothing fixes; the frame that carries that tag opens. -/
theorem witness_openFrame (key : KarnKey) (n : Nat) (f : KarnFrame) :
    let r := Config.gcmUnseal key.key (karnIv key n) (lowOctets 4 (bits f.ctrl 0 32)) f.slots
    openFrame (some key) n { f with tag := r.2 } = some r.1 ∧ openFrame none n f = none := by
  simp only [openFrame, if_true, and_self]

theorem karnFrameOf_low (valid credit fseq : Nat) (slots : List (BitVec 256)) (tag : BitVec 128) (lo n : Nat) (h : lo + n ≤ 32) :
    bits (karnFrameOf valid credit fseq slots tag).ctrl lo n = bits (BitVec.ofNat 32 (valid + credit * 2 ^ 4 + fseq * 2 ^ 16)) lo n :=
  bits_append_low _ _ lo n h

theorem karnFrameOf_crc (valid credit fseq : Nat) (slots : List (BitVec 256)) (tag : BitVec 128)
    (h : valid + credit * 2 ^ 4 + fseq * 2 ^ 16 < 2 ^ 32) : let f := karnFrameOf valid credit fseq slots tag
    karnCrc (bits f.ctrl 0 32) f.slots = BitVec.ofNat 32 (bits f.ctrl 32 32) := by
  intro f
  have low : bits f.ctrl 0 32 = valid + credit * 2 ^ 4 + fseq * 2 ^ 16 := by
    rw [karnFrameOf_low valid credit fseq slots tag 0 32 (by decide), bits, BitVec.toNat_ofNat, Nat.shiftRight_zero,
      Nat.mod_mod, Nat.mod_eq_of_lt h]
  have high : bits f.ctrl 32 32 = (karnCrc (valid + credit * 2 ^ 4 + fseq * 2 ^ 16) slots).toNat := bits_append_high _ _
  rw [low, high, BitVec.ofNat_toNat, BitVec.setWidth_eq]
  rfl

/-- A frame of one slot with FSEQ 9: its fields and its CRC. -/
theorem goodKarnFrame : let f := karnFrameOf 1 3 9 [0] 0
    karnCrc (bits f.ctrl 0 32) f.slots = BitVec.ofNat 32 (bits f.ctrl 32 32) ∧ validCount (KarnCtl.valid f.ctrl) = f.slots.length ∧
    KarnCtl.fseq f.ctrl = 9 ∧ f.slots ≠ [] := by
  refine ⟨karnFrameOf_crc 1 3 9 [0] 0 (by decide), ?_, ?_, List.cons_ne_nil _ _⟩
  · rw [KarnCtl.valid, karnFrameOf_low 1 3 9 [0] 0 0 4 (by decide)]; rfl
  · rw [KarnCtl.fseq, karnFrameOf_low 1 3 9 [0] 0 16 15 (by decide)]; rfl

/-- A flit buffered at link 3 of die 1, the KRN port at an authority. -/
def ingress (auth : Nat) (fl : Flight) : Chip := { linked { rxBuf := [fl] } with sec := { auth := auth * 4 ^ Port.krn } }

theorem witness_KarnFramesAndIngress :
    (let c := linked { lastSeq := some 8 };
      c.runs 1 = true ∧ c.linkUp 1 3 = true ∧ up.linkUp 1 3 = false ∧ (c.link 1 3).lastSeq = some 8 ∧
      (9 + 2 ^ 15 - 8) % 2 ^ 15 = 1 ∧ (8 + 2 ^ 15 - 8) % 2 ^ 15 ≠ 1 ∧ c.flag 1 (F.KRN_LINK_CFG_ENC 3) = false) ∧
    (let f : KarnFrame := { ctrl := 1, slots := [], tag := 0 }; validCount (KarnCtl.valid f.ctrl) ≠ f.slots.length) ∧
    (let c := linked { lastSeq := some 8, active := some {} } [(F.KRN_LINK_CFG_ENC 3, 1)];
      c.flag 1 (F.KRN_LINK_CFG_ENC 3) = true ∧ (c.link 1 3).tagFails.length < 7) ∧
    (up.link 1 3).rxBuf = [] ∧
    (∀ auth ∈ [0, 1, 3], let fl : Flight := { flit := flit Typ.event 0x23 2 };
      let u := (ingress auth fl).takeTurn (karnRouter 7) 3;
      ((ingress auth fl).link 1 3).rxBuf = fl :: [] ∧ u.portAuth Port.krn = auth ∧ fl.flit.typ ≠ Typ.cmd ∧
      isAnswer fl.flit.typ = false ∧ fl.flit.typ ≠ Typ.readResp) ∧
    (let f := flit Typ.cmd 0x23 2 (word (0x380 * 2 ^ 26)); f.typ = Typ.cmd ∧ f.last = true ∧ loadMessage f.w2 = true) ∧
    isAnswer (flit Typ.notReady 0x23 2).typ = true ∧
    (∀ busy ∈ [[], [2]], let router := karnRouter 7;
      let f : Flit := Flit.seal { w0 := head0 0 0x23 2 Typ.event 0, w1 := head1 0 (router + 32) 2 0 true false };
      let u := ((ingress 1 { flit := f }).takeTurn router 3).onUse router (fun x => { x with ports := busy, turns := [] });
      let refusal : Flit := Flit.seal {
        w0 := head0 f.srcDev f.srcRouter f.srcPort Typ.unreachable f.flow, w1 := head1 u.ownDevice router 3 0 true false
        w2 := f.w0, w3 := f.w1, w4 := word 2 };
      refusal.dstDev = u.ownDevice ∧ refusal.dstRouter ≠ router ∧ u.route router refusal = .dir 2 ∧ bundleAt router 2 = none ∧
      neighbour router 2 = some (router + 16) ∧ u.portFree router 2 = (busy == [])) ∧
    (let router := karnRouter 7; let fl : Flight := { flit := flit Typ.event (router + 32) 2 };
      let u := (ingress 3 fl).takeTurn router 3;
      fl.flit.syndrome 0 = 0 ∧ fl.flit.syndrome 1 = 0 ∧ fl.flit.typ ≠ 15 ∧ u.route router fl.flit = .dir 2 ∧
      bundleAt router 2 = none ∧ neighbour router 2 = some (router + 16) ∧ u.portFree router 2 = true ∧
      (u.onUse router (fun x => { x with ports := [2] })).portFree router 2 = false) ∧
    (let router := karnRouter 7; let fl : Flight := { flit := flit Typ.writeAck router 2 };
      let u := (ingress 3 fl).takeTurn router 3;
      u.route router fl.flit = .eject ∧ (u.useOf router).locals.contains fl.flit.dstPort = false ∧
      ((u.onUse router (fun x => { x with locals := [2] })).useOf router).locals.contains fl.flit.dstPort = true ∧
      (u.eject router fl.flit).2 = .gone) := by
  refine ⟨?_, ?_, ?_, ?_, ?_, ?_, ?_, ?_, ?_, ?_⟩ <;> decide +kernel

theorem witness_KarnKeysAndMessages :
    (∀ p ∈ [none, some ({ id := 5 } : KarnKey)], let c := linked { pending := p }; let v := c.reg 1 (Reg.KRN_LINK_CFG 3);
      c.runs 1 = true ∧ bits v 0 2 = bits (c.reg 1 (Reg.KRN_LINK_CFG 3)) 0 2 ∧ (c.link 1 3).pending = p) ∧
    (let h := header 0x386 10 2; let ws := List.replicate 10 (7 : W36);
      Accepts (cmdAt up 1 h ws) 1 0x386 h ws ∧ (cmdAt up 1 h ws).dieInReset (cmdDie h) = false ∧
      (cmdAt up 1 h ws).flag (cmdDie h) (F.XCV_QUAD_CFG_KARN (2 * bits (ws.headD 0) 0 2 + 1)) = false) ∧
    ((∀ l, l < 16 → up.karnActive l = false) ∧ (linked {}).karnActive 7 = true) ∧
    (let c : Chip := { linked {} with cfg := { dev := .releasing } };
      c.linkUp 1 3 = true ∧ c.ownDevice = 0 ∧ c.dev = .releasing ∧ (linked {}).dev = .user ∧ c.fld 0 F.KRN_SYS_EXPECT = 1) ∧
    (let c : Chip := { linked {} with cfg := { dev := .loading }, loads := [(4, some { src := .karn 7 1, count := 5 })] };
      c.linkUp 1 3 = true ∧ c.dev ≠ .releasing ∧ c.dev ≠ .user ∧ c.cfg.probe = none ∧
      (∃ l, c.loads.get 4 = some l ∧ l.src = .karn (4 * 1 + 3) 1 ∧ l.queue = [] ∧ l.count = (5 : BitVec 28).toNat)) ∧
    (let c : Chip := { withFlds up 0 [(F.KRN_LINK_STATUS_STATE 0, 5)] with cfg := { dev := .blank, probe := some [] } };
      c.linkUp 0 0 = true ∧ c.cfg.probe = some [] ∧ c.dev = .blank) ∧
    (let c := withFlds (linked {}) 0 [(F.KRN_SYS_TIME_EN, 1), (F.KRN_SYS_TIME_LINK, 7), (F.KRN_SYS_POS_LINK, 7), (F.KRN_SYS_POS_EN_1, 1)];
      c.linkUp 1 3 = true ∧ c.flag 0 F.KRN_SYS_TIME_EN = true ∧ c.fld 0 F.KRN_SYS_TIME_LINK = 4 * 1 + 3 ∧ c.chnAll.master < 4 ∧
      c.fld 0 F.KRN_SYS_POS_LINK = 4 * 1 + 3 ∧ c.chnFollows 1 = true ∧ up.flag 0 F.KRN_SYS_TIME_EN = false) := by
  refine ⟨by decide +kernel, by simp only [Accepts]; decide +kernel, by decide +kernel, by decide +kernel, ?_, by decide +kernel,
    by decide +kernel⟩
  exact ⟨by decide +kernel, by decide +kernel, by decide +kernel, by decide +kernel, _, rfl, rfl, rfl, rfl⟩


/-! ### Witnesses: DRAM channels, the integrity engine -/

/-- Channel 1 of die 2: enabled, four ranks of which two are logical, 16 row bits, a spare, its record. -/
def ddr (x : DdrChan) (l : List (Fld × Nat) := []) : Chip :=
  let c := withFlds up 2 ([(F.DDR_CFG_EN 1, 1), (F.DDR_CFG_RANKS_M1 1, 3), (F.DDR_CFG_LRANKS_M1 1, 1), (F.DDR_GEOM_ROWBITS 1, 16),
    (F.DDR_CFG_SPARE_EN 1, 1), (F.DDR_CFG_SPARE_RANK 1, 3), (F.DDR_RANK_MAP_SPARE_FREE 1, 1), (F.DDR_STATUS_STATE 1, 3)] ++ l)
  { c with ddr := c.ddr.set 5 x }

theorem witness_DdrBringUp :
    up.runs 2 = true ∧ up.flag 2 (F.DDR_CFG_EN 1) = false ∧
    (∀ n ∈ [1, 2, 3, 4], let c := ddr { step := n, rank := 1 };
      c.flag 2 (F.DDR_CFG_EN 1) = true ∧ (c.ddrChan 2 1).step = n ∧ c.nextRank 2 1 0 = some 0 ∧ c.nextRank 2 1 (1 + 1) = some 2 ∧
      c.nextRank 2 1 (3 + 1) = none ∧ c.logicalOf 2 1 1 = some 1 ∧ c.logicalOf 2 1 3 = none ∧
      c.flag 2 (F.DDR_RANK_MAP_SPARE_FREE 1) = true ∧ c.flag 2 (F.DDR_CFG_SPARE_EN 1) = true ∧ c.fld 2 (F.DDR_CFG_SPARE_RANK 1) = 3) ∧
    (let c := ddr { step := 4, rank := 1 } [(F.DDR_RANK_MAP_SPARE_FREE 1, 0)];
      (c.ddrChan 2 1).step = 4 ∧ (c.ddrChan 2 1).rank = 1 ∧ c.logicalOf 2 1 1 = some 1 ∧ c.flag 2 (F.DDR_RANK_MAP_SPARE_FREE 1) = false) ∧
    (∀ m ∈ [0, 2], ∀ b ∈ [true, false], let c := ddr { step := 4, rank := 3, selfRefreshed := b } [(F.MIE_CH_CFG_MODE 1, m)];
      (c.ddrChan 2 1).selfRefreshed = b ∧ c.mieMode 2 1 = m) ∧
    (∀ v ∈ [3, 5], let c := ddr { spareSet := true } [(F.DDR_STATUS_STATE 1, v)]; let w := c.reg 2 (Reg.DDR_CFG 1);
      c.runs 2 = true ∧ bit w 0 = true ∧ bits w 1 18 = bits (c.reg 2 (Reg.DDR_CFG 1)) 1 18 ∧
      c.fld 2 (F.DDR_STATUS_STATE 1) = v ∧ (c.ddrChan 2 1).spareSet = true) := by
  refine ⟨?_, ?_, ?_, ?_, ?_, ?_⟩ <;> decide +kernel

/-- A request of the channel: first word, words, type. -/
def ddrReq (off count typ : Nat) : Flit :=
  { w0 := head0 0 (ddrHome 2 1) 3 typ 0, w1 := head1 0 9 0 0 true false, w2 := word off, w3 := word (count - 1) }

/-- The channel with a request at its port. -/
def asked (x : DdrChan) (f : Flit) (l : List (Fld × Nat) := []) : Chip := delivers (ddr x l) (ddrHome 2 1) 3 f

/-- A write and a read of line 4, and every word of it. -/
def writeOf (ws : List (Nat × W36)) : LineAccess := { line := 4, write := true, words := ws, order := 7 }
def readOf : LineAccess := { line := 4, req := 2, order := 7 }
def allWords : List (Nat × W36) := (List.range 16).map (fun t => (t, word (t + 100)))

/-- A line stored with good check bits, for a mode, over a MAC. -/
def goodLine (mode mac : Nat) (data : BitVec 576) : DramLine :=
  { data := data, chk := withCrc mode data (BitVec.ofNat 64 (mac * 2 ^ 16)) false }

theorem goodLine_passes (mode mac : Nat) (data : BitVec 576) : lineVerdict mode (goodLine mode mac data) = .pass := by
  refine if_pos ?_
  by_cases h : mode = 1
  · simp only [goodLine, withCrc, h, if_true]
    refine BitVec.eq_of_getLsbD_eq (fun i hi => ?_)
    simp only [getLsbD_putBits _ _ _ _ _ hi]
    split <;> rfl
  · simp only [goodLine, withCrc, if_neg h]

/-- Its MAC field holds what was stored there. -/
theorem goodLine_mac (mac : Nat) (data : BitVec 576) (h : mac < 2 ^ 48) : bits (goodLine 1 mac data).chk 16 48 = mac := by
  simp only [goodLine, withCrc, if_true]
  rw [bits_putBits_other _ _ _ _ _ _ (by decide), bits, BitVec.toNat_ofNat, Nat.mod_eq_of_lt (by omega : mac * 2 ^ 16 < 2 ^ 64),
    Nat.shiftRight_eq_div_pow, Nat.mul_div_cancel _ (by decide), Nat.mod_eq_of_lt h]

/-- The channel with a line at a key. -/
def dramAt (x : DdrChan) (key : Nat) (y : DramLine) (l : List (Fld × Nat) := []) : Chip :=
  { ddr x l with dram := SMap.set ([] : SMap DramLine) key y }

theorem dramAt_get (x : DdrChan) (key : Nat) (y : DramLine) (l : List (Fld × Nat)) : (dramAt x key y l).dram.get key = y :=
  SMap.get_set_same _ _ _

theorem witness_DdrRequests :
    (∀ typ ∈ [Typ.readReq, Typ.writeReq], let c := asked {} (ddrReq 15 2 typ); let f := ddrReq 15 2 typ;
      c.runs 2 = true ∧ (c.port (ddrHome 2 1) 3).delivered = f :: [] ∧ f.typ = typ ∧ bits f.w3 0 6 < 2 ∧
      linesOf f.w2.toNat (bits f.w3 0 6 + 1) = [0, 1] ∧ (c.ddrChan 2 1).room true [0, 1] = true ∧
      (c.ddrChan 2 1).room false [0, 1] = true ∧ c.beyond 2 1 [0, 1] = none ∧ c.flag 2 (F.DDR_STATUS_READ_ONLY 1) = false ∧
      (c.ddrChan 2 1).taking = []) ∧
    ((asked {} (ddrReq 15 2 Typ.writeReq) [(F.DDR_STATUS_READ_ONLY 1, 1)]).flag 2 (F.DDR_STATUS_READ_ONLY 1) = true) ∧
    (let f := ddrReq (16 * (ddr {}).lineCount 2 1) 2 Typ.readReq; let c := asked {} f;
      let lines := linesOf f.w2.toNat (bits f.w3 0 6 + 1);
      f.typ = Typ.readReq ∧ (c.ddrChan 2 1).room false lines = true ∧ c.beyond 2 1 lines = some (c.lineCount 2 1)) ∧
    (let x : DdrChan := { queue := List.replicate 64 (writeOf []) ++ List.replicate 64 readOf };
      x.room true [0, 1] = false ∧ x.room false [0, 1] = false) ∧
    (up.fld 2 (F.DDR_STATUS_STATE 1) ≠ 3 ∧ (ddr {}).chooseAccess 2 1 0 = none) ∧
    (∀ a ∈ [writeOf allWords, writeOf [(3, 77)], readOf],
      let j : ReadJob := { id := 2, flit := ddrReq 64 32 Typ.readReq, left := 2 };
      let c := ddr { queue := [a], order := 8, jobs := [j] };
      c.fld 2 (F.DDR_STATUS_STATE 1) = 3 ∧ c.chooseAccess 2 1 0 = some a ∧ (c.ddrChan 2 1).cache = [] ∧ c.mieMode 2 1 = 0 ∧
      c.flag 2 (F.DDR_STATUS_MIGRATING 1) = false ∧ c.flag 2 F.MIE_FLIP_SEL_ARM = false ∧
      (c.ddrChan 2 1).jobs.find? (fun j => j.id = a.req) =
        (if a.req = 2 then some j else none) ∧ 1 < j.left) ∧
    (∀ x key l, lineVerdict 0 ((dramAt x key (goodLine 0 0 5) l).dram.get key) = .pass) ∧
    ((∀ t, t < 16 → ∃ e ∈ allWords, e.1 = t) ∧ (∃ t, t < 16 ∧ ∀ e ∈ [(3, (77 : W36))], e.1 ≠ t)) := by
  refine ⟨?_, ?_, ?_, ?_, ?_, ?_, fun x key l => (congrArg _ (dramAt_get x key _ l)).trans (goodLine_passes 0 0 5), ?_⟩ <;>
    decide +kernel

/-- Three queued accesses: two of rank 0 and side 0, one of side 1. -/
def threeQueued : List LineAccess :=
  [{ line := 4, write := true, order := 1 }, { line := 4, order := 2, req := 9 }, { line := 1, order := 3 }]

theorem witness_DdrErrorsAndMigration :
    (∀ auto ∈ [0, 1], let c := ddr { queue := threeQueued, order := 4 } [(F.DDR_RAS_CFG_RETIRE_AUTO 1, auto)];
      ∃ a, c.chooseAccess 2 1 0 = some a ∧ a.order = 1 ∧ c.fld 2 (F.DDR_RAS_CFG_CA_RETRY 1) < 9 ∧
      c.fld 2 (F.DDR_RAS_CFG_RETIRE_AUTO 1) = auto ∧ c.flag 2 (F.DDR_STATUS_MIGRATING 1) = false ∧
      (c.ddrChan 2 1).errq.length < 64 ∧ c.physRank 2 1 (c.place 2 1 a.line).rank = 0 ∧ c.logicalOf 2 1 0 = some 0 ∧
      c.flag 2 (F.DDR_RANK_MAP_SPARE_FREE 1) = true ∧ ((c.ddrChan 2 1).queue.map (·.order)).Nodup) ∧
    (0 ≤ (ddr {}).fld 2 (F.DDR_RAS_CFG_CA_RETRY 1) ∧ (ddr {}).chooseAccess 2 1 1 = none) ∧
    (∀ r ∈ [1, 2], bits (word r) 0 2 = r ∧ (ddr {}).lranks 2 1 = 2) ∧
    (∀ n ∈ [0, 2], let c := ddr { noSpare := n } [(F.DDR_RANK_MAP_SPARE_FREE 1, 0)];
      c.physRank 2 1 1 = 1 ∧ c.flag 2 (F.DDR_RANK_MAP_SPARE_FREE 1) = false ∧ (c.ddrChan 2 1).errq.length < 64 ∧
      (c.ddrChan 2 1).noSpare.getLsbD 1 = (n / 2 == 1)) ∧
    (∀ i ∈ [0, 5], let c := ddr { migRank := 0 } [(F.DDR_STATUS_MIGRATING 1, 1), (F.DDR_MIG_CP 1, i + 1)];
      c.flag 2 (F.DDR_STATUS_MIGRATING 1) = true ∧ c.fld 2 (F.DDR_STATUS_STATE 1) = 3 ∧ c.fld 2 (F.DDR_MIG_CP 1) = i + 1 ∧
      c.mieMode 2 1 = 0 ∧
      0 ≤ c.fld 2 (F.DDR_RAS_CFG_READ_RETRY 1) ∧ c.fld 2 (F.DDR_RAS_CFG_READ_RETRY 1) < 9 ∧ (c.ddrChan 2 1).migRank < 4 ∧
      (c.ddrChan 2 1).errq.length < 62) ∧
    (ddr {}).flag 2 (F.DDR_STATUS_MIGRATING 1) = false ∧ (ddr {}).runs 2 = true ∧
    (∀ q ∈ [[], [(7, 6), (1, 1)]], ((ddr { errq := q }).ddrChan 2 1).errq = q) := by
  refine ⟨fun auto ha => ⟨threeQueued.headD readOf, ?_⟩, ?_, ?_, ?_, ?_, ?_, ?_, ?_⟩
  · revert auto
    decide +kernel
  all_goals decide +kernel

/-- A stored line that passes and carries the MAC its keys give, whatever Config's cipher answers. -/
theorem witness_macOfLine (x : DdrChan) (l : List (Fld × Nat)) (k : MieKeys) (line key : Nat) (data : BitVec 576) :
    let y := goodLine 1 (mac48 k line false data) data
    (dramAt x key y l).dram.get key = y ∧ lineVerdict 1 y = .pass ∧ bits y.chk 16 48 = mac48 k line false y.data :=
  ⟨dramAt_get x key _ l, goodLine_passes 1 _ data, goodLine_mac _ data (bits_lt _ 80 48)⟩

theorem witness_IntegrityEngine :
    (∀ q ∈ [[], [(7, true)], [(7, false)]], let c := ddr { macs := q };
      c.runs 2 = true ∧ (c.ddrChan 2 1).macs = q ∧ c.dev ≠ .secureHalt) ∧
    (∀ m ∈ [0, 1, 2], ∀ busy ∈ [0, 1], let c := ddr {} [(F.MIE_CH_CFG_MODE 1, m), (F.MIE_CH_STATUS_INIT_BUSY 1, busy)];
      c.mieMode 2 1 = m ∧ c.fld 2 (F.MIE_CH_STATUS_INIT_BUSY 1) = busy ∧ c.fld 2 (F.DDR_STATUS_STATE 1) = 3 ∧
      c.flag 2 F.MIE_FLIP_SEL_ARM = false ∧ c.flag 2 (F.DDR_STATUS_MIGRATING 1) = false) ∧
    (∀ m ∈ [0, 1], ∀ busy ∈ [0, 1], let h := header 0x301 1 2;
      let c := cmdAt (ddr {} [(F.MIE_CH_CFG_MODE 1, m), (F.MIE_CH_STATUS_REKEY_BUSY 1, busy)]) 1 h [1];
      (Accepts c 1 0x301 h [1] ∧ c.dieInReset (cmdDie h) = false) ∧ cmdDie h = 2 ∧ c.mieMode 2 (bits ((([1] : List W36)).headD 0) 0 1) = m ∧
      c.fld 2 (F.MIE_CH_STATUS_REKEY_BUSY 1) = busy ∧ c.flag 2 (F.MIE_CH_STATUS_INIT_BUSY 1) = false) ∧
    (∀ b ∈ [0, 1], (up.setFld 2 F.MIE_CTRL_TEST_EN b).fld 2 F.MIE_CTRL_TEST_EN = b ∧ flipIndexes (bits (word (9 + 16)) 0 4) = some 2 ∧
      bits (word (9 + 16)) 4 12 < 2 ∧ flipIndexes (bits (word 15) 0 4) = none) ∧
    (∀ n ∈ [0, 1], ({ up with sec := { level := n } } : Chip).sec.level = n ∧ bit (1 : W36) 0 = true ∧ bit (0 : W36) 0 = false) := by
  refine ⟨?_, ?_, ?_, ?_, ?_⟩ <;> (try simp only [Accepts]) <;> decide +kernel


/-! ### Witnesses: test access, debug, performance counters, loads -/

/-- Every die's security at a level, with DEBUG authority. -/
def atLevel (n : Nat) : Chip := { up with sec := { up.sec with level := n } }

theorem witness_TestAccess :
    ((inDev .off).dev = .off ∧ up.dev ≠ .off ∧ up.scanAllowed = true ∧ (atLevel 2).scanAllowed = false ∧ (atLevel 2).debugAllowed = false) ∧
    ((2 : Die) ≠ 0 ∧ (inDev .por).alive = false ∧ ({ up with sec := { auth := 0 } } : Chip).portAuth Port.jtag = 0) ∧
    (let h := header 0x001 0 0; let dr : BitVec 38 := BitVec.ofNat 38 (h.toNat + 2 ^ 36 + 2 ^ 37);
      (idlePort up Port.jtag ∧ cmdLen h = 0 ∧ plainOp h) ∧ bits dr 0 36 = h.toNat ∧ bit dr 36 = true ∧ (up.tap 0).ask = false) ∧
    (let c : Chip := { up with
        cmds := up.cmds.set 0 { reply := some [1, 2, 3], readPos := 1 }
        taps := up.taps.set 0 { ask := true } };
      c.portTakes Port.jtag = true ∧ c.dev ≠ .off ∧ (c.cmd Port.jtag).reply = some [1, 2, 3] ∧ (c.cmd Port.jtag).repeatMark = false ∧
      (c.cmd Port.jtag).buffered = none ∧ (c.cmd Port.jtag).readPos + 1 < [1, 2, 3].length ∧ (c.tap 0).ask = true ∧
      bit (0 : BitVec 38) 36 = false) := by
  refine ⟨?_, ?_, ?_, ?_⟩ <;> (try simp only [idlePort, plainOp]) <;> decide +kernel

/-- A part where a debug operation waits on die 3, core 0 of which is attached. -/
def debugs (op addr : Nat) (v : W36) (l : List (Fld × Nat) := []) : Chip :=
  let c := withFlds up 3 l
  { c with taps := c.taps.set 3 { busy := some (op, addr, v), attached := 1 } }

/-- The same, with core 0 of die 3 in a state, with its record. -/
def debugsCore (op addr : Nat) (v : W36) (state : Nat) (x : Core := {}) : Chip :=
  let c := debugs op addr v
  ({ c with cores := c.cores.set 192 x }).setCoreState 3 0 state

theorem witness_DebugOperations :
    (∀ op ∈ [1, 11, 12, 15], let dr : BitVec 76 := BitVec.ofNat 76 (op * 2 ^ 68 + 5 * 2 ^ 36 + 7);
      up.debugAllowed = true ∧ bits dr 68 4 = op ∧ bits dr 72 4 = 0 ∧ bits dr 36 32 = 5 ∧ op ≠ Op.nop ∧ (up.tap 3).busy = none) ∧
    (let dr : BitVec 76 := BitVec.ofNat 76 (2 ^ 72 + 2 ^ 68); bits dr 72 4 ≠ 0) ∧
    (∀ op ∈ [Op.halt, Op.step], let c := debugs op 0 0; let dr : BitVec 76 := BitVec.ofNat 76 (Op.forceHalt * 2 ^ 68);
      (c.tap 3).busy = some (op, 0, 0) ∧ bits dr 68 4 = Op.forceHalt ∧ bits dr 72 4 = 0 ∧ 0 % 64 = bits dr 36 32 % 64) ∧
    (atLevel 2).debugAllowed = false ∧ (∀ op addr v, ¬ dbgWaits up 3 op addr v) ∧
    (∀ op ∈ [Op.read, Op.activeRead, Op.write], ∀ addr ∈ [0x5FFFFF, 0x600000], dbgWaits (debugs op addr 3) 3 op addr 3) ∧
    ((debugs Op.read 0 3).dieInReset 3 = false ∧ ({ debugs Op.read 0 3 with inReset := 8 } : Chip).dieInReset 3 = true ∧
      dbgWaits { debugs Op.read 0 3 with inReset := 8 } 3 Op.read 0 3) ∧
    (let c : Chip := { debugs Op.activeRead (Reg.DDR_ERRQ 1) 0 with ddr := SMap.set ([] : SMap DdrChan) 7 { errq := [(7, 6), (1, 1)] } };
      dbgWaits c 3 Op.activeRead (Reg.DDR_ERRQ 1) 0 ∧ (c.ddrChan 3 1).errq = (7, 6) :: [(1, 1)]) ∧
    (dbgWaits (debugs Op.write (Reg.OBE_PMC_USER 63) 3) 3 Op.write (Reg.OBE_PMC_USER 63) 3) ∧
    (∀ op ∈ [Op.memRead, Op.memWrite], ∀ addr ∈ [0, 2 * 64 + 8191 * 256, 3 * 64 + 0x15 * 256, 3 * 64 + pcCode * 256],
      ∀ state ∈ [Obe.run, Obe.halted, Obe.faultHalt],
      let c := debugsCore op addr 5 state;
      dbgWaits c 3 op addr 5 ∧ addr < 2 ^ 21 ∧ addr % 64 = 0 ∧ c.coreState 3 0 = state ∧ c.domState 3 (Dom.quad 0) = 0 ∧
      c.flag 3 F.MIE_FLIP_SEL_ARM = false ∧ (c.core 3 0).slots = 0 ∧ (c.core 3 0).rep = 0) ∧
    (dbgWaits (debugs Op.memRead (2 ^ 21) 0) 3 Op.memRead (2 ^ 21) 0 ∧ ((debugsCore 1 0 0 Obe.halted { rep := 3 }).core 3 0).rep ≠ 0) := by
  refine ⟨?_, ?_, ?_, ?_, ?_, ?_, ?_, ?_, ?_, ?_, ?_⟩ <;> (try simp only [dbgWaits])
  case refine_5 =>
    have none : (up.tap 3).busy = none := by decide +kernel
    exact fun op addr v h => nomatch none.symm.trans h.1
  all_goals decide +kernel

theorem witness_DebugSessions :
    (∀ n ∈ [0, 63, 64], ∀ ds ∈ [0, 1, 2, 3], let c := debugs Op.attach n 0 [(F.PWR_DOM_STATUS_STATE (Dom.quad (n / 4)), ds)];
      dbgWaits c 3 Op.attach n 0 ∧ (n < 64 → c.domState 3 (Dom.quad (n / 4)) = ds) ∧ c.domPhase 3 (Dom.quad (n / 4)) = 0) ∧
    (∀ op ∈ [Op.detach, Op.halt, Op.forceHalt, Op.resume, Op.step], let c := debugs op 63 0;
      dbgWaits c 3 op 63 0 ∧ c.attached 3 63 = false ∧ (c.tap 3).force = none) ∧
    (∀ op ∈ [Op.detach, Op.halt, Op.forceHalt, Op.resume, Op.step],
      ∀ state ∈ [Obe.reset, Obe.run, Obe.waittask, Obe.sleep, Obe.faultHalt, Obe.halted], let c := debugsCore op 0 0 state;
      dbgWaits c 3 op 0 0 ∧ c.attached 3 0 = true ∧ (c.tap 3).force = none ∧ c.flag 3 F.BLW_CTRL_DEBUG_STEAL = false ∧
      c.coreState 3 0 = state) ∧
    (∀ v ∈ [Obe.run, Obe.waittask, Obe.sleep],
      let c := debugsCore Op.resume 0 0 Obe.halted { haltedFrom := v, wakeNoted := true };
      c.coreState 3 0 = Obe.halted ∧ (c.core 3 0).haltedFrom = v ∧ (c.core 3 0).wakeNoted = true ∧ (c.core 3 0).areaReady = false) ∧
    (∀ op ∈ [Op.halt, Op.step], ∀ state ∈ [Obe.run, Obe.halted, Obe.faultHalt],
      let c := (debugsCore op 0 0 state).onTap 3 (fun t => { t with begun := true });
      c.debugAllowed = true ∧ (c.tap 3).busy = some (op, 0, 0) ∧ (c.tap 3).begun = true ∧ c.coreState 3 0 = state ∧
      (c.core 3 0).heldOff = false) ∧
    ((debugsCore Op.halt 0 0 Obe.run { rep := 1 }).core 3 0).heldOff = true := by
  refine ⟨?_, ?_, ?_, ?_, ?_, ?_⟩ <;> (try simp only [dbgWaits]) <;> decide +kernel

/-- The counters of die 2's block for core 63 in a mode, with their record. -/
def counts (mode : Nat) (x : Pmc := {}) (l : List (Fld × Nat) := []) : Chip :=
  let c := withFlds up 2 ((pmcMode (some 63), mode) :: l)
  { c with pmc := SMap.set ([] : SMap Pmc) (64 * 2 + 63) x }

theorem witness_PerformanceCounters :
    (let c := counts 1; c.runs 2 = true ∧ bits (0 : W36) 0 1 ≠ c.fld 2 (pmcMode (some 63)) ∧ bit (4 : W36) 2 = true ∧
      ¬ (bits (1 : W36) 0 1 ≠ c.fld 2 (pmcMode (some 63)) ∨ bit (1 : W36) 2 = true)) ∧
    (∀ m ∈ [0, 1], let c := counts m { bad := [47] }; c.flag 2 (pmcMode (some 63)) = (m == 1) ∧ 47 ∈ (c.pmcBlock 2 (some 63)).bad ∧
      46 ∉ (c.pmcBlock 2 (some 63)).bad ∧ c.flag 2 (pmcInvalid (some 63) 47) = false) ∧
    ((counts 0 {} [(pmcInvalid (some 63) 47, 1)]).flag 2 (pmcInvalid (some 63) 47) = true) ∧
    (∀ m ∈ [0, 1], ((counts m).flag 2 (pmcMode (some 63)) = true ↔ (if m = 1 then 8 else 9) < 9) ∧
      ¬ ((counts m).flag 2 (pmcMode (some 63)) = true ↔ (if m = 1 then 9 else 8) < 9)) ∧
    (7 ∈ ((counts 1 { wrapped := [7] }).pmcBlock 2 (some 63)).wrapped ∧ 6 ∉ ((counts 1 { wrapped := [7] }).pmcBlock 2 (some 63)).wrapped) ∧
    (findRow (BitVec.ofNat 23 0x5FFFFF).toNat = none ∧ ∀ r ∈ [Reg.OBE_PMC_USER 63, Reg.DRN_EVENT_CFG, Reg.MIE_HALT_INFO, Reg.MIE_STATUS],
      (BitVec.ofNat 23 r).toNat = r) := by
  refine ⟨?_, ?_, ?_, ?_, ?_, ?_⟩ <;> decide +kernel

/-- A load under way for a port's stream. -/
def streams (p k : Nat) (c : Chip) : Chip :=
  { c with loads := SMap.set ([] : SMap (Option Loader)) k (some { kind := .part false, src := .host p, stream := some p }) }

theorem witness_LoadCommands :
    (∀ src ∈ [0, 1, 2, 3], let h := header 0x080 2 0; let ws := [word src, word (2 ^ 32 + 0x1000)]; let c := cmdAt up 1 h ws;
      Accepts c 1 0x080 h ws ∧ c.dieInReset (cmdDie h) = false ∧ c.inReset = 0 ∧ c.resetDue = 0 ∧ c.cfg.resetPending = false ∧
      c.loads.any (fun e => e.2.isSome) = false ∧ bits (ws.headD 0) 0 2 = src) ∧
    (let h := header 0x080 2 0; let ws := [word 2, 0]; let c : Chip := { cmdAt up 1 h ws with resetDue := 4 };
      Accepts c 1 0x080 h ws ∧ c.resetDue ≠ 0) ∧
    (let h := header 0x080 2 0; let ws := [word 2, 0]; let c := streams 3 2 (cmdAt up 1 h ws);
      Accepts c 1 0x080 h ws ∧ c.loads.any (fun e => e.2.isSome) = true) ∧
    (let h := header 0x081 1 0; let c := cmdAt up 1 h [9]; Accepts c 1 0x081 h [9] ∧ c.loads = []) ∧
    (let h := header 0x081 1 0; let c := streams 1 2 (cmdAt up 1 h [9]);
      Accepts c 1 0x081 h [9] ∧ (∃ l, c.loads.get 2 = some l ∧ l.stream = some 1 ∧ l.writing = false) ∧ c.loads.get 0 = none ∧
      c.loads.get 1 = none) ∧
    (∀ r ∈ [0, 4], ∀ b ∈ [true, false], let h := header 0x082 2 2; let ws := [word 2, 0];
      let c : Chip := { (if b then streams 3 2 (cmdAt up 1 h ws) else cmdAt up 1 h ws) with inReset := BitVec.ofNat 4 r };
      Accepts c 1 0x082 h ws ∧ c.dieInReset (cmdDie h) = (r == 4) ∧ c.engineBusy (cmdDie h) = b) ∧
    (let h := header 0x089 1 2; let c := cmdAt up 1 h [1];
      Accepts c 1 0x089 h [1] ∧ c.dieInReset (cmdDie h) = false ∧ c.engineBusy (cmdDie h) = false) ∧
    (∀ n ∈ [0, 1, 16, 17], let len := min 20 (4 + max 1 n); let ws := word (2 * n) :: List.replicate (len - 1) 0;
      let h := header 0x08A len 2; let c := cmdAt up 1 h ws;
      Accepts c 1 0x08A h ws ∧ bits (ws.headD 0) 1 5 = n ∧ c.dieInReset (cmdDie h) = false ∧
      c.engineBusy (cmdDie h) = false ∧ (c.updates.get (cmdDie h)).isSome = false) := by
  refine ⟨?_, ?_, ?_, ?_, ?_, ?_, ?_, ?_⟩ <;> (try simp only [Accepts])
  case refine_5 =>
    exact ⟨by decide +kernel, ⟨_, rfl, rfl, rfl⟩, by decide +kernel, by decide +kernel⟩
  all_goals decide +kernel


/-! ### Witnesses: commands that complete -/

theorem witness_CommandsComplete :
    (∀ stage ∈ [0, 2],
      let c := withFlds ((up.setRegion 1 15 Rgn.staging).onRegion 1 15 (fun x => { x with stepping := true })) 1
        [(F.CFG_REGION_STATUS_STAGE 15, stage)];
      c.runs 1 = true ∧ (c.region 1 15).stepping = true ∧ c.regionState 1 15 = Rgn.staging ∧
      c.fld 1 (F.CFG_REGION_STATUS_STAGE 15) < 3) ∧
    ((up.setRegion 1 15 Rgn.active).regionState 1 15 = Rgn.active ∧ up.domState 1 15 = 0) ∧
    (let c := withFlds (up.setRegion 0 0 Rgn.faulted) 0
        [(F.CFG_REGION_CTRL_AUTO_REPAIR 0, 1), (F.CFG_REGION_STATUS_FAULT_CAUSE 0, 1)];
      c.runs 0 = true ∧ c.regionState 0 0 = Rgn.faulted ∧ c.flag 0 (F.CFG_REGION_CTRL_AUTO_REPAIR 0) = true ∧
      c.fld 0 (F.CFG_REGION_STATUS_FAULT_CAUSE 0) = 1) ∧
    (let c := bundled 3 1 7 Crl.active { rxCount := 15 };
      c.linked 3 = true ∧ c.peerRst 3 1 = false ∧ c.crlState 3 1 7 = Crl.active ∧ (c.crlSide 3 1 7).rxCount = 15 ∧
      bit (0 : W36) 2 = false ∧ bit (0 : W36) 1 = false) ∧
    (∀ e ∈ [(AluOp.mpy, 3, 3, 1, 0), (.mac, 3, 3, 1, 0), (.sum, 3, 3, 1, 0), (.dif, 3, 3, 1, 0), (.add, 3, 0, 1, 0), (.sub, 3, 0, 1, 0),
      (.tfr, 3, 0, 1, 0), (.cmp, 3, 0, 1, 0), (.and, 3, 0, 1, 0), (.or, 3, 0, 1, 0), (.xor, 3, 0, 1, 0), (.adda, 0, 0, 1, 0),
      (.suba, 0, 0, 1, 0), (.clr, 0, 0, 1, 0), (.neg, 0, 0, 1, 0), (.abs, 0, 0, 1, 0), (.dmpy, 3, 3, 0, 1), (.dmac, 3, 3, 0, 1),
      (.maxi, 3, 0, 0, 0), (.mini, 3, 0, 0, 0)], about (.alu e.1 e.2.1 e.2.2.1 e.2.2.2.1 e.2.2.2.2 .none .none)) ∧
    (∀ o ∈ [OInstr.asr 1 55, .asl 0 1, .norm 1 14, .scale 0 7 4], about o) ∧
    (∀ o ∈ [OInstr.branch 0 0 7, .branch 1 0 0x1FFF, .branchAp 0 0 7, .branchAp 1 0 0], about o (stacked 15) ∧
      ((ran o (stacked 15)).core 3 63).condition 9 0 = true ∧ ((ran o (stacked 15)).core 3 63).sys.length < 16) ∧
    (∀ slot ∈ [0, 1], let h := header 0x088 2 2; let ws := [word slot, 5]; let c := cmdAt up 1 h ws;
      Accepts c 1 0x088 h ws ∧ c.updateRefusal (cmdDie h) (bits (ws.headD 0) 0 1) = none) := by
  refine ⟨?_, ?_, ?_, ?_, ?_, ?_, ?_, ?_⟩ <;> (try simp only [about, oboeAt, oboeReady, Accepts]) <;> decide +kernel

/-- A frame that passes its CRC, with the count that the receiver expects. -/
theorem witness_goodFrame : bits goodFrame 752 8 = frameCrc goodFrame ∧ bits goodFrame 748 4 = 15 :=
  ⟨withCrc8_crc frameBody, (withCrc8_low frameBody).trans frameBody_count⟩

end Sys2Proof.Tests
end

section
/-! PROOFS. The row of a register's table found near its offset, and the rows of Bellows that the proofs about BLW_ writes use. -/

namespace Sys2Proof.Machine

/-! ### The row of a register -/

/-- How far above its base the index combinations of a register reach. -/
def dimsSpan : List (Nat × Nat) → Nat
  | [] => 0
  | (count, stride) :: ds => (count - 1) * stride + dimsSpan ds

theorem le_dimsSpan_of_dimsHit {ds : List (Nat × Nat)} {rel : Nat} (h : dimsHit ds rel = true) : rel ≤ dimsSpan ds := by
  induction ds generalizing rel with
  | nil => simpa [dimsHit, dimsSpan] using h
  | cons e ds ih =>
    obtain ⟨count, stride⟩ := e
    have hrest : rel - min (rel / stride) (count - 1) * stride ≤ dimsSpan ds := ih h
    have hfirst : min (rel / stride) (count - 1) * stride ≤ (count - 1) * stride :=
      Nat.mul_le_mul_right _ (Nat.min_le_right _ _)
    simp only [dimsSpan]
    omega

/-- Whether a row may cover a word offset from lo to hi, by its base and span alone. -/
def RegRow.near (lo hi : Nat) (r : RegRow) : Bool := decide (r.base ≤ hi) && decide (lo ≤ r.base + dimsSpan r.dims)

theorem RegRow.covers_iff (r : RegRow) (off : Nat) :
    r.covers off = true ↔ r.base ≤ off ∧ dimsHit r.dims (off - r.base) = true := by
  simp [RegRow.covers]

theorem RegRow.near_of_covers {r : RegRow} {off lo hi : Nat} (h : r.covers off = true) (hlo : lo ≤ off) (hhi : off ≤ hi) :
    r.near lo hi = true := by
  obtain ⟨hbase, hhit⟩ := (RegRow.covers_iff r off).mp h
  have hspan := le_dimsSpan_of_dimsHit hhit
  simp only [RegRow.near, Bool.and_eq_true, decide_eq_true_eq]
  omega

/-- The row at an offset is found among the rows near it. -/
theorem findRow_eq_near {off lo hi : Nat} (hlo : lo ≤ off) (hhi : off ≤ hi) :
    findRow off = (regRows.filter (RegRow.near lo hi)).find? (fun r => r.covers off) := by
  unfold findRow
  induction regRows with
  | nil => rfl
  | cons r rs ih =>
    by_cases hc : r.covers off = true
    · simp [hc, RegRow.near_of_covers hc hlo hhi]
    · by_cases hn : r.near lo hi = true <;> simp [hc, hn, ih]

/-- The row of BLW_TPL_t_A. -/
def tplARow : RegRow := ⟨0x060100, [(256, 2)], [⟨0, 2, .rw, 0⟩, ⟨2, 4, .rw, 0⟩, ⟨6, 3, .rw, 0⟩, ⟨9, 3, .rw, 0⟩, ⟨12, 1, .rw, 0⟩,
  ⟨13, 1, .rw, 0⟩, ⟨14, 1, .rw, 0⟩, ⟨15, 2, .rw, 0⟩, ⟨17, 8, .rw, 0⟩]⟩

/-- The row of BLW_TPL_t_B. -/
def tplBRow : RegRow := ⟨0x060101, [(256, 2)], [⟨0, 12, .rw, 0⟩, ⟨12, 2, .rw, 0⟩, ⟨14, 8, .rw, 0⟩, ⟨22, 2, .rw, 0⟩,
  ⟨24, 8, .rw, 255⟩]⟩

/-- The row of BLW_FABPORT_q. -/
def fabportRow : RegRow := ⟨0x061000, [(128, 1)], [⟨0, 1, .rw, 0⟩, ⟨1, 6, .ro, 0⟩, ⟨7, 6, .ro, 0⟩, ⟨13, 1, .ro, 0⟩, ⟨14, 1, .ro, 0⟩,
  ⟨15, 1, .w1c, 0⟩]⟩

/-- The row of BLW_CTRL. -/
def blwCtrlRow : RegRow := ⟨0x060000, [], [⟨0, 1, .rw, 0⟩, ⟨1, 1, .rw, 0⟩, ⟨2, 1, .wo, 0⟩]⟩

/-- The row of BLW_WAIT_c_b. -/
def waitRow : RegRow := ⟨0x061200, [(16, 16), (16, 1)], [⟨0, 36, .rw, 0⟩]⟩

theorem rows_near_tpl : regRows.filter (RegRow.near 0x060100 0x0602FF) = [tplARow, tplBRow] := by decide +kernel

theorem findRow_tplA {t : Nat} (ht : t < 256) : findRow (Reg.BLW_TPL_A t) = some tplARow := by
  have hcov : tplARow.covers (Reg.BLW_TPL_A t) = true := by
    simp only [RegRow.covers_iff, tplARow, Reg.BLW_TPL_A, dimsHit, beq_iff_eq]; omega
  rw [findRow_eq_near (lo := 0x060100) (hi := 0x0602FF) (by unfold Reg.BLW_TPL_A; omega) (by unfold Reg.BLW_TPL_A; omega),
    rows_near_tpl]
  simp [hcov]

theorem findRow_tplB {t : Nat} (ht : t < 256) : findRow (Reg.BLW_TPL_B t) = some tplBRow := by
  have hA : ¬ tplARow.covers (Reg.BLW_TPL_B t) = true := by
    simp only [RegRow.covers_iff, tplARow, Reg.BLW_TPL_B, dimsHit, beq_iff_eq]; omega
  have hB : tplBRow.covers (Reg.BLW_TPL_B t) = true := by
    simp only [RegRow.covers_iff, tplBRow, Reg.BLW_TPL_B, dimsHit, beq_iff_eq]; omega
  rw [findRow_eq_near (lo := 0x060100) (hi := 0x0602FF) (by unfold Reg.BLW_TPL_B; omega) (by unfold Reg.BLW_TPL_B; omega),
    rows_near_tpl]
  simp [hA, hB]

theorem findRow_fabport {q : Nat} (hq : q < 128) : findRow (Reg.BLW_FABPORT q) = some fabportRow := by
  have hrows : regRows.filter (RegRow.near 0x061000 0x06107F) = [fabportRow] := by decide +kernel
  have hcov : fabportRow.covers (Reg.BLW_FABPORT q) = true := by
    simp only [RegRow.covers_iff, fabportRow, Reg.BLW_FABPORT, dimsHit, beq_iff_eq]; omega
  rw [findRow_eq_near (lo := 0x061000) (hi := 0x06107F) (by unfold Reg.BLW_FABPORT; omega) (by unfold Reg.BLW_FABPORT; omega),
    hrows]
  simp [hcov]

theorem findRow_blwCtrl : findRow Reg.BLW_CTRL = some blwCtrlRow := by decide +kernel

theorem findRow_wait {cls b : Nat} (hc : cls < 16) (hb : b < 16) : findRow (Reg.BLW_WAIT cls b) = some waitRow := by
  have hrows : regRows.filter (RegRow.near 0x061200 0x0612FF) = [waitRow] := by decide +kernel
  have hcov : waitRow.covers (Reg.BLW_WAIT cls b) = true := by
    simp only [RegRow.covers_iff, waitRow, Reg.BLW_WAIT, dimsHit, beq_iff_eq]; omega
  rw [findRow_eq_near (lo := 0x061200) (hi := 0x0612FF) (by unfold Reg.BLW_WAIT; omega) (by unfold Reg.BLW_WAIT; omega),
    hrows]
  simp [hcov]

theorem resetWord_wait {cls b : Nat} (hc : cls < 16) (hb : b < 16) : resetWord (Reg.BLW_WAIT cls b) = 0 := by
  rw [resetWord, findRow_wait hc hb]; decide

end Sys2Proof.Machine
end

section
/-! PROOFS. Fields of words and registers, how a command's effect is reached, and what operations on Bellows' tasks leave. -/

namespace Sys2Proof.Machine

/-! ### Words -/

/-- A field of one bit is that bit. -/
theorem bits_one {n : Nat} (w : BitVec n) (i : Nat) : bits w i 1 = ofBool (bit w i) := by
  simp only [bits, bit, ofBool, Nat.testBit_eq_decide_div_mod_eq, Nat.shiftRight_eq_div_pow]
  split <;> simp_all

@[simp] theorem ofBool_beq_one (b : Bool) : (ofBool b == 1) = b := by cases b <;> rfl

/-- A field of a field that was written reads the same bits of what was written. -/
theorem bits_putBits_inner {n : Nat} (w v : BitVec n) (lo width lo' width' : Nat) (hn : lo + width ≤ n) (hlo : lo ≤ lo')
    (hhi : lo' + width' ≤ lo + width) : bits (putBits w lo width (bits v lo width)) lo' width' = bits v lo' width' := by
  apply Nat.eq_of_testBit_eq
  intro i
  rw [testBit_bits, testBit_bits]
  by_cases hi : i < width'
  · rw [getLsbD_putBits _ _ _ _ _ (by omega), if_pos (by omega), testBit_bits, show lo + (lo' + i - lo) = lo' + i by omega]
    have hin : lo' + i - lo < width := by omega
    simp [hin]
  · simp [hi]

theorem bit_eq_getLsbD {n : Nat} (w : BitVec n) (i : Nat) : bit w i = w.getLsbD i := rfl

theorem bit_or {n : Nat} (v m : BitVec n) (i : Nat) : bit (v ||| m) i = (bit v i || bit m i) := by
  simp [bit]

/-! ### Registers of one die -/

theorem regKey_ne {d d' off off' : Nat} (h : off < 2 ^ 23) (h' : off' < 2 ^ 23) (hne : off' ≠ off) :
    regKey d' off' ≠ regKey d off := fun e => hne ((regKey_inj h' h).mp e).2

/-- A field read from a register that was just written. -/
theorem Chip.fld_setReg_same (s : Chip) (d : Nat) (f : Fld) (w : W36) : (s.setReg d f.off w).fld d f = bits w f.lo f.width := by
  simp [Chip.fld]

/-- A field keeps its value when registers at other offsets are written. -/
theorem RegsBut.fld_of_off_ne {a b : Chip} {d off d' : Nat} {f : Fld} (h : RegsBut (OneReg d off) a b) (ho : f.off < 2 ^ 23)
    (hne : f.off ≠ off) : b.fld d' f = a.fld d' f := h.fld ho (fun hp => hne hp.2)

theorem RegsBut.flag_of_off_ne {a b : Chip} {d off d' : Nat} {f : Fld} (h : RegsBut (OneReg d off) a b) (ho : f.off < 2 ^ 23)
    (hne : f.off ≠ off) : b.flag d' f = a.flag d' f := by simp [Chip.flag, h.fld_of_off_ne ho hne]

/-- A field of one die keeps its value when a field at another offset is written. -/
theorem Chip.fld_setFld_off (s : Chip) {d d' : Nat} {f f' : Fld} (v : Nat) (ho : f.off < 2 ^ 23) (ho' : f'.off < 2 ^ 23)
    (hne : f'.off ≠ f.off) : (s.setFld d f v).fld d' f' = s.fld d' f' := Chip.fld_setFld_reg s v (regKey_ne ho ho' hne)

/-- A register write by its table is one word written, where the table has a row for the offset. -/
theorem Chip.plainWrite_of_findRow (s : Chip) (d : Nat) {off : Nat} {r : RegRow} (w : W36) (h : findRow off = some r) :
    s.plainWrite d off w = s.setReg d off (r.flds.foldl (fun old f => f.written old w) (s.reg d off)) := by
  simp [Chip.plainWrite, h]

/-! ### How a command's effect is reached -/

/-- A command whose function leaves the chip as it was leaves the whole state. -/
theorem NoEffect.of_onDie {i : Instr} {s : State} {d : Nat} {f : Chip → Chip} (h : exec i s = s.onDie d f)
    (hf : f s.chip = s.chip) : NoEffect i s := by
  unfold NoEffect
  rw [h, State.onDie_eq]
  cases s.chip.runs d
  · rfl
  · rw [Chip.when_true, hf]

/-- A command that acts while its die runs has its effect where what its function gives meets P. -/
theorem Done.of_result {i : Instr} {s : State} {d : Nat} {f : Chip → Chip} {c : Chip} {P : Chip → Prop}
    (h : exec i s = s.onDie d f) (hr : s.chip.runs d = true) (hc : f s.chip = c) (hp : P c) : Done i s P :=
  Done.of_onDie h hr (by rw [hc]; exact hp)

/-! ### Frames -/

/-- Nothing of the chip differs between a and b but what Bellows holds of its tasks (entries, ready and held lists, workers' tags)
and the performance counters. -/
def OnlyTasks (a b : Chip) : Prop :=
  b = { a with blwStore := b.blwStore, blwReady := b.blwReady, blwHeld := b.blwHeld, blwWorkers := b.blwWorkers, pmc := b.pmc }

theorem OnlyTasks.refl (s : Chip) : OnlyTasks s s := rfl

theorem OnlyTasks.trans {a b c : Chip} (h : OnlyTasks a b) (h' : OnlyTasks b c) : OnlyTasks a c := by
  unfold OnlyTasks at *; rw [h', h]

theorem OnlyTasks.each {α : Type} {f : Chip → α → Chip} (h : ∀ s x, OnlyTasks s (f s x)) (xs : List α) (s : Chip) :
    OnlyTasks s (s.each xs f) := by
  induction xs generalizing s with
  | nil => exact OnlyTasks.refl s
  | cons x xs ih => exact (h s x).trans (ih (f s x))

theorem OnlyTasks.when {s : Chip} {c : Bool} {f : Chip → Chip} (h : OnlyTasks s (f s)) : OnlyTasks s (s.when c f) := by
  cases c
  · exact OnlyTasks.refl s
  · exact h

theorem OnlyTasks.regs_eq {a b : Chip} (h : OnlyTasks a b) : b.regs = a.regs := by rw [h]
theorem OnlyTasks.window_eq {a b : Chip} (h : OnlyTasks a b) : b.blwWindow = a.blwWindow := by rw [h]
theorem OnlyTasks.queue_eq {a b : Chip} (h : OnlyTasks a b) : b.blwQueue = a.blwQueue := by rw [h]
theorem OnlyTasks.log_eq {a b : Chip} (h : OnlyTasks a b) : b.log = a.log := by rw [h]
theorem OnlyTasks.fld_eq {a b : Chip} (h : OnlyTasks a b) (d : Nat) (f : Fld) : b.fld d f = a.fld d f :=
  Chip.fld_congr h.regs_eq d f
theorem OnlyTasks.flag_eq {a b : Chip} (h : OnlyTasks a b) (d : Nat) (f : Fld) : b.flag d f = a.flag d f :=
  Chip.flag_congr h.regs_eq d f
theorem OnlyTasks.mark_eq {a b : Chip} (h : OnlyTasks a b) (d flow seq : Nat) : b.mark d flow seq = a.mark d flow seq := by
  simp [Chip.mark, h.window_eq]

theorem Chip.countDie_frame (s : Chip) (d ev k : Nat) : s.countDie d ev k = { s with pmc := (s.countDie d ev k).pmc } := by
  unfold Chip.countDie; split <;> rfl

theorem Chip.countDie_onlyTasks (s : Chip) (d ev k : Nat) : OnlyTasks s (s.countDie d ev k) := by
  unfold Chip.countDie; split <;> rfl

theorem Chip.staleTag_onlyTasks (s : Chip) (d w tag : Nat) : OnlyTasks s (s.staleTag d w tag) := rfl

theorem Chip.setEntry_onlyTasks (s : Chip) (key : Nat) (e : Option BlwEntry) : OnlyTasks s (s.setEntry key e) := rfl

theorem Chip.joinReady_onlyTasks (s : Chip) (d key : Nat) (head : Bool) : OnlyTasks s (s.joinReady d key head) := by
  unfold Chip.joinReady; split <;> rfl

theorem Chip.releaseHeld_onlyTasks (s : Chip) (d flow : Nat) : OnlyTasks s (s.releaseHeld d flow) := by
  unfold Chip.releaseHeld
  extract_lets due t
  have ht : OnlyTasks s t := rfl
  exact ht.trans (OnlyTasks.each (fun c k => c.joinReady_onlyTasks d k false) due t)

theorem Chip.dropEntry_onlyTasks (s : Chip) (d key : Nat) : OnlyTasks s (s.dropEntry d key) := by
  unfold Chip.dropEntry
  split
  · next e _ => cases e.phase <;> rfl
  · rfl

/-- A failure that is not counted only puts the task back on its list. -/
theorem Chip.failTask_uncounted_onlyTasks (s : Chip) (d key cause : Nat) : OnlyTasks s (s.failTask d key cause false) := by
  unfold Chip.failTask
  split
  · rfl
  · exact ((s.countDie_onlyTasks d 20 1).trans (Chip.setEntry_onlyTasks _ _ _)).trans (Chip.joinReady_onlyTasks _ _ _ _)

theorem Chip.failHeldTasks_uncounted_onlyTasks (s : Chip) (d w cause : Nat) : OnlyTasks s (s.failHeldTasks d w cause false) := by
  refine OnlyTasks.each (fun c t => ?_) _ s
  split
  · exact (c.staleTag_onlyTasks d w t.1).trans (Chip.failTask_uncounted_onlyTasks _ _ _ _)
  · rfl

theorem Chip.stealHeld_onlyTasks (s : Chip) (d : Nat) : OnlyTasks s (s.stealHeld d) :=
  OnlyTasks.each (fun c w => OnlyTasks.when (c.failHeldTasks_uncounted_onlyTasks d w 0)) _ s

end Sys2Proof.Machine
end

section
/-! PROOFS. The release of items and BLW_RESULT_POP (R340 to R343). -/

namespace Sys2Proof.Machine

/-! ### A position leaves its flow's window (R340) -/

/-- The position at seq cleared and BASE moved past it, before held tasks join their lists. -/
def Chip.passPosition (s : Chip) (d flow seq : Nat) : Chip :=
  (s.setMark d flow seq none).setFld d (F.BLW_FLOW_BASE flow) ((seq + 1) % 2 ^ 20)

theorem Chip.advanceBase_onlyTasks (s : Chip) (d flow seq : Nat) :
    OnlyTasks (s.passPosition d flow seq) (s.advanceBase d flow seq) := Chip.releaseHeld_onlyTasks _ d flow

@[simp] theorem Chip.mark_setMark_same (s : Chip) (d flow seq : Nat) (m : Option BlwMark) :
    (s.setMark d flow seq m).mark d flow seq = m := by simp [Chip.mark, Chip.setMark]

@[simp] theorem Chip.mark_setFld (s : Chip) (d' : Nat) (f : Fld) (v d flow seq : Nat) :
    (s.setFld d' f v).mark d flow seq = s.mark d flow seq := rfl

@[simp] theorem Chip.fld_setMark (s : Chip) (d flow seq : Nat) (m : Option BlwMark) (d' : Nat) (f : Fld) :
    (s.setMark d flow seq m).fld d' f = s.fld d' f := rfl

theorem Chip.passPosition_base (s : Chip) (d flow seq : Nat) :
    (s.passPosition d flow seq).fld d (F.BLW_FLOW_BASE flow) = (seq + 1) % 2 ^ 20 := by
  rw [Chip.passPosition, Chip.fld_setFld_same _ _ _ _ (by decide : (0 + 20 ≤ 36))]
  exact Nat.mod_mod _ _

theorem Chip.passPosition_mark (s : Chip) (d flow seq : Nat) : (s.passPosition d flow seq).mark d flow seq = none := by
  simp [Chip.passPosition]

theorem stat_flow_offsets {n flow : Nat} (hn : n < 10) (hf : flow < 1024) :
    Reg.BLW_STAT n < 2 ^ 23 ∧ Reg.BLW_FLOW flow < 2 ^ 23 ∧ Reg.BLW_STAT n ≠ Reg.BLW_FLOW flow := by
  simp only [Reg.BLW_STAT, Reg.BLW_FLOW]
  omega

theorem Chip.passPosition_stat (s : Chip) (d seq : Nat) {n flow : Nat} (hn : n < 10) (hf : flow < 1024) :
    (s.passPosition d flow seq).fld d (F.BLW_STAT_COUNT n) = s.fld d (F.BLW_STAT_COUNT n) := by
  obtain ⟨hstat, hflow, hne⟩ := stat_flow_offsets hn hf
  exact (Chip.fld_setFld_off _ _ hflow hstat hne).trans (Chip.fld_setMark _ _ _ _ _ _ _)

/-- What a released position leaves behind before it goes where its REL_KIND sends it; an ERROR item is counted (R340, R344). -/
def Chip.leaveWindow (s : Chip) (d flow seq : Nat) (err : Bool) : Chip :=
  let s := (s.advanceBase d flow seq).countDie d 21 1
  if err then (s.blwStat d 3).countDie d 22 1 else s

theorem Chip.releaseTo_full (s : Chip) (d flow seq tpl : Nat) (x : BlwSlot) (err : Bool) (hq : 512 ≤ (s.blwQueue.get d).length) :
    s.releaseTo d flow seq tpl 0 x err = s.setFlag d F.BLW_RQ_FULL_SEEN true := by
  simp [Chip.releaseTo, hq]

theorem Chip.releaseTo_queue (s : Chip) (d flow seq tpl : Nat) (x : BlwSlot) (err : Bool) (hq : (s.blwQueue.get d).length < 512) :
    s.releaseTo d flow seq tpl 0 x err = { s.leaveWindow d flow seq err with
      blwQueue := (s.leaveWindow d flow seq err).blwQueue.upd d (fun q =>
        q ++ [{ head := itemHead flow seq x err, data := x }]) } := by
  have hn : ¬ 512 ≤ (s.blwQueue.get d).length := by omega
  simp [Chip.releaseTo, Chip.leaveWindow, hn]

theorem Chip.releaseTo_discard (s : Chip) (d flow seq tpl : Nat) (x : BlwSlot) :
    s.releaseTo d flow seq tpl 2 x false = s.leaveWindow d flow seq false := by
  simp [Chip.releaseTo, Chip.leaveWindow]

theorem Chip.leaveWindow_item_onlyTasks (s : Chip) (d flow seq : Nat) :
    OnlyTasks (s.passPosition d flow seq) (s.leaveWindow d flow seq false) :=
  (s.advanceBase_onlyTasks d flow seq).trans (Chip.countDie_onlyTasks _ d 21 1)

/-- An ERROR item leaves its window as any item does, and BLW_STAT_3 counts it. -/
theorem Chip.leaveWindow_error (s : Chip) (d flow seq : Nat) :
    OnlyTasks ((s.leaveWindow d flow seq false).blwStat d 3) (s.leaveWindow d flow seq true) := Chip.countDie_onlyTasks _ d 22 1

@[simp] theorem Chip.blwStat_queue (s : Chip) (d n : Nat) : (s.blwStat d n).blwQueue = s.blwQueue := rfl
@[simp] theorem Chip.blwStat_mark (s : Chip) (d n d' flow seq : Nat) : (s.blwStat d n).mark d' flow seq = s.mark d' flow seq := rfl

theorem Chip.blwStat_count (s : Chip) (d n : Nat) :
    (s.blwStat d n).fld d (F.BLW_STAT_COUNT n) = (s.fld d (F.BLW_STAT_COUNT n) + 1) % 2 ^ 36 :=
  Chip.fld_setFld_same s d (F.BLW_STAT_COUNT n) _ (by decide : 0 + 36 ≤ 36)

theorem Chip.blwStat_base (s : Chip) (d d' : Nat) {n flow : Nat} (hn : n < 10) (hf : flow < 1024) :
    (s.blwStat d n).fld d' (F.BLW_FLOW_BASE flow) = s.fld d' (F.BLW_FLOW_BASE flow) := by
  obtain ⟨hstat, hflow, hne⟩ := stat_flow_offsets hn hf
  exact Chip.fld_setFld_off s _ hstat hflow hne.symm

theorem Chip.leaveWindow_base (s : Chip) (d seq : Nat) {flow : Nat} (hf : flow < 1024) (err : Bool) :
    (s.leaveWindow d flow seq err).fld d (F.BLW_FLOW_BASE flow) = (seq + 1) % 2 ^ 20 := by
  have hitem := ((s.leaveWindow_item_onlyTasks d flow seq).fld_eq d (F.BLW_FLOW_BASE flow)).trans (s.passPosition_base d flow seq)
  cases err with
  | false => exact hitem
  | true => rw [(s.leaveWindow_error d flow seq).fld_eq, Chip.blwStat_base _ d d (by decide) hf, hitem]

theorem Chip.leaveWindow_mark (s : Chip) (d flow seq : Nat) (err : Bool) :
    (s.leaveWindow d flow seq err).mark d flow seq = none := by
  have hitem := ((s.leaveWindow_item_onlyTasks d flow seq).mark_eq d flow seq).trans (s.passPosition_mark d flow seq)
  cases err with
  | false => exact hitem
  | true => rw [(s.leaveWindow_error d flow seq).mark_eq, Chip.blwStat_mark, hitem]

theorem Chip.leaveWindow_queue (s : Chip) (d flow seq : Nat) (err : Bool) :
    (s.leaveWindow d flow seq err).blwQueue = s.blwQueue := by
  have hitem : (s.leaveWindow d flow seq false).blwQueue = s.blwQueue := (s.leaveWindow_item_onlyTasks d flow seq).queue_eq
  cases err with
  | false => exact hitem
  | true => rw [(s.leaveWindow_error d flow seq).queue_eq, Chip.blwStat_queue, hitem]

theorem Chip.leaveWindow_item_log (s : Chip) (d flow seq : Nat) : (s.leaveWindow d flow seq false).log = s.log :=
  (s.leaveWindow_item_onlyTasks d flow seq).log_eq

theorem Chip.leaveWindow_errors (s : Chip) (d seq : Nat) {flow : Nat} (hf : flow < 1024) :
    (s.leaveWindow d flow seq true).fld d (F.BLW_STAT_COUNT 3) = (s.fld d (F.BLW_STAT_COUNT 3) + 1) % 2 ^ 36 := by
  rw [(s.leaveWindow_error d flow seq).fld_eq, Chip.blwStat_count, (s.leaveWindow_item_onlyTasks d flow seq).fld_eq,
    s.passPosition_stat d seq (by decide) hf]

/-- An item sent to the result queue: BASE moves on, its position is clear, and it waits last (R340 to R342). -/
theorem Chip.releaseTo_queue_spec (s : Chip) (d seq tpl : Nat) {flow : Nat} (hf : flow < 1024) (x : BlwSlot) (err : Bool)
    (hq : (s.blwQueue.get d).length < 512) :
    let c := s.releaseTo d flow seq tpl 0 x err
    c.fld d (F.BLW_FLOW_BASE flow) = (seq + 1) % 2 ^ 20 ∧ c.mark d flow seq = none ∧
      c.blwQueue.get d = s.blwQueue.get d ++ [{ head := itemHead flow seq x err, data := x }] := by
  rw [Chip.releaseTo_queue s d flow seq tpl x err hq]
  refine ⟨s.leaveWindow_base d seq hf err, s.leaveWindow_mark d flow seq err, ?_⟩
  simp [s.leaveWindow_queue]

/-! ### RELEASE_ITEM (R340, R341) -/

theorem exec_releaseItem (d : Die) (flow : Fin 1024) (s : State) :
    exec (.releaseItem d flow) s = s.onDie d (fun c => c.releaseItem d flow) := rfl

section
variable {s : Chip} {d flow : Nat}

theorem Chip.releaseItem_of_absent (h : s.mark d flow (s.fld d (F.BLW_FLOW_BASE flow)) = none) : s.releaseItem d flow = s := by
  simp [Chip.releaseItem, h]

variable {m : BlwMark} (h : s.mark d flow (s.fld d (F.BLW_FLOW_BASE flow)) = some m)
include h

theorem Chip.releaseItem_of_waiting (hf : m.failed = none) (hr : m.release = none) : s.releaseItem d flow = s := by
  simp [Chip.releaseItem, h, hf, hr]

theorem Chip.releaseItem_of_release {x : BlwSlot} {tpl : Nat} (hf : m.failed = none) (hr : m.release = some (x, tpl))
    (hx : x.bad = false) : s.releaseItem d flow = s.releaseTo d flow (s.fld d (F.BLW_FLOW_BASE flow)) tpl
      (if s.fld d (F.BLW_TPL_B_REL_KIND tpl) = 3 then 0 else s.fld d (F.BLW_TPL_B_REL_KIND tpl)) x false := by
  simp [Chip.releaseItem, h, hf, hr, hx]

/-- An ERROR item goes to the result queue unless its template sends it on as a token. -/
theorem Chip.releaseItem_of_failed {cause tpl : Nat} (hf : m.failed = some (cause, tpl))
    (hk : tpl = 256 ∨ cause = Cause.failHead ∨ s.fld d (F.BLW_TPL_B_REL_KIND tpl) ≠ 1) :
    s.releaseItem d flow = s.releaseTo d flow (s.fld d (F.BLW_FLOW_BASE flow)) tpl 0 {} true := by
  have hkind : (decide (tpl < 256) && cause != Cause.failHead && decide (s.fld d (F.BLW_TPL_B_REL_KIND tpl) = 1)) = false := by
    rcases hk with rfl | rfl | hk
    · rfl
    · simp
    · simp [hk]
  simp only [Chip.releaseItem, h, hf, hkind]
  rfl
end

/-- A released item goes to the result queue, waits for room in it, or is discarded, by its template's REL_KIND (R340 to R342). -/
theorem releaseItem_release {s : State} {d : Die} {flow : Fin 1024} (hr : s.chip.runs d = true) {m : BlwMark} {x : BlwSlot}
    {tpl : Nat} (hm : s.chip.mark d flow (s.chip.fld d (F.BLW_FLOW_BASE flow)) = some m) (hf : m.failed = none)
    (hrel : m.release = some (x, tpl)) (hx : x.bad = false) :
    let base := s.chip.fld d (F.BLW_FLOW_BASE flow)
    let q := s.chip.blwQueue.get d
    let moved (c : Chip) : Prop := c.fld d (F.BLW_FLOW_BASE flow) = (base + 1) % 2 ^ 20
    (s.chip.fld d (F.BLW_TPL_B_REL_KIND tpl) = 0 → q.length < 512 → Done (.releaseItem d flow) s (fun c =>
      moved c ∧ c.mark d flow base = none ∧
      c.blwQueue.get d = q ++ [{ head := itemHead flow base x false, data := x }])) ∧
    (s.chip.fld d (F.BLW_TPL_B_REL_KIND tpl) = 0 → 512 ≤ q.length → Done (.releaseItem d flow) s (fun c =>
      c.flag d F.BLW_RQ_FULL_SEEN = true ∧ OnlyRegs s.chip c ∧ RegsBut (OneReg d Reg.BLW_RQ) s.chip c)) ∧
    (s.chip.fld d (F.BLW_TPL_B_REL_KIND tpl) = 2 → Done (.releaseItem d flow) s (fun c =>
      moved c ∧ c.mark d flow base = none ∧ c.blwQueue = s.chip.blwQueue ∧ c.log = s.chip.log)) := by
  intro base q moved
  have hitem := Chip.releaseItem_of_release hm hf hrel hx
  refine ⟨fun hk hq => ?_, fun hk hq => ?_, fun hk => ?_⟩ <;> rw [hk, if_neg (by decide)] at hitem
  · exact Done.of_result (exec_releaseItem d flow s) hr hitem (Chip.releaseTo_queue_spec _ d base tpl flow.isLt x false hq)
  · refine Done.of_result (exec_releaseItem d flow s) hr (hitem.trans (Chip.releaseTo_full _ d flow base tpl x false hq)) ?_
    exact ⟨Chip.flag_setFlag_same _ _ _ true (by decide) rfl, OnlyRegs.setFlag _ _ _ _,
      RegsBut.setFlag _ true (by decide) ⟨rfl, rfl⟩⟩
  · refine Done.of_result (exec_releaseItem d flow s) hr (hitem.trans (Chip.releaseTo_discard _ d flow base tpl x)) ?_
    exact ⟨Chip.leaveWindow_base _ d base flow.isLt false, Chip.leaveWindow_mark _ d flow base false,
      Chip.leaveWindow_queue _ d flow base false, Chip.leaveWindow_item_log _ d flow base⟩

/-- A failed item that no REL_KIND sends on as a token goes to the result queue as an ERROR item (R341). -/
theorem releaseItem_failed {s : State} {d : Die} {flow : Fin 1024} (hr : s.chip.runs d = true) {m : BlwMark} {cause tpl : Nat}
    (hm : s.chip.mark d flow (s.chip.fld d (F.BLW_FLOW_BASE flow)) = some m) (hf : m.failed = some (cause, tpl))
    (hq : (s.chip.blwQueue.get d).length < 512)
    (hk : tpl = 256 ∨ cause = Cause.failHead ∨ s.chip.fld d (F.BLW_TPL_B_REL_KIND tpl) ≠ 1) :
    Done (.releaseItem d flow) s (fun c =>
      c.fld d (F.BLW_FLOW_BASE flow) = (s.chip.fld d (F.BLW_FLOW_BASE flow) + 1) % 2 ^ 20 ∧
      c.mark d flow (s.chip.fld d (F.BLW_FLOW_BASE flow)) = none ∧
      c.blwQueue.get d = s.chip.blwQueue.get d ++
        [{ head := itemHead flow (s.chip.fld d (F.BLW_FLOW_BASE flow)) {} true, data := {} }] ∧
      c.fld d (F.BLW_STAT_COUNT 3) = (s.chip.fld d (F.BLW_STAT_COUNT 3) + 1) % 2 ^ 36) := by
  obtain ⟨hbase, hmark, hqueue⟩ := s.chip.releaseTo_queue_spec d (s.chip.fld d (F.BLW_FLOW_BASE flow)) tpl flow.isLt {} true hq
  refine Done.of_result (exec_releaseItem d flow s) hr (Chip.releaseItem_of_failed hm hf hk) ⟨hbase, hmark, hqueue, ?_⟩
  rw [Chip.releaseTo_queue _ d flow _ tpl {} true hq]
  exact Chip.leaveWindow_errors _ d _ flow.isLt

/-! ### BLW_RESULT_POP (R343) -/

theorem exec_blwResultPop (d : Die) (s : State) :
    exec (.blwResultPop d) s =
      s.onDie d (fun c => (fun (r : Chip × W36) => { r.1 with returned := [r.2] }) (c.resultPop d)) := rfl

theorem Chip.resultPop_empty {s : Chip} {d : Nat} (h : s.blwQueue.get d = []) : s.resultPop d = (s, word (2 ^ 35)) := by
  simp [Chip.resultPop, h]

/-- The payload words of an item in the data registers, unused ones zero. -/
def Chip.showResult (s : Chip) (d : Nat) (x : BlwSlot) : Chip :=
  ((s.setReg d (Reg.BLW_RESULT_DATA 0) (if 0 < x.count then x.w0 else 0)).setReg d (Reg.BLW_RESULT_DATA 1)
    (if 1 < x.count then x.w1 else 0)).setReg d (Reg.BLW_RESULT_DATA 2) (if 2 < x.count then x.w2 else 0)

theorem Chip.resultPop_item {s : Chip} {d : Nat} {i : BlwItem} {rest : List BlwItem} (h : s.blwQueue.get d = i :: rest) :
    s.resultPop d =
      (({ s with blwQueue := s.blwQueue.set d rest } : Chip).showResult d i.data |>.countDie d 27 1, i.head) := by
  simp [Chip.resultPop, h, Chip.showResult]

theorem Chip.showResult_data (s : Chip) (d : Nat) (x : BlwSlot) :
    (s.showResult d x).reg d (Reg.BLW_RESULT_DATA 0) = (if 0 < x.count then x.w0 else 0) ∧
    (s.showResult d x).reg d (Reg.BLW_RESULT_DATA 1) = (if 1 < x.count then x.w1 else 0) ∧
    (s.showResult d x).reg d (Reg.BLW_RESULT_DATA 2) = (if 2 < x.count then x.w2 else 0) := by
  have hne : ∀ i j, i < 3 → j < 3 → i ≠ j → regKey d (Reg.BLW_RESULT_DATA i) ≠ regKey d (Reg.BLW_RESULT_DATA j) := by
    intro i j hi hj hij
    exact regKey_ne (by unfold Reg.BLW_RESULT_DATA; omega) (by unfold Reg.BLW_RESULT_DATA; omega)
      (by unfold Reg.BLW_RESULT_DATA; omega)
  refine ⟨?_, ?_, ?_⟩ <;>
    simp [Chip.showResult, Chip.reg_setReg, hne]

theorem Chip.showResult_regsBut (s : Chip) (d : Nat) (x : BlwSlot) :
    RegsBut (fun d' off => d' = d ∧ ∃ k < 3, off = Reg.BLW_RESULT_DATA k) s (s.showResult d x) :=
  ((RegsBut.setReg _ _ (by decide) ⟨rfl, 0, by decide, rfl⟩).trans
    (RegsBut.setReg _ _ (by decide) ⟨rfl, 1, by decide, rfl⟩)).trans
    (RegsBut.setReg _ _ (by decide) ⟨rfl, 2, by decide, rfl⟩)

/-- What a POP of an item does: the words to the data registers, the item off the queue, and nothing else but a count. -/
theorem Chip.resultPop_spec {s : Chip} {d : Nat} {i : BlwItem} {rest : List BlwItem} (h : s.blwQueue.get d = i :: rest) :
    let c := (s.resultPop d).1
    c.blwQueue.get d = rest ∧ c.reg d (Reg.BLW_RESULT_DATA 0) = (if 0 < i.data.count then i.data.w0 else 0) ∧
      c.reg d (Reg.BLW_RESULT_DATA 1) = (if 1 < i.data.count then i.data.w1 else 0) ∧
      c.reg d (Reg.BLW_RESULT_DATA 2) = (if 2 < i.data.count then i.data.w2 else 0) ∧
      RegsBut (fun d' off => d' = d ∧ ∃ k < 3, off = Reg.BLW_RESULT_DATA k) s c ∧
      c = { s with blwQueue := c.blwQueue, regs := c.regs, pmc := c.pmc } := by
  rw [Chip.resultPop_item h]
  generalize ht : ({ s with blwQueue := s.blwQueue.set d rest } : Chip) = t
  have hqueue : t.blwQueue.get d = rest := by rw [← ht]; exact SMap.get_set_same _ _ _
  have hregs : t.regs = s.regs := by rw [← ht]
  have hcount := (t.showResult d i.data).countDie_onlyTasks d 27 1
  obtain ⟨h0, h1, h2⟩ := t.showResult_data d i.data
  refine ⟨?_, ?_, ?_, ?_, ?_, ?_⟩
  · rw [hcount.queue_eq]; exact hqueue
  · rw [Chip.reg_congr hcount.regs_eq, h0]
  · rw [Chip.reg_congr hcount.regs_eq, h1]
  · rw [Chip.reg_congr hcount.regs_eq, h2]
  · exact ((RegsBut.of_regs hregs).trans (t.showResult_regsBut d i.data)).trans (RegsBut.of_regs hcount.regs_eq)
  · show (t.showResult d i.data).countDie d 27 1 = _
    rw [Chip.countDie_frame, ← ht]; rfl

/-- A POP of an item returns its header word and does what the read does, and nothing else (R343). -/
theorem blwResultPop_item {s : State} {d : Die} (hr : s.chip.runs d = true) {i : BlwItem} {rest : List BlwItem}
    (hq : s.chip.blwQueue.get d = i :: rest) : Done (.blwResultPop d) s (fun c =>
      c.returned = [i.head] ∧ c.blwQueue.get d = rest ∧
      c.reg d (Reg.BLW_RESULT_DATA 0) = (if 0 < i.data.count then i.data.w0 else 0) ∧
      c.reg d (Reg.BLW_RESULT_DATA 1) = (if 1 < i.data.count then i.data.w1 else 0) ∧
      c.reg d (Reg.BLW_RESULT_DATA 2) = (if 2 < i.data.count then i.data.w2 else 0) ∧
      RegsBut (fun d' off => d' = d ∧ ∃ k < 3, off = Reg.BLW_RESULT_DATA k) s.chip c ∧
      c = { s.chip with returned := c.returned, blwQueue := c.blwQueue, regs := c.regs, pmc := c.pmc }) := by
  have hhead : (s.chip.resultPop d).2 = i.head := by rw [Chip.resultPop_item hq]
  have hspec := Chip.resultPop_spec hq
  refine Done.of_onDie (exec_blwResultPop d s) hr ?_
  generalize s.chip.resultPop d = r at hhead hspec ⊢
  obtain ⟨hqueue, h0, h1, h2, hregs, hframe⟩ := hspec
  exact ⟨congrArg (fun w => [w]) hhead, hqueue, h0, h1, h2, hregs,
    congrArg (fun c : Chip => { c with returned := [r.2] }) hframe⟩

end Sys2Proof.Machine
end

section
/-! PROOFS. A write of BLW_FLOW_f: the failure of the item at BASE, and what R345 and R346 allow. -/

namespace Sys2Proof.Machine

/-! ### Refused writes -/

theorem Chip.blwRefuse_onlyRegs (s : Chip) (d : Nat) : OnlyRegs s (s.blwRefuse d) := rfl

theorem Chip.blwRefuse_regsBut (s : Chip) (d : Nat) : RegsBut (OneReg d Reg.BLW_STATUS) s (s.blwRefuse d) :=
  RegsBut.setFlag s true (by decide) ⟨rfl, rfl⟩

theorem Chip.blwRefuse_flag (s : Chip) (d : Nat) : (s.blwRefuse d).flag d F.BLW_STATUS_REFUSED = true :=
  Chip.flag_setFlag_same s d _ true (by decide) rfl

theorem Chip.blwRefuse_spec (s : Chip) (d : Nat) : (s.blwRefuse d).flag d F.BLW_STATUS_REFUSED = true ∧
    OnlyRegs s (s.blwRefuse d) ∧ RegsBut (OneReg d Reg.BLW_STATUS) s (s.blwRefuse d) :=
  ⟨s.blwRefuse_flag d, s.blwRefuse_onlyRegs d, s.blwRefuse_regsBut d⟩

/-! ### Positions of a window -/

theorem SMap.mem_of_find? {α : Type} {m : SMap α} {k : Nat} {v : α} (h : SMap.find? m k = some v) : (k, v) ∈ m := by
  induction m with
  | nil => simp [SMap.find?] at h
  | cons e m ih =>
    obtain ⟨a, b⟩ := e
    by_cases ha : a = k
    · simp [SMap.find?, ha] at h; simp [ha, h]
    · simp only [SMap.find?, if_neg ha] at h
      exact List.mem_cons_of_mem _ (ih h)

/-- A flow with a marked position holds an item. -/
theorem Chip.marksOf_ne_nil_of_mark {s : Chip} {d flow seq : Nat} {m : BlwMark} (h : s.mark d flow seq = some m) :
    s.marksOf d flow ≠ [] := by
  have hfind : SMap.find? s.blwWindow (winKey d flow seq) = some (some m) := by
    unfold Chip.mark SMap.get SMap.getD at h
    split at h
    · next v hv => rw [hv, h]
    · exact absurd h (by simp [default])
  have hflow : winKey d flow seq / 2 ^ 20 = d * 1024 + flow := by unfold winKey; omega
  refine List.ne_nil_of_mem (a := (winKey d flow seq % 2 ^ 20, m)) ?_
  exact List.mem_filterMap.mpr ⟨_, SMap.mem_of_find? hfind, by simp only [hflow]; simp⟩

theorem Chip.distance_base (s : Chip) (d flow : Nat) : s.distance d flow (s.fld d (F.BLW_FLOW_BASE flow)) = 0 := by
  simp [Chip.distance]

/-! ### The failure of the item at BASE (R337, R345) -/

theorem Logged.of_before {a a' c : Chip} {d : Nat} {ev : Ev} {detail : Nat} (h : Logged a c d ev detail)
    (hn : a'.fld d F.DRN_LOG_STATUS_NEWEST = a.fld d F.DRN_LOG_STATUS_NEWEST) : Logged a' c d ev detail :=
  ⟨h.1, h.2.trans (by rw [hn])⟩

theorem Logged.of_after {a c c' : Chip} {d : Nat} {ev : Ev} {detail : Nat} (h : Logged a c d ev detail) (hl : c'.log = c.log)
    (hn : c'.fld d F.DRN_LOG_STATUS_NEWEST = c.fld d F.DRN_LOG_STATUS_NEWEST) : Logged a c' d ev detail := by
  obtain ⟨hnewest, hcount⟩ := h
  refine ⟨?_, hn.trans hcount⟩
  unfold NewestIs at hnewest ⊢
  rw [hl, hn]
  exact hnewest

/-- What a failure leaves in the registers of Bellows. -/
def Chip.noteFault (s : Chip) (d flow seq cause : Nat) : Chip :=
  (s.setFlag d (F.BLW_FLOW_STATUS_ERR_SEEN flow) true).setReg d Reg.BLW_FAULT (word (faultWord flow seq cause + 2 ^ 34))

/-- The item at BASE marked failed and its gated entries gone, before the failure is recorded. -/
def Chip.markFailed (s : Chip) (d flow seq cause tpl : Nat) : Chip :=
  let m := (s.mark d flow seq).getD { first := s.firstOf d flow seq }
  let s := s.setMark d flow seq (some { m with release := none, failed := some (cause, tpl) })
  let keys := (s.blwStore.filter (fun e => blwDie e.1 = d && blwFlow e.1 = flow && blwSeq e.1 = seq % 2 ^ 20 &&
    s.gated d (blwTpl e.1))).map (·.1)
  s.each keys (fun s k => s.dropEntry d k)

theorem Chip.failItem_of_near {s : Chip} {d flow seq : Nat} (h : s.distance d flow seq < 2 ^ 19) (cause tpl : Nat) :
    s.failItem d flow seq cause tpl =
      ((s.markFailed d flow seq cause tpl).noteFault d flow seq cause).logEv d Ev.blwItemError (faultWord flow seq cause) := by
  simp only [Chip.failItem, h, decide_true, Chip.when_true]
  rfl

theorem Chip.markFailed_mark (s : Chip) (d flow seq cause tpl : Nat) :
    ∃ m, (s.markFailed d flow seq cause tpl).mark d flow seq = some m ∧ m.failed = some (cause, tpl) ∧ m.release = none := by
  refine ⟨{ (s.mark d flow seq).getD { first := s.firstOf d flow seq } with release := none, failed := some (cause, tpl) },
    ?_, rfl, rfl⟩
  exact ((OnlyTasks.each (fun c k => c.dropEntry_onlyTasks d k) _ _).mark_eq d flow seq).trans (Chip.mark_setMark_same _ _ _ _ _)

theorem Chip.markFailed_fld (s : Chip) (d flow seq cause tpl d' : Nat) (f : Fld) :
    (s.markFailed d flow seq cause tpl).fld d' f = s.fld d' f :=
  (OnlyTasks.each (fun c k => c.dropEntry_onlyTasks d k) _ _).fld_eq d' f

theorem Chip.noteFault_mark (s : Chip) (d flow seq cause d' flow' seq' : Nat) :
    (s.noteFault d flow seq cause).mark d' flow' seq' = s.mark d' flow' seq' := rfl

theorem Chip.noteFault_fld (s : Chip) (d seq cause d' : Nat) {flow : Nat} (hf : flow < 1024) {f : Fld} (ho : f.off < 2 ^ 23)
    (hs : f.off ≠ Reg.BLW_FLOW_STATUS flow) (hr : f.off ≠ Reg.BLW_FAULT) :
    (s.noteFault d flow seq cause).fld d' f = s.fld d' f := by
  have hfault := Chip.setReg_regsBut (s.setFlag d (F.BLW_FLOW_STATUS_ERR_SEEN flow) true) (d := d) (off := Reg.BLW_FAULT)
    (word (faultWord flow seq cause + 2 ^ 34)) (by decide)
  have hseen : RegsBut (OneReg d (Reg.BLW_FLOW_STATUS flow)) s (s.setFlag d (F.BLW_FLOW_STATUS_ERR_SEEN flow) true) :=
    RegsBut.setFlag s true (by show 0x060801 + 2 * flow < 2 ^ 23; omega) ⟨rfl, rfl⟩
  exact (hfault.fld_of_off_ne ho hr).trans (hseen.fld_of_off_ne ho hs)

theorem bits_faultWord {flow cause : Nat} (hf : flow < 1024) (hc : cause < 16) (seq : Nat) :
    bits (word (faultWord flow seq cause + 2 ^ 34)) 30 4 = cause := by
  have hlt : faultWord flow seq cause + 2 ^ 34 < 2 ^ 36 := by unfold faultWord; omega
  simp only [bits, BitVec.toNat_ofNat, Nat.mod_eq_of_lt hlt, Nat.shiftRight_eq_div_pow]
  unfold faultWord
  omega

theorem Chip.noteFault_cause (s : Chip) (d seq : Nat) {flow cause : Nat} (hf : flow < 1024) (hc : cause < 16) :
    (s.noteFault d flow seq cause).fld d F.BLW_FAULT_CAUSE = cause :=
  (Chip.fld_setReg_same _ d F.BLW_FAULT_CAUSE _).trans (bits_faultWord hf hc seq)

/-- What the failure of an item in its window leaves: its position marked, the flow's BASE where it was, the cause in BLW_FAULT,
and the event newest in the log. -/
structure ItemFailed (s c : Chip) (d flow seq cause tpl : Nat) : Prop where
  mark : ∃ m, c.mark d flow seq = some m ∧ m.failed = some (cause, tpl) ∧ m.release = none
  base : c.fld d (F.BLW_FLOW_BASE flow) = s.fld d (F.BLW_FLOW_BASE flow)
  fault : c.fld d F.BLW_FAULT_CAUSE = cause
  logged : Logged s c d Ev.blwItemError (faultWord flow seq cause)

theorem Chip.failItem_failed {s : Chip} {d flow seq cause : Nat} (hd : d < 4) (hf : flow < 1024) (hc : cause < 16)
    (h : s.distance d flow seq < 2 ^ 19) (tpl : Nat) : ItemFailed s (s.failItem d flow seq cause tpl) d flow seq cause tpl := by
  rw [Chip.failItem_of_near h]
  generalize ht : (s.markFailed d flow seq cause tpl).noteFault d flow seq cause = t
  have hmark : ∃ m, t.mark d flow seq = some m ∧ m.failed = some (cause, tpl) ∧ m.release = none := by
    rw [← ht, Chip.noteFault_mark]; exact s.markFailed_mark d flow seq cause tpl
  have hfld : ∀ f : Fld, f.off < 2 ^ 23 → f.off ≠ Reg.BLW_FLOW_STATUS flow → f.off ≠ Reg.BLW_FAULT →
      t.fld d f = s.fld d f := by
    intro f ho hs hr
    rw [← ht, Chip.noteFault_fld _ d seq cause d hf ho hs hr, Chip.markFailed_fld]
  have hcause : t.fld d F.BLW_FAULT_CAUSE = cause := by rw [← ht]; exact Chip.noteFault_cause _ d seq hf hc
  have hnewest := hfld F.DRN_LOG_STATUS_NEWEST (by decide) (by show 0x000005 ≠ 0x060801 + 2 * flow; omega) (by decide)
  have hwindow : (t.logEv d Ev.blwItemError (faultWord flow seq cause)).blwWindow = t.blwWindow := by rw [t.logEv_only d]
  constructor
  · obtain ⟨m, hm, hrest⟩ := hmark
    exact ⟨m, by unfold Chip.mark at hm ⊢; rw [hwindow, hm], hrest⟩
  · have ho : (F.BLW_FLOW_BASE flow).off < 2 ^ 23 := by show 0x060800 + 2 * flow < 2 ^ 23; omega
    rw [Chip.logEv_fld _ _ _ _ _ ho (by show 0x060800 + 2 * flow ≠ 0x000005; omega)]
    exact hfld _ ho (by show 0x060800 + 2 * flow ≠ 0x060801 + 2 * flow; omega) (by show 0x060800 + 2 * flow ≠ 0x060008; omega)
  · rw [Chip.logEv_fld _ _ _ _ _ (by decide) (by decide), hcause]
  · exact (Chip.logEv_newest t hd (by decide) (by decide) _).of_before hnewest.symm

/-! ### BLW_FLOW_f written (R345, R346) -/

/-- BASE and EN of a flow as a write of BLW_FLOW_f gives them. -/
def Chip.flowSet (s : Chip) (d flow : Nat) (v : W36) : Chip :=
  (s.setFld d (F.BLW_FLOW_BASE flow) (bits v 0 20)).setFld d (F.BLW_FLOW_EN flow) (bits v 20 1)

/-- Whether a write of BLW_FLOW_f would move BASE or clear EN. -/
def Chip.flowMoves (s : Chip) (d flow : Nat) (v : W36) : Bool :=
  bits v 0 20 != s.fld d (F.BLW_FLOW_BASE flow) || (s.flag d (F.BLW_FLOW_EN flow) && !bit v 20)

/-- Whether a flow holds an item: in its window or in a gated entry. -/
def Chip.flowHolds (s : Chip) (d flow : Nat) : Bool :=
  !(s.marksOf d flow).isEmpty || s.blwStore.any (fun e => blwDie e.1 = d && blwFlow e.1 = flow && s.gated d (blwTpl e.1))

theorem Chip.flowSet_onlyRegs (s : Chip) (d flow : Nat) (v : W36) : OnlyRegs s (s.flowSet d flow v) := rfl

theorem Chip.flowSet_regsBut (s : Chip) (d : Nat) {flow : Nat} (hf : flow < 1024) (v : W36) :
    RegsBut (OneReg d (Reg.BLW_FLOW flow)) s (s.flowSet d flow v) := by
  have ho : Reg.BLW_FLOW flow < 2 ^ 23 := by unfold Reg.BLW_FLOW; omega
  exact (RegsBut.setFld s _ ho ⟨rfl, rfl⟩).trans (RegsBut.setFld _ _ ho ⟨rfl, rfl⟩)

theorem Chip.flowSet_base (s : Chip) (d flow : Nat) (v : W36) :
    (s.flowSet d flow v).fld d (F.BLW_FLOW_BASE flow) = bits v 0 20 := by
  rw [Chip.flowSet,
    Chip.fld_setFld_bits (f := F.BLW_FLOW_EN flow) (f' := F.BLW_FLOW_BASE flow) _ d _ rfl (.inl (by decide : 0 + 20 ≤ 20)),
    Chip.fld_setFld_same _ _ _ _ (by decide : 0 + 20 ≤ 36)]
  exact Nat.mod_eq_of_lt (bits_lt v 0 20)

theorem Chip.flowSet_en (s : Chip) (d flow : Nat) (v : W36) : (s.flowSet d flow v).flag d (F.BLW_FLOW_EN flow) = bit v 20 := by
  rw [Chip.flag, Chip.flowSet, Chip.fld_setFld_same _ _ _ _ (by decide : 20 + 1 ≤ 36), bits_one]
  cases bit v 20 <;> rfl

/-- What a write of BLW_FLOW_f does once FAIL_HEAD has had its effect, as moves tells whether it would move BASE or clear EN. -/
def Chip.flowRest (s : Chip) (d flow : Nat) (v : W36) (moves : Bool) : Chip :=
  if moves && s.flowHolds d flow then s.blwRefuse d else s.flowSet d flow v

theorem Chip.blwFlowWrite_eq (s : Chip) (d flow : Nat) (v : W36) :
    s.blwFlowWrite d flow v =
      (s.when (bit v 21 && (s.marksOf d flow).any (fun m => s.distance d flow m.1 < 256))
        (fun s' => s'.failItem d flow (s.fld d (F.BLW_FLOW_BASE flow)) Cause.failHead 256)).flowRest d flow v
          (s.flowMoves d flow v) := by
  unfold Chip.blwFlowWrite Chip.flowRest
  rfl

theorem Chip.blwFlowWrite_plain {s : Chip} {d flow : Nat} {v : W36}
    (h : bit v 21 = false ∨ (s.marksOf d flow).any (fun m => s.distance d flow m.1 < 256) = false) :
    s.blwFlowWrite d flow v = s.flowRest d flow v (s.flowMoves d flow v) := by
  have hfail : (bit v 21 && (s.marksOf d flow).any (fun m => s.distance d flow m.1 < 256)) = false := by
    rcases h with h | h <;> simp only [h, Bool.false_and, Bool.and_false]
  rw [Chip.blwFlowWrite_eq, hfail, Chip.when_false]

theorem Chip.blwFlowWrite_failHead {s : Chip} {d flow : Nat} {v : W36} (h21 : bit v 21 = true)
    (h : (s.marksOf d flow).any (fun m => s.distance d flow m.1 < 256) = true) :
    s.blwFlowWrite d flow v =
      (s.failItem d flow (s.fld d (F.BLW_FLOW_BASE flow)) Cause.failHead 256).flowRest d flow v (s.flowMoves d flow v) := by
  rw [Chip.blwFlowWrite_eq, h21, h, Bool.and_self, Chip.when_true]

theorem Chip.flowHolds_of_marksOf {s : Chip} {d flow : Nat} (h : s.marksOf d flow ≠ []) : s.flowHolds d flow = true := by
  simp [Chip.flowHolds, h]

/-- A failed item stays failed, and its flow's BASE where it was, through the rest of the write that failed it. -/
theorem ItemFailed.of_regs {s t c : Chip} {d flow seq cause tpl : Nat} (h : ItemFailed s t d flow seq cause tpl) (honly : OnlyRegs t c)
    (hbase : c.fld d (F.BLW_FLOW_BASE flow) = t.fld d (F.BLW_FLOW_BASE flow))
    (hrest : ∀ f : Fld, f = F.BLW_FAULT_CAUSE ∨ f = F.DRN_LOG_STATUS_NEWEST → c.fld d f = t.fld d f) :
    ItemFailed s c d flow seq cause tpl where
  mark := by
    have hwindow : c.blwWindow = t.blwWindow := by rw [honly]
    obtain ⟨m, hm, hm'⟩ := h.mark
    exact ⟨m, by unfold Chip.mark at hm ⊢; rw [hwindow, hm], hm'⟩
  base := hbase.trans h.base
  fault := (hrest _ (.inl rfl)).trans h.fault
  logged := h.logged.of_after honly.log_eq (hrest _ (.inr rfl))

theorem Chip.blwFlowWrite_failed {s : Chip} {d flow : Nat} {v : W36} (hd : d < 4) (hf : flow < 1024) (h21 : bit v 21 = true)
    (h : (s.marksOf d flow).any (fun m => s.distance d flow m.1 < 256) = true) :
    ItemFailed s (s.blwFlowWrite d flow v) d flow (s.fld d (F.BLW_FLOW_BASE flow)) Cause.failHead 256 := by
  have hnear : s.distance d flow (s.fld d (F.BLW_FLOW_BASE flow)) < 2 ^ 19 := by rw [Chip.distance_base]; decide
  have hfailed := Chip.failItem_failed hd hf (by decide : Cause.failHead < 16) hnear 256
  rw [Chip.blwFlowWrite_failHead h21 h]
  generalize s.failItem d flow (s.fld d (F.BLW_FLOW_BASE flow)) Cause.failHead 256 = t at hfailed ⊢
  have hholds : t.flowHolds d flow = true := by
    obtain ⟨m, hm, -⟩ := hfailed.mark
    exact Chip.flowHolds_of_marksOf (Chip.marksOf_ne_nil_of_mark hm)
  have hne : ∀ f : Fld, f = F.BLW_FAULT_CAUSE ∨ f = F.DRN_LOG_STATUS_NEWEST →
      f.off < 2 ^ 23 ∧ f.off ≠ Reg.BLW_STATUS ∧ f.off ≠ Reg.BLW_FLOW flow := by
    rintro f (rfl | rfl)
    · exact ⟨by decide, by decide, by show 0x060008 ≠ 0x060800 + 2 * flow; omega⟩
    · exact ⟨by decide, by decide, by show 0x000005 ≠ 0x060800 + 2 * flow; omega⟩
  unfold Chip.flowRest
  rw [hholds, Bool.and_true]
  cases hmoves : s.flowMoves d flow v with
  | true =>
    refine hfailed.of_regs (t.blwRefuse_onlyRegs d) ?_ (fun f hmem => ?_)
    · exact (t.blwRefuse_regsBut d).fld_of_off_ne (by show 0x060800 + 2 * flow < 2 ^ 23; omega)
        (by show 0x060800 + 2 * flow ≠ 0x060001; omega)
    · obtain ⟨ho, hs, -⟩ := hne f hmem
      exact (t.blwRefuse_regsBut d).fld_of_off_ne ho hs
  | false =>
    have hbase : bits v 0 20 = s.fld d (F.BLW_FLOW_BASE flow) := by
      simp only [Chip.flowMoves, Bool.or_eq_false_iff, bne_eq_false_iff_eq] at hmoves
      exact hmoves.1
    refine hfailed.of_regs (t.flowSet_onlyRegs d flow v) ?_ (fun f hmem => ?_)
    · exact (t.flowSet_base d flow v).trans (hbase.trans hfailed.base.symm)
    · obtain ⟨ho, -, hs⟩ := hne f hmem
      exact (t.flowSet_regsBut d hf v).fld_of_off_ne ho hs

theorem exec_failHead (d : Die) (flow : Fin 1024) (v : W36) (s : State) :
    exec (.failHead d flow v) s = s.onDie d (fun c => c.blwFlowWrite d flow (v ||| 0x200000)) := rfl

theorem exec_blwFlowWrite (d : Die) (flow : Fin 1024) (v : W36) (s : State) :
    exec (.blwFlowWrite d flow v) s = s.onDie d (fun c => c.blwFlowWrite d flow v) := rfl

theorem bit_failHead (v : W36) : bit (v ||| 0x200000) 21 = true := by
  rw [bit_or, show bit (0x200000 : W36) 21 = true by decide, Bool.or_true]

/-- A write of BLW_FLOW_f that fails no item writes registers only. -/
theorem Chip.blwFlowWrite_onlyRegs {s : Chip} {d flow : Nat} {v : W36}
    (h : bit v 21 = false ∨ (s.marksOf d flow).any (fun m => s.distance d flow m.1 < 256) = false) :
    OnlyRegs s (s.blwFlowWrite d flow v) := by
  rw [Chip.blwFlowWrite_plain h, Chip.flowRest]
  split
  · exact s.blwRefuse_onlyRegs d
  · exact s.flowSet_onlyRegs d flow v

/-- A flow that holds no item takes a write of BLW_FLOW_f (R346). -/
theorem Chip.blwFlowWrite_of_empty {s : Chip} {d flow : Nat} {v : W36} (h21 : bit v 21 = false) (hm : s.marksOf d flow = [])
    (hs : s.blwStore.any (fun e => blwDie e.1 = d && blwFlow e.1 = flow && s.gated d (blwTpl e.1)) = false) :
    s.blwFlowWrite d flow v = s.flowSet d flow v := by
  have hholds : s.flowHolds d flow = false := by simp only [Chip.flowHolds, hm, hs]; rfl
  rw [Chip.blwFlowWrite_plain (.inl h21), Chip.flowRest, hholds, Bool.and_false]
  rfl

/-- A flow that holds an item refuses to move BASE and to clear EN (R346). -/
theorem Chip.blwFlowWrite_of_moves {s : Chip} {d flow : Nat} {v : W36} (h21 : bit v 21 = false) (hm : s.marksOf d flow ≠ [])
    (hv : bits v 0 20 ≠ s.fld d (F.BLW_FLOW_BASE flow) ∨ (s.flag d (F.BLW_FLOW_EN flow) = true ∧ bit v 20 = false)) :
    s.blwFlowWrite d flow v = s.blwRefuse d := by
  have hmoves : s.flowMoves d flow v = true := by simpa [Chip.flowMoves] using hv
  rw [Chip.blwFlowWrite_plain (.inl h21), Chip.flowRest, hmoves, Chip.flowHolds_of_marksOf hm]
  rfl

end Sys2Proof.Machine
end

section
/-! PROOFS. Writes of templates, of BLW_CTRL with HIST_CLR, and of BLW_FABPORT_q (R307, R324, R326, R351). -/

namespace Sys2Proof.Machine

/-! ### A register written by its row (R11) -/

/-- A register of a row written: the word that its access types make of the old one. -/
def RegRow.writes (r : RegRow) (old w : W36) : W36 := r.flds.foldl (fun old f => f.written old w) old

/-- A bit of a register whose fields are all RW takes the written bit wherever some field covers it. -/
theorem getLsbD_foldl_written {flds : List FldRow} {w old : W36} {i : Nat} (hi : i < 36) (hrw : ∀ g ∈ flds, g.acc = .rw)
    (h : (∃ g ∈ flds, g.lo ≤ i ∧ i < g.lo + g.width) ∨ old.getLsbD i = w.getLsbD i) :
    (flds.foldl (fun old f => f.written old w) old).getLsbD i = w.getLsbD i := by
  induction flds generalizing old with
  | nil => simpa using h
  | cons g gs ih =>
    have hacc : g.acc = .rw := hrw g (by simp)
    have hstep : (g.written old w).getLsbD i = if g.lo ≤ i ∧ i < g.lo + g.width then w.getLsbD i else old.getLsbD i := by
      simp only [FldRow.written, hacc, getLsbD_putBits _ _ _ _ _ hi]
      split
      · next hin =>
        have hwidth : i - g.lo < g.width := by omega
        rw [testBit_bits, show g.lo + (i - g.lo) = i by omega, decide_eq_true hwidth, Bool.true_and]
      · rfl
    refine ih (fun f hf => hrw f (by simp [hf])) ?_
    by_cases hin : g.lo ≤ i ∧ i < g.lo + g.width
    · exact .inr (by rw [hstep, if_pos hin])
    · rcases h with ⟨f, hf, hcov⟩ | hold
      · rcases List.mem_cons.mp hf with rfl | hf
        · exact absurd hcov hin
        · exact .inl ⟨f, hf, hcov⟩
      · exact .inr (by rw [hstep, if_neg hin, hold])

/-- After a write of a register whose fields are all RW, each of its fields reads as written. -/
theorem RegRow.bits_writes {r : RegRow} {f : FldRow} (hf : f ∈ r.flds) (hrw : ∀ g ∈ r.flds, g.acc = .rw)
    (hfit : f.lo + f.width ≤ 36) (old w : W36) : bits (r.writes old w) f.lo f.width = bits w f.lo f.width := by
  apply Nat.eq_of_testBit_eq
  intro i
  rw [testBit_bits, testBit_bits]
  by_cases hi : i < f.width
  · rw [RegRow.writes, getLsbD_foldl_written (by omega) hrw (.inl ⟨f, hf, by omega, by omega⟩)]
  · simp [hi]

/-- The fields of a register whose fields are all RW, after a write of it. -/
theorem Chip.fld_setReg_writes {r : RegRow} (hrw : ∀ g ∈ r.flds, g.acc = .rw) (hfit : ∀ g ∈ r.flds, g.lo + g.width ≤ 36)
    (s : Chip) (d off : Nat) (v : W36) : ∀ g ∈ r.flds,
      (s.setReg d off (r.writes (s.reg d off) v)).fld d ⟨off, g.lo, g.width⟩ = bits v g.lo g.width :=
  fun g hg => (Chip.fld_setReg_same s d ⟨off, g.lo, g.width⟩ _).trans (RegRow.bits_writes hg hrw (hfit g hg) _ v)

theorem flag_of_bits {s : Chip} {d : Nat} {f : Fld} {v : W36} {i : Nat} (h : s.fld d f = bits v i 1) : s.flag d f = bit v i := by
  simp [Chip.flag, h, bits_one]

/-! ### Templates (R307) -/

theorem exec_blwTplWrite (d : Die) (t : Fin 256) (isB : Bool) (v : W36) (s : State) :
    exec (.blwTplWrite d t isB v) s = s.onDie d (fun c => c.blwTplWrite d t isB v) := rfl

theorem Chip.blwTplWrite_of_inUse {s : Chip} {d t : Nat} (h : s.tplInUse d t = true) (isB : Bool) (v : W36) :
    s.blwTplWrite d t isB v = s.blwRefuse d := by simp [Chip.blwTplWrite, h]

theorem Chip.blwTplWrite_A {s : Chip} {d t : Nat} (ht : t < 256) (h : s.tplInUse d t = false) (v : W36) :
    s.blwTplWrite d t false v = s.setReg d (Reg.BLW_TPL_A t) (tplARow.writes (s.reg d (Reg.BLW_TPL_A t)) v) := by
  simp [Chip.blwTplWrite, h, Chip.plainWrite_of_findRow s d v (findRow_tplA ht), RegRow.writes]

theorem Chip.blwTplWrite_B {s : Chip} {d t : Nat} (ht : t < 256) (h : s.tplInUse d t = false) (v : W36) :
    s.blwTplWrite d t true v = s.setReg d (Reg.BLW_TPL_B t) (tplBRow.writes (s.reg d (Reg.BLW_TPL_B t)) v) := by
  simp [Chip.blwTplWrite, h, Chip.plainWrite_of_findRow s d v (findRow_tplB ht), RegRow.writes]

theorem blwTplWrite_A_done {s : State} {d : Die} (t : Fin 256) (v : W36) (hr : s.chip.runs d = true)
    (h : s.chip.tplInUse d t = false) : Done (.blwTplWrite d t false v) s (fun c =>
      c.fld d (F.BLW_TPL_A_ARITY_M1 t) = bits v 0 2 ∧ c.fld d (F.BLW_TPL_A_CLASS t) = bits v 2 4 ∧
      c.fld d (F.BLW_TPL_A_PRIORITY t) = bits v 6 3 ∧ c.fld d (F.BLW_TPL_A_RETRY_MAX t) = bits v 9 3 ∧
      c.flag d (F.BLW_TPL_A_GATE t) = bit v 12 ∧ c.flag d (F.BLW_TPL_A_VALID t) = bit v 13 ∧
      c.flag d (F.BLW_TPL_A_FORWARD t) = bit v 14 ∧ c.fld d (F.BLW_TPL_A_HOME t) = bits v 15 2 ∧
      c.fld d (F.BLW_TPL_A_REMOTE t) = bits v 17 8 ∧ OnlyRegs s.chip c ∧ RegsBut (OneReg d (Reg.BLW_TPL_A t)) s.chip c) := by
  refine Done.of_result (exec_blwTplWrite d t false v s) hr (Chip.blwTplWrite_A t.isLt h v) ?_
  have hfld := Chip.fld_setReg_writes (r := tplARow) (by decide) (by decide) s.chip d (Reg.BLW_TPL_A t) v
  simp only [tplARow, List.forall_mem_cons] at hfld
  obtain ⟨hArity, hClass, hPriority, hRetry, hGate, hValid, hForward, hHome, hRemote, -⟩ := hfld
  exact ⟨hArity, hClass, hPriority, hRetry, flag_of_bits hGate, flag_of_bits hValid, flag_of_bits hForward, hHome, hRemote,
    OnlyRegs.setReg _ _ _ _, Chip.setReg_regsBut _ _ (by unfold Reg.BLW_TPL_A; omega)⟩

theorem blwTplWrite_B_done {s : State} {d : Die} (t : Fin 256) (v : W36) (hr : s.chip.runs d = true)
    (h : s.chip.tplInUse d t = false) : Done (.blwTplWrite d t true v) s (fun c =>
      c.fld d (F.BLW_TPL_B_TIMEOUT t) = bits v 0 12 ∧ c.fld d (F.BLW_TPL_B_REL_KIND t) = bits v 12 2 ∧
      c.fld d (F.BLW_TPL_B_REL_TPL t) = bits v 14 8 ∧ c.fld d (F.BLW_TPL_B_REL_SLOT t) = bits v 22 2 ∧
      c.fld d (F.BLW_TPL_B_FREE_TPL t) = bits v 24 8 ∧ OnlyRegs s.chip c ∧ RegsBut (OneReg d (Reg.BLW_TPL_B t)) s.chip c) := by
  refine Done.of_result (exec_blwTplWrite d t true v s) hr (Chip.blwTplWrite_B t.isLt h v) ?_
  have hfld := Chip.fld_setReg_writes (r := tplBRow) (by decide) (by decide) s.chip d (Reg.BLW_TPL_B t) v
  simp only [tplBRow, List.forall_mem_cons] at hfld
  obtain ⟨hTimeout, hKind, hTpl, hSlot, hFree, -⟩ := hfld
  exact ⟨hTimeout, hKind, hTpl, hSlot, hFree, OnlyRegs.setReg _ _ _ _, Chip.setReg_regsBut _ _ (by unfold Reg.BLW_TPL_B; omega)⟩

/-! ### BLW_CTRL (R351) -/

theorem exec_histClr (d : Die) (v : W36) (s : State) :
    exec (.histClr d v) s = s.onDie d (fun c => c.blwCtrlWrite d (v ||| 4)) := rfl

/-- RUN and DEBUG_STEAL as a write of BLW_CTRL gives them, and the histogram at zero. -/
def Chip.ctrlCleared (s : Chip) (d : Nat) (v : W36) : Chip :=
  (s.setReg d Reg.BLW_CTRL (blwCtrlRow.writes (s.reg d Reg.BLW_CTRL) v)).histClear d

theorem Chip.blwCtrlWrite_clears (s : Chip) (d : Nat) {v : W36} (h : bit v 2 = true) :
    s.blwCtrlWrite d v =
      (s.ctrlCleared d v).when ((s.ctrlCleared d v).flag d F.BLW_CTRL_DEBUG_STEAL) (fun s => s.stealHeld d) := by
  simp only [Chip.blwCtrlWrite, Chip.plainWrite_of_findRow s d v findRow_blwCtrl, h, Chip.when_true]
  rfl

theorem Chip.ctrlCleared_onlyRegs (s : Chip) (d : Nat) (v : W36) : OnlyRegs s (s.ctrlCleared d v) := rfl

theorem Chip.ctrlCleared_ctrl (s : Chip) (d : Nat) (v : W36) :
    (s.ctrlCleared d v).reg d Reg.BLW_CTRL = blwCtrlRow.writes (s.reg d Reg.BLW_CTRL) v := by
  rw [Chip.ctrlCleared, Chip.histClear, Chip.reg_resetRegs, if_neg, Chip.reg_setReg_same]
  simp only [regKey, Reg.BLW_CTRL, Reg.BLW_WAIT]
  omega

theorem blwCtrlRow_writes (old w : W36) :
    blwCtrlRow.writes old w = putBits (putBits old 0 1 (bits w 0 1)) 1 1 (bits w 1 1) := rfl

theorem blwCtrlRow_run (old w : W36) : bits (blwCtrlRow.writes old w) 0 1 = bits w 0 1 := by
  rw [blwCtrlRow_writes, bits_putBits_other _ _ _ _ _ _ (by decide), bits_putBits_same _ _ _ _ (by decide)]
  exact Nat.mod_eq_of_lt (bits_lt w 0 1)

theorem blwCtrlRow_steal (old w : W36) : bits (blwCtrlRow.writes old w) 1 1 = bits w 1 1 := by
  rw [blwCtrlRow_writes, bits_putBits_same _ _ _ _ (by decide)]
  exact Nat.mod_eq_of_lt (bits_lt w 1 1)

theorem Chip.ctrlCleared_run (s : Chip) (d : Nat) (v : W36) : (s.ctrlCleared d v).flag d F.BLW_CTRL_RUN = bit v 0 :=
  flag_of_bits ((congrArg (fun r => bits r 0 1) (s.ctrlCleared_ctrl d v)).trans (blwCtrlRow_run _ v))

theorem Chip.ctrlCleared_steal (s : Chip) (d : Nat) (v : W36) : (s.ctrlCleared d v).flag d F.BLW_CTRL_DEBUG_STEAL = bit v 1 :=
  flag_of_bits ((congrArg (fun r => bits r 1 1) (s.ctrlCleared_ctrl d v)).trans (blwCtrlRow_steal _ v))

theorem Chip.ctrlCleared_wait (s : Chip) (d : Nat) (v : W36) {cls b : Nat} (hc : cls < 16) (hb : b < 16) :
    (s.ctrlCleared d v).fld d (F.BLW_WAIT_COUNT cls b) = 0 := by
  have hreg : (s.ctrlCleared d v).reg d (Reg.BLW_WAIT cls b) = 0 := by
    rw [Chip.ctrlCleared, Chip.histClear, Chip.reg_resetRegs, if_pos, resetWord_wait hc hb]
    simp only [regKey, Reg.BLW_WAIT]
    omega
  show bits ((s.ctrlCleared d v).reg d (Reg.BLW_WAIT cls b)) 0 36 = 0
  rw [hreg]; rfl

theorem Chip.blwCtrlWrite_onlyTasks (s : Chip) (d : Nat) {v : W36} (h : bit v 2 = true) :
    OnlyTasks (s.ctrlCleared d v) (s.blwCtrlWrite d v) := by
  rw [Chip.blwCtrlWrite_clears s d h]
  exact OnlyTasks.when (Chip.stealHeld_onlyTasks _ d)

theorem Chip.blwCtrlWrite_quiet (s : Chip) (d : Nat) {v : W36} (h : bit v 2 = true) (h1 : bit v 1 = false) :
    s.blwCtrlWrite d v = s.ctrlCleared d v := by
  rw [Chip.blwCtrlWrite_clears s d h, Chip.ctrlCleared_steal, h1, Chip.when_false]

/-- A write of BLW_CTRL with HIST_CLR zeroes the histogram, whatever DEBUG_STEAL then does to halted cores' tasks (R322, R351). -/
theorem histClr_done {s : State} {d : Die} (v : W36) (hr : s.chip.runs d = true) : Done (.histClr d v) s (fun c =>
    (∀ cls b : Fin 16, c.fld d (F.BLW_WAIT_COUNT cls b) = 0) ∧ c.flag d F.BLW_CTRL_RUN = bit v 0 ∧
      c.flag d F.BLW_CTRL_DEBUG_STEAL = bit v 1 ∧ (bit v 1 = false → OnlyRegs s.chip c)) := by
  have h2 : bit (v ||| 4) 2 = true := by rw [bit_or, show bit (4 : W36) 2 = true by decide, Bool.or_true]
  have h0 : bit (v ||| 4) 0 = bit v 0 := by rw [bit_or, show bit (4 : W36) 0 = false by decide, Bool.or_false]
  have h1 : bit (v ||| 4) 1 = bit v 1 := by rw [bit_or, show bit (4 : W36) 1 = false by decide, Bool.or_false]
  have htasks := s.chip.blwCtrlWrite_onlyTasks d h2
  refine Done.of_onDie (exec_histClr d v s) hr ⟨fun cls b => ?_, ?_, ?_, fun hsteal => ?_⟩
  · rw [htasks.fld_eq, Chip.ctrlCleared_wait _ _ _ cls.isLt b.isLt]
  · rw [htasks.flag_eq, Chip.ctrlCleared_run, h0]
  · rw [htasks.flag_eq, Chip.ctrlCleared_steal, h1]
  · rw [Chip.blwCtrlWrite_quiet _ _ h2 (h1.trans hsteal)]
    exact Chip.ctrlCleared_onlyRegs _ _ _

/-! ### BLW_FABPORT_q written (R324, R326) -/

theorem exec_blwFabportWrite (d : Die) (q : Fin 128) (v : W36) (s : State) :
    exec (.blwFabportWrite d q v) s = s.onDie d (fun c => c.blwFabportWrite d q v) := rfl

/-- BLW_FABPORT_q as a write by its table leaves it. -/
def Chip.fabportSet (s : Chip) (d q : Nat) (v : W36) : Chip :=
  s.setReg d (Reg.BLW_FABPORT q) (fabportRow.writes (s.reg d (Reg.BLW_FABPORT q)) v)

theorem Chip.blwFabportWrite_cascaded {s : Chip} {d q : Nat} {v : W36} (h0 : bit v 0 = true)
    (hc : s.cascaded d (fabRam d q) = true) : s.blwFabportWrite d q v = s.blwRefuse d := by
  simp [Chip.blwFabportWrite, h0, hc]

theorem Chip.blwFabportWrite_on {s : Chip} {d q : Nat} {v : W36} (hq : q < 128) (h0 : bit v 0 = true)
    (hc : s.cascaded d (fabRam d q) = false) : s.blwFabportWrite d q v = (s.fabportSet d q v).fabPortStart d q := by
  simp [Chip.blwFabportWrite, h0, hc, Chip.plainWrite_of_findRow s d v (findRow_fabport hq), Chip.fabportSet, RegRow.writes]

theorem Chip.blwFabportWrite_off {s : Chip} {d q : Nat} {v : W36} (hq : q < 128) (h0 : bit v 0 = false) :
    s.blwFabportWrite d q v = s.fabportSet d q v := by
  simp [Chip.blwFabportWrite, h0, Chip.plainWrite_of_findRow s d v (findRow_fabport hq), Chip.fabportSet, RegRow.writes]

theorem fabportRow_writes (old w : W36) :
    fabportRow.writes old w = putBits old 0 1 (bits w 0 1) &&& ~~~putBits 0 15 1 (bits w 15 1) := rfl

/-- A bit that a W1C write of another field leaves. -/
theorem bits_and_not_putBits (x : W36) (lo width lo' width' v : Nat) (h : lo' + width' ≤ lo) (hfit : lo + width ≤ 36) :
    bits (x &&& ~~~putBits 0 lo width v) lo' width' = bits x lo' width' := by
  apply Nat.eq_of_testBit_eq
  intro i
  rw [testBit_bits, testBit_bits]
  by_cases hi : i < width'
  · have hn : lo' + i < 36 := by omega
    have hout : (putBits (0 : W36) lo width v).getLsbD (lo' + i) = false := by
      rw [getLsbD_putBits _ _ _ _ _ hn, if_neg (by omega)]
      exact BitVec.getLsbD_zero
    rw [BitVec.getLsbD_and, BitVec.getLsbD_not, hout]
    simp [hn]
  · simp [hi]

theorem fabportRow_en (old w : W36) : bits (fabportRow.writes old w) 0 1 = bits w 0 1 := by
  rw [fabportRow_writes, bits_and_not_putBits _ _ _ _ _ _ (by decide) (by decide), bits_putBits_same _ _ _ _ (by decide)]
  exact Nat.mod_eq_of_lt (bits_lt w 0 1)

theorem fabportRow_rings (old w : W36) : bits (fabportRow.writes old w) 1 14 = bits old 1 14 := by
  rw [fabportRow_writes, bits_and_not_putBits _ _ _ _ _ _ (by decide) (by decide), bits_putBits_other _ _ _ _ _ _ (by decide)]

/-- Writing 1 to CHECK_SEEN clears it. -/
theorem fabportRow_checkSeen (old : W36) {w : W36} (h : bit w 15 = true) : bits (fabportRow.writes old w) 15 1 = 0 := by
  rw [fabportRow_writes, bits_one w 15, h, bits_one]
  have hbit : (putBits (0 : W36) 15 1 (ofBool true)).getLsbD 15 = true := by decide
  rw [bit_eq_getLsbD, BitVec.getLsbD_and, BitVec.getLsbD_not, hbit]
  simp [ofBool]

theorem Chip.fabportSet_reg (s : Chip) (d q : Nat) (v : W36) :
    (s.fabportSet d q v).reg d (Reg.BLW_FABPORT q) = fabportRow.writes (s.reg d (Reg.BLW_FABPORT q)) v :=
  Chip.reg_setReg_same s d _ _

theorem Chip.fabportSet_regsBut (s : Chip) (d : Nat) {q : Nat} (hq : q < 128) (v : W36) :
    RegsBut (OneReg d (Reg.BLW_FABPORT q)) s (s.fabportSet d q v) :=
  Chip.setReg_regsBut s _ (by unfold Reg.BLW_FABPORT; omega)

theorem Chip.fabportSet_en (s : Chip) (d q : Nat) (v : W36) : (s.fabportSet d q v).flag d (F.BLW_FABPORT_EN q) = bit v 0 :=
  flag_of_bits ((congrArg (fun r => bits r 0 1) (s.fabportSet_reg d q v)).trans (fabportRow_en _ v))

theorem Chip.fabPortStart_reg (s : Chip) (d q : Nat) :
    (s.fabPortStart d q).reg d (Reg.BLW_FABPORT q) = putBits (s.reg d (Reg.BLW_FABPORT q)) 1 14 0 :=
  Chip.reg_setReg_same s d _ _

theorem Chip.fabPortStart_mail (s : Chip) (d q : Nat) : (s.fabPortStart d q).mail d q = {} := by
  simp [Chip.fabPortStart, Chip.mail, Chip.onMail]

/-- Starting a port's rings touches the fields of the rings alone. -/
theorem Chip.fabPortStart_fld (s : Chip) (d q lo : Nat) (h : lo + 1 ≤ 1 ∨ 1 + 14 ≤ lo) :
    (s.fabPortStart d q).fld d ⟨Reg.BLW_FABPORT q, lo, 1⟩ = s.fld d ⟨Reg.BLW_FABPORT q, lo, 1⟩ := by
  show bits ((s.fabPortStart d q).reg d (Reg.BLW_FABPORT q)) lo 1 = _
  rw [Chip.fabPortStart_reg, bits_putBits_other _ _ _ _ _ _ h]
  rfl

/-- A port enabled where its tile is not cascaded starts both rings at slot 0 of lap 0 with nothing pending (R326). -/
theorem Chip.blwFabportWrite_on_spec {s : Chip} {d q : Nat} {v : W36} (hq : q < 128) (h0 : bit v 0 = true)
    (hc : s.cascaded d (fabRam d q) = false) :
    let c := s.blwFabportWrite d q v
    c.flag d (F.BLW_FABPORT_EN q) = true ∧ bits (c.reg d (Reg.BLW_FABPORT q)) 1 14 = 0 ∧ c.mail d q = {} ∧
      (bit v 15 = true → c.flag d (F.BLW_FABPORT_CHECK_SEEN q) = false) := by
  rw [Chip.blwFabportWrite_on hq h0 hc]
  refine ⟨?_, ?_, Chip.fabPortStart_mail _ d q, fun h15 => ?_⟩
  · exact (congrArg (· == 1) (Chip.fabPortStart_fld _ d q 0 (by decide))).trans ((Chip.fabportSet_en _ d q v).trans h0)
  · rw [Chip.fabPortStart_reg, bits_putBits_same _ _ _ _ (by decide), Nat.zero_mod]
  · have hclear := (congrArg (fun r => bits r 15 1) (s.fabportSet_reg d q v)).trans (fabportRow_checkSeen _ h15)
    exact congrArg (· == 1) ((Chip.fabPortStart_fld _ d q 15 (by decide)).trans hclear)

/-- A port disabled keeps its rings (R324). -/
theorem Chip.blwFabportWrite_off_spec {s : Chip} {d q : Nat} {v : W36} (hq : q < 128) (h0 : bit v 0 = false) :
    let c := s.blwFabportWrite d q v
    c.flag d (F.BLW_FABPORT_EN q) = false ∧
      bits (c.reg d (Reg.BLW_FABPORT q)) 1 14 = bits (s.reg d (Reg.BLW_FABPORT q)) 1 14 ∧ OnlyRegs s c ∧
      RegsBut (OneReg d (Reg.BLW_FABPORT q)) s c := by
  rw [Chip.blwFabportWrite_off hq h0]
  refine ⟨(Chip.fabportSet_en _ d q v).trans h0, ?_, OnlyRegs.setReg _ _ _ _, Chip.fabportSet_regsBut _ d hq v⟩
  rw [Chip.fabportSet_reg, fabportRow_rings]

end Sys2Proof.Machine
end

section
/-! PROOFS. Writes of the worker table (R318 to R320, R322). -/

namespace Sys2Proof.Machine

/-! ### Workers (R318 to R320, R322) -/

theorem exec_blwWorkerWrite (d : Die) (w : Fin 192) (v : W36) (s : State) :
    exec (.blwWorkerWrite d w v) s = s.onDie d (fun c => c.blwWorkerWrite d w v) := rfl

/-- The ports that an entry of the worker table may name: a core of its own die, or a FAB port (R318). -/
def workerLawful (d w : Nat) (v : W36) : Bool :=
  if w < 64 then decide (bits v 8 2 = 2) && decide (dieOf (bits v 0 8) = d) else decide (bits v 8 2 < 2)

theorem workerLawful_iff (d w : Nat) (v : W36) :
    workerLawful d w v = true ↔ if w < 64 then bits v 8 2 = 2 ∧ dieOf (bits v 0 8) = d else bits v 8 2 < 2 := by
  unfold workerLawful
  split <;> simp

theorem workerLawful_of_enables {d w : Nat} {v : W36} (hl : bit v 16 = true → workerLawful d w v = true) :
    (bit v 16 && !workerLawful d w v) = false := by
  cases h16 : bit v 16
  · rfl
  · rw [hl h16]; rfl

/-- The fields of an entry of the worker table as written. -/
def Chip.workerSet (s : Chip) (d w : Nat) (v : W36) : Chip :=
  s.setReg d (Reg.BLW_WORKER w) (putBits (s.reg d (Reg.BLW_WORKER w)) 0 17 (bits v 0 17))

/-- A worker IDLE, or BUSY where it holds tags. -/
def Chip.workerIdle (s : Chip) (d w : Nat) : Chip := (s.setFld d (F.BLW_WSTAT_STATE w) Wrk.idle).settleWorker d w

/-- A worker HELD, its state kept for its release. -/
def Chip.workerHeld (s : Chip) (d w : Nat) : Chip :=
  (s.onWorker d w (fun x => { x with was := s.workerState d w })).setFld d (F.BLW_WSTAT_STATE w) Wrk.held

/-- A worker as it starts where it is enabled at a router. -/
def Chip.workerStart (s : Chip) (d w router : Nat) : Chip :=
  if 64 ≤ w && s.regionState (dieOf router) (regionOf router) != Rgn.active then s.setFld d (F.BLW_WSTAT_STATE w) Wrk.unavailable
  else (s.workerIdle d w).when (w < 64 && (s.workerIdle d w).namesHalted d w) (fun s => s.workerHeld d w)

theorem Chip.blwWorkerWrite_of_unlawful {s : Chip} {d w : Nat} {v : W36} (h16 : bit v 16 = true)
    (hl : workerLawful d w v = false) : s.blwWorkerWrite d w v = s.blwRefuse d := by
  unfold Chip.blwWorkerWrite
  exact if_pos (by rw [h16]; unfold workerLawful at hl; rw [hl]; rfl)

theorem Chip.blwWorkerWrite_of_on {s : Chip} {d w : Nat} {v : W36} (hl : bit v 16 = true → workerLawful d w v = true)
    (hon : s.flag d (F.BLW_WORKER_EN w) = true) :
    s.blwWorkerWrite d w v =
      (let t := s.when (bits v 0 16 != bits (s.reg d (Reg.BLW_WORKER w)) 0 16) (fun s => s.blwRefuse d)
      if bit v 16 then t else (t.setFlag d (F.BLW_WORKER_EN w) false).setFld d (F.BLW_WSTAT_STATE w) Wrk.off) := by
  have hgo := workerLawful_of_enables hl
  unfold Chip.blwWorkerWrite
  exact (if_neg (by unfold workerLawful at hgo; rw [hgo]; simp)).trans (if_pos hon)

theorem Chip.blwWorkerWrite_of_off {s : Chip} {d w : Nat} {v : W36} (hl : bit v 16 = true → workerLawful d w v = true)
    (hon : s.flag d (F.BLW_WORKER_EN w) = false) :
    s.blwWorkerWrite d w v =
      if bit v 16 then (s.workerSet d w v).workerStart d w (bits v 0 8) else s.workerSet d w v := by
  have hgo := workerLawful_of_enables hl
  unfold Chip.blwWorkerWrite
  exact (if_neg (by unfold workerLawful at hgo; rw [hgo]; simp)).trans (if_neg (by rw [hon]; simp))

/-! ### The fields of the worker table -/

section
variable {d w : Nat} (hw : w < 192)
include hw

theorem worker_offsets : Reg.BLW_WORKER w < 2 ^ 23 ∧ Reg.BLW_WSTAT w < 2 ^ 23 ∧ Reg.BLW_WORKER w ≠ Reg.BLW_WSTAT w ∧
    Reg.BLW_STATUS ≠ Reg.BLW_WORKER w ∧ Reg.BLW_STATUS ≠ Reg.BLW_WSTAT w := by
  simp only [Reg.BLW_WORKER, Reg.BLW_WSTAT, Reg.BLW_STATUS]
  omega

theorem Chip.workerSet_regsBut (s : Chip) (v : W36) : RegsBut (OneReg d (Reg.BLW_WORKER w)) s (s.workerSet d w v) :=
  Chip.setReg_regsBut s _ (worker_offsets hw).1

theorem RegsBut.setWstat (s : Chip) (st : Nat) : RegsBut (OneReg d (Reg.BLW_WSTAT w)) s (s.setFld d (F.BLW_WSTAT_STATE w) st) :=
  RegsBut.setFld s st (worker_offsets hw).2.1 ⟨rfl, rfl⟩

end

theorem Chip.workerSet_onlyRegs (s : Chip) (d w : Nat) (v : W36) : OnlyRegs s (s.workerSet d w v) := rfl

theorem Chip.workerSet_bits (s : Chip) (d w : Nat) (v : W36) {lo width : Nat} (h : lo + width ≤ 17) :
    bits ((s.workerSet d w v).reg d (Reg.BLW_WORKER w)) lo width = bits v lo width := by
  rw [Chip.workerSet, Chip.reg_setReg_same]
  exact bits_putBits_inner _ v 0 17 lo width (by decide) (Nat.zero_le _) (by omega)

/-- A worker's state reads as it was set. -/
theorem Chip.workerState_setFld (s : Chip) (d w : Nat) {st : Nat} (hst : st < 8) :
    (s.setFld d (F.BLW_WSTAT_STATE w) st).workerState d w = st :=
  (Chip.fld_setFld_same s d (F.BLW_WSTAT_STATE w) st (by decide : 0 + 3 ≤ 36)).trans (Nat.mod_eq_of_lt hst)

theorem Chip.workerIdle_eq (s : Chip) (d w : Nat) :
    s.workerIdle d w = (s.setFld d (F.BLW_WSTAT_STATE w) Wrk.idle).setFld d (F.BLW_WSTAT_STATE w)
      (if (s.worker d w).tags.isEmpty then Wrk.idle else Wrk.busy) := by
  have hidle := s.workerState_setFld d w (by decide : Wrk.idle < 8)
  have hne : ¬ Wrk.idle = Wrk.held := by decide
  have htags : ((s.setFld d (F.BLW_WSTAT_STATE w) Wrk.idle).worker d w).tags = (s.worker d w).tags := rfl
  simp only [Chip.workerIdle, Chip.settleWorker, Chip.setWorker, hidle, if_neg hne, htags, decide_true, Bool.true_or, if_true]

theorem Chip.workerIdle_onlyRegs (s : Chip) (d w : Nat) : OnlyRegs s (s.workerIdle d w) := by
  rw [Chip.workerIdle_eq]
  exact (OnlyRegs.setFld s _ _ _).trans (OnlyRegs.setFld _ _ _ _)

theorem Chip.workerIdle_regsBut (s : Chip) (d : Nat) {w : Nat} (hw : w < 192) :
    RegsBut (OneReg d (Reg.BLW_WSTAT w)) s (s.workerIdle d w) := by
  rw [Chip.workerIdle_eq]
  exact (RegsBut.setWstat hw s _).trans (RegsBut.setWstat hw _ _)

theorem Chip.workerIdle_state (s : Chip) (d w : Nat) :
    (s.workerIdle d w).workerState d w = if (s.worker d w).tags = [] then Wrk.idle else Wrk.busy := by
  rw [Chip.workerIdle_eq]
  cases htags : (s.worker d w).tags
  · exact Chip.workerState_setFld _ d w (by decide : Wrk.idle < 8)
  · exact Chip.workerState_setFld _ d w (by decide : Wrk.busy < 8)

theorem Chip.workerHeld_regsBut (s : Chip) (d : Nat) {w : Nat} (hw : w < 192) :
    RegsBut (OneReg d (Reg.BLW_WSTAT w)) s (s.workerHeld d w) := by
  have hrec : RegsBut (OneReg d (Reg.BLW_WSTAT w)) s (s.onWorker d w (fun x => { x with was := s.workerState d w })) :=
    RegsBut.of_regs rfl
  exact hrec.trans (RegsBut.setWstat hw _ _)

theorem Chip.workerHeld_state (s : Chip) (d w : Nat) : (s.workerHeld d w).workerState d w = Wrk.held :=
  Chip.workerState_setFld _ d w (by decide)

theorem Chip.workerStart_regsBut (s : Chip) (d router : Nat) {w : Nat} (hw : w < 192) :
    RegsBut (OneReg d (Reg.BLW_WSTAT w)) s (s.workerStart d w router) := by
  unfold Chip.workerStart
  split
  · exact RegsBut.setWstat hw s _
  · exact (s.workerIdle_regsBut d hw).trans (RegsBut.when (Chip.workerHeld_regsBut _ d hw))

/-- Whether debug has halted a core at a router of the die. -/
def Chip.haltedAt (s : Chip) (d router : Nat) : Bool :=
  (List.range 64).any (fun n => s.coreState d n == Obe.halted && coreRouter d n == router)

/-- An entry that names a core's port names a halted core where debug has halted the core at its router. -/
theorem Chip.namesHalted_eq {s : Chip} {d w router : Nat} (hr : s.fld d (F.BLW_WORKER_ROUTER w) = router)
    (hp : s.fld d (F.BLW_WORKER_PORT w) = 2) : s.namesHalted d w = s.haltedAt d router := by
  unfold Chip.namesHalted Chip.haltedAt
  rw [Bool.eq_iff_iff, List.any_eq_true, List.any_eq_true]
  refine exists_congr (fun n => and_congr_right (fun _ => ?_))
  simp only [Chip.coreState, Obe.halted, hr, hp, Bool.and_eq_true, decide_eq_true_eq, beq_iff_eq, and_true]

theorem coreState_of_regsBut {a b : Chip} {d off : Nat} (h : RegsBut (OneReg d off) a b) (hoff : off < 0x200000) {n : Nat}
    (hn : n < 64) : b.coreState d n = a.coreState d n :=
  h.fld_of_off_ne (by show 0x200001 + 0x10000 * n < 2 ^ 23; omega) (by show 0x200001 + 0x10000 * n ≠ off; omega)

theorem haltedAt_of_regsBut {a b : Chip} {d off : Nat} (h : RegsBut (OneReg d off) a b) (hoff : off < 0x200000) (router : Nat) :
    b.haltedAt d router = a.haltedAt d router := by
  unfold Chip.haltedAt
  rw [Bool.eq_iff_iff, List.any_eq_true, List.any_eq_true]
  refine exists_congr (fun n => and_congr_right (fun hn => ?_))
  rw [coreState_of_regsBut h hoff (List.mem_range.mp hn)]

theorem regionOf_lt (router : Nat) : regionOf router < 16 := by
  unfold regionOf localX localY
  omega

section
variable {s : Chip} {d w router : Nat} (hw : w < 192) (hr : s.fld d (F.BLW_WORKER_ROUTER w) = router)
  (hp : w < 64 → s.fld d (F.BLW_WORKER_PORT w) = 2)
include hw hr hp

/-- How a worker starts: held with its core, or idle, or waiting for its region (R319, R320, R322). -/
theorem Chip.workerStart_eq :
    s.workerStart d w router =
      if (decide (w < 64) && s.haltedAt d router) = true then (s.workerIdle d w).workerHeld d w
      else if w < 64 ∨ s.regionState (dieOf router) (regionOf router) = Rgn.active then s.workerIdle d w
      else s.setFld d (F.BLW_WSTAT_STATE w) Wrk.unavailable := by
  unfold Chip.workerStart
  by_cases h64 : w < 64
  · have hidle := s.workerIdle_regsBut d hw
    obtain ⟨ho, -, hne, -, -⟩ := worker_offsets hw
    have hnames : (s.workerIdle d w).namesHalted d w = s.haltedAt d router :=
      (Chip.namesHalted_eq ((hidle.fld_of_off_ne ho hne).trans hr) ((hidle.fld_of_off_ne ho hne).trans (hp h64))).trans
        (haltedAt_of_regsBut hidle (by unfold Reg.BLW_WSTAT; omega) router)
    have hfab : ¬ 64 ≤ w := by omega
    simp only [hnames, hfab, h64, decide_true, decide_false, Bool.false_and, Bool.true_and, true_or, if_true, Bool.false_eq_true,
      if_false]
    cases s.haltedAt d router <;> rfl
  · have hfab : 64 ≤ w := by omega
    simp only [hfab, h64, decide_true, decide_false, Bool.false_and, Bool.true_and, false_or, Bool.false_eq_true, if_false,
      Chip.when_false]
    by_cases hact : s.regionState (dieOf router) (regionOf router) = Rgn.active
    · simp only [hact, bne_self_eq_false, Bool.false_eq_true, if_false, if_true]
    · rw [if_pos (bne_iff_ne.mpr hact), if_neg hact]

theorem Chip.workerStart_state :
    (s.workerStart d w router).workerState d w =
      if (decide (w < 64) && s.haltedAt d router) = true then Wrk.held
      else if w < 64 ∨ s.regionState (dieOf router) (regionOf router) = Rgn.active then
        (if (s.worker d w).tags = [] then Wrk.idle else Wrk.busy)
      else Wrk.unavailable := by
  rw [Chip.workerStart_eq hw hr hp]
  split
  · exact Chip.workerHeld_state _ d w
  · split
    · exact s.workerIdle_state d w
    · exact Chip.workerState_setFld s d w (by decide)

/-- A worker that debug does not hold starts by registers alone. -/
theorem Chip.workerStart_onlyRegs (hh : (decide (w < 64) && s.haltedAt d router) = false) :
    OnlyRegs s (s.workerStart d w router) := by
  rw [Chip.workerStart_eq hw hr hp, hh, if_neg Bool.false_ne_true]
  split
  · exact s.workerIdle_onlyRegs d w
  · exact OnlyRegs.setFld s _ _ _

end

/-! ### An entry of the worker table written (R318 to R320) -/

/-- A worker disabled keeps its fields and is OFF. -/
theorem Chip.workerDisabled_spec (s : Chip) (d : Nat) {w : Nat} (hw : w < 192) :
    let c := (s.setFlag d (F.BLW_WORKER_EN w) false).setFld d (F.BLW_WSTAT_STATE w) Wrk.off
    c.flag d (F.BLW_WORKER_EN w) = false ∧ c.workerState d w = Wrk.off ∧
      bits (c.reg d (Reg.BLW_WORKER w)) 0 16 = bits (s.reg d (Reg.BLW_WORKER w)) 0 16 := by
  obtain ⟨ho, -, hne, -, -⟩ := worker_offsets hw
  have hframe := RegsBut.setWstat (d := d) hw (s.setFlag d (F.BLW_WORKER_EN w) false) Wrk.off
  refine ⟨?_, Chip.workerState_setFld _ d w (by decide), ?_⟩
  · exact (hframe.flag_of_off_ne ho hne).trans (Chip.flag_setFlag_same s d _ false (by decide : 16 + 1 ≤ 36) rfl)
  · rw [hframe d _ ho (fun h => hne h.2)]
    show bits ((s.setReg d (Reg.BLW_WORKER w) (putBits (s.reg d (Reg.BLW_WORKER w)) 16 1 (ofBool false))).reg d _) 0 16 = _
    rw [Chip.reg_setReg_same, bits_putBits_other _ _ _ _ _ _ (.inl (by decide))]

/-- An entry enabled where it was not: its fields, and the worker's state by what it names. -/
theorem Chip.workerEnabled_spec (s : Chip) {d w : Nat} {v : W36} (hw : w < 192) (hl : workerLawful d w v = true) :
    let c := (s.workerSet d w v).workerStart d w (bits v 0 8)
    let held := decide (w < 64) && s.haltedAt d (bits v 0 8)
    bits (c.reg d (Reg.BLW_WORKER w)) 0 17 = bits v 0 17 ∧
    (c.workerState d w = if held then Wrk.held
      else if w < 64 ∨ s.regionState (dieOf (bits v 0 8)) (regionOf (bits v 0 8)) = Rgn.active then
        (if (s.worker d w).tags = [] then Wrk.idle else Wrk.busy)
      else Wrk.unavailable) ∧
    (held = false → OnlyRegs s c) := by
  obtain ⟨ho, -, hne, -, -⟩ := worker_offsets hw
  have hset := s.workerSet_regsBut (d := d) hw v
  have hrouter : (s.workerSet d w v).fld d (F.BLW_WORKER_ROUTER w) = bits v 0 8 := s.workerSet_bits d w v (by decide : 0 + 8 ≤ 17)
  have hport : w < 64 → (s.workerSet d w v).fld d (F.BLW_WORKER_PORT w) = 2 := by
    intro h64
    rw [workerLawful_iff, if_pos h64] at hl
    exact (s.workerSet_bits d w v (by decide : 8 + 2 ≤ 17)).trans hl.1
  have hhalted := haltedAt_of_regsBut hset (by unfold Reg.BLW_WORKER; omega) (bits v 0 8)
  have hregion : (s.workerSet d w v).regionState (dieOf (bits v 0 8)) (regionOf (bits v 0 8)) =
      s.regionState (dieOf (bits v 0 8)) (regionOf (bits v 0 8)) := by
    have hlt := regionOf_lt (bits v 0 8)
    exact hset.fld_of_off_ne (by show 0x010100 + _ < 2 ^ 23; omega) (by show 0x010100 + _ ≠ 0x060400 + w; omega)
  refine ⟨?_, ?_, fun hh => ?_⟩
  · rw [Chip.workerStart_regsBut _ d _ hw d _ ho (fun h => hne h.2)]
    exact s.workerSet_bits d w v (by decide)
  · rw [Chip.workerStart_state hw hrouter hport, hhalted, hregion]
    rfl
  · exact (s.workerSet_onlyRegs d w v).trans (Chip.workerStart_onlyRegs hw hrouter hport (by rw [hhalted]; exact hh))

section
variable {s : Chip} {d w : Nat} {v : W36}

/-- An enabled entry keeps its fields: a write that would change them is refused (R319). -/
theorem Chip.blwWorkerWrite_of_changed (h16 : bit v 16 = true) (hl : workerLawful d w v = true)
    (hon : s.flag d (F.BLW_WORKER_EN w) = true) (hv : bits v 0 16 ≠ bits (s.reg d (Reg.BLW_WORKER w)) 0 16) :
    s.blwWorkerWrite d w v = s.blwRefuse d := by
  rw [Chip.blwWorkerWrite_of_on (fun _ => hl) hon, h16, bne_iff_ne.mpr hv]
  rfl

/-- A write that disables an entry takes it OFF, whatever else it asks for (R319). -/
theorem Chip.blwWorkerWrite_off_spec (hw : w < 192) (h16 : bit v 16 = false) (hon : s.flag d (F.BLW_WORKER_EN w) = true) :
    let c := s.blwWorkerWrite d w v
    c.flag d (F.BLW_WORKER_EN w) = false ∧ c.workerState d w = Wrk.off ∧
      bits (c.reg d (Reg.BLW_WORKER w)) 0 16 = bits (s.reg d (Reg.BLW_WORKER w)) 0 16 := by
  have hl : bit v 16 = true → workerLawful d w v = true := fun h => absurd h (by rw [h16]; decide)
  obtain ⟨ho, -, -, hne, -⟩ := worker_offsets hw
  rw [Chip.blwWorkerWrite_of_on hl hon, h16]
  have hrefuse : RegsBut (OneReg d Reg.BLW_STATUS) s
      (s.when (bits v 0 16 != bits (s.reg d (Reg.BLW_WORKER w)) 0 16) (fun c => c.blwRefuse d)) :=
    RegsBut.when (s.blwRefuse_regsBut d)
  generalize s.when (bits v 0 16 != bits (s.reg d (Reg.BLW_WORKER w)) 0 16) (fun c => c.blwRefuse d) = t at hrefuse ⊢
  obtain ⟨hen, hoff, hbits⟩ := t.workerDisabled_spec d hw
  exact ⟨hen, hoff, hbits.trans (by rw [hrefuse d _ ho (fun h => hne h.2.symm)])⟩

/-- A write of an entry that is not enabled takes its fields, and starts the worker where it enables it (R318 to R320). -/
theorem Chip.blwWorkerWrite_new_spec (hw : w < 192) (hl : bit v 16 = true → workerLawful d w v = true)
    (hon : s.flag d (F.BLW_WORKER_EN w) = false) :
    let c := s.blwWorkerWrite d w v
    let held := decide (w < 64) && s.haltedAt d (bits v 0 8)
    bits (c.reg d (Reg.BLW_WORKER w)) 0 17 = bits v 0 17 ∧
    (bit v 16 = true → c.workerState d w = if held then Wrk.held
      else if w < 64 ∨ s.regionState (dieOf (bits v 0 8)) (regionOf (bits v 0 8)) = Rgn.active then
        (if (s.worker d w).tags = [] then Wrk.idle else Wrk.busy)
      else Wrk.unavailable) ∧
    (bit v 16 = false → c.workerState d w = s.workerState d w) ∧
    (bit v 16 = true ∧ held = true ∨ OnlyRegs s c) := by
  intro c held
  rw [show c = _ from Chip.blwWorkerWrite_of_off hl hon]
  cases h16 : bit v 16 with
  | true =>
    obtain ⟨hbits, hstate, honly⟩ := s.workerEnabled_spec hw (hl h16)
    refine ⟨hbits, fun _ => hstate, fun h => absurd h (by decide), ?_⟩
    cases hheld : held with
    | true => exact .inl ⟨rfl, rfl⟩
    | false => exact .inr (honly hheld)
  | false =>
    obtain ⟨-, hoff, hne, -, -⟩ := worker_offsets hw
    exact ⟨s.workerSet_bits d w v (by decide), fun h => absurd h (by decide),
      fun _ => (s.workerSet_regsBut hw v).fld_of_off_ne hoff hne.symm, .inr (s.workerSet_onlyRegs d w v)⟩

end

end Sys2Proof.Machine
end

section
/-! PROOFS. The rings of a FAB port and the taking of a transmit slot (R326, R327). -/

namespace Sys2Proof.Machine

/-! ### Words of a port RAM (R65, R324) -/

/-- The word a port's engine reads at an address of its RAM. -/
def Chip.mailWord (s : Chip) (d q a : Nat) : W36 := (s.ramWord d (fabRam d q) a).value

theorem Chip.mailRead_of_good {s : Chip} {d q a : Nat} (h : (s.ramWord d (fabRam d q) a).syndrome = 0) :
    s.mailRead d q a = (s, s.mailWord d q a, false) := by
  simp [Chip.mailRead, h, Chip.mailWord]

/-- Without an armed flip the engine stores a word as it is. -/
theorem Chip.mailWrite_eq {s : Chip} {d q : Nat} (h : s.flipArmed d 1 (fabRam d q) = false) (a : Nat) (w : W36) :
    s.mailWrite d q a w = { s with
      ramWords := s.ramWords.set (ramWordKey d (fabRam d q) a) { data := w, chk := checkBits w, valid := true } } := by
  simp [Chip.mailWrite, Chip.storeRam, h]

theorem Chip.mailWrite_regs {s : Chip} {d q : Nat} (h : s.flipArmed d 1 (fabRam d q) = false) (a : Nat) (w : W36) :
    (s.mailWrite d q a w).regs = s.regs := by rw [Chip.mailWrite_eq h]

theorem Chip.mailWord_mailWrite {s : Chip} {d q : Nat} (h : s.flipArmed d 1 (fabRam d q) = false) (a a' : Nat) (w : W36) :
    (s.mailWrite d q a w).mailWord d q a' = if a' = a then w else s.mailWord d q a' := by
  have hkey : ramWordKey d (fabRam d q) a' = ramWordKey d (fabRam d q) a ↔ a' = a := by unfold ramWordKey; omega
  simp only [Chip.mailWrite_eq h, Chip.mailWord, Chip.ramWord, SMap.get_set, hkey]
  split <;> rfl

theorem Chip.flipArmed_congr {a b : Chip} (h : b.regs = a.regs) (d kind index : Nat) :
    b.flipArmed d kind index = a.flipArmed d kind index := by
  simp [Chip.flipArmed, Chip.flag_congr h, Chip.fld_congr h]

/-- Nothing of the chip differs between a and b but its registers and reservoir RAM words. -/
def OnlyRing (a b : Chip) : Prop := b = { a with regs := b.regs, ramWords := b.ramWords }

theorem OnlyRing.trans {a b c : Chip} (h : OnlyRing a b) (h' : OnlyRing b c) : OnlyRing a c := by
  unfold OnlyRing at *; rw [h', h]

theorem OnlyRegs.ring {a b : Chip} (h : OnlyRegs a b) : OnlyRing a b := by
  unfold OnlyRegs OnlyRing at *; rw [h]

theorem OnlyRing.mail_eq {a b : Chip} (h : OnlyRing a b) (d q : Nat) : b.mail d q = a.mail d q := by rw [h]; rfl
theorem OnlyRing.ports_eq {a b : Chip} (h : OnlyRing a b) : b.ports = a.ports := by rw [h]

theorem Chip.mailWrite_onlyRing {s : Chip} {d q : Nat} (h : s.flipArmed d 1 (fabRam d q) = false) (a : Nat) (w : W36) :
    OnlyRing s (s.mailWrite d q a w) := by rw [Chip.mailWrite_eq h]; rfl

/-! ### A ring moves on (R326) -/

/-- A ring at its next slot: NEXT counts to 63 and wraps, and LAP takes the phase just used up where it does. -/
def Chip.ringStep (s : Chip) (d : Nat) (next lap : Fld) (i : Nat) (phase : Bool) : Chip :=
  (s.setFld d next ((i + 1) % 64)).when (i == 63) (fun s => s.setFlag d lap phase)

theorem Chip.ringStep_onlyRegs (s : Chip) (d : Nat) (next lap : Fld) (i : Nat) (phase : Bool) :
    OnlyRegs s (s.ringStep d next lap i phase) :=
  (OnlyRegs.setFld s d next _).trans (OnlyRegs.when (OnlyRegs.setFlag _ d lap phase))

section
variable (s : Chip) (d r lo lo' i : Nat) (phase : Bool)

theorem Chip.ringStep_regsBut (hr : r < 2 ^ 23) :
    RegsBut (OneReg d r) s (s.ringStep d ⟨r, lo, 6⟩ ⟨r, lo', 1⟩ i phase) :=
  (RegsBut.setFld s _ hr ⟨rfl, rfl⟩).trans (RegsBut.when (RegsBut.setFlag _ phase hr ⟨rfl, rfl⟩))

theorem Chip.ringStep_next (hfit : lo + 6 ≤ 36) (hapart : lo + 6 ≤ lo') :
    (s.ringStep d ⟨r, lo, 6⟩ ⟨r, lo', 1⟩ i phase).fld d ⟨r, lo, 6⟩ = (i + 1) % 64 := by
  have hset : (s.setFld d ⟨r, lo, 6⟩ ((i + 1) % 64)).fld d ⟨r, lo, 6⟩ = (i + 1) % 64 :=
    (Chip.fld_setFld_same s d ⟨r, lo, 6⟩ _ hfit).trans (Nat.mod_mod _ 64)
  unfold Chip.ringStep
  cases i == 63
  · exact hset
  · exact (Chip.fld_setFld_bits (f := ⟨r, lo', 1⟩) (f' := ⟨r, lo, 6⟩) _ d _ rfl (.inl hapart)).trans hset

theorem Chip.ringStep_lap (hfit : lo' + 1 ≤ 36) (hapart : lo + 6 ≤ lo') :
    (s.ringStep d ⟨r, lo, 6⟩ ⟨r, lo', 1⟩ i phase).flag d ⟨r, lo', 1⟩ =
      if i = 63 then phase else s.flag d ⟨r, lo', 1⟩ := by
  unfold Chip.ringStep
  by_cases h : i = 63
  · rw [if_pos h, beq_iff_eq.mpr h]
    exact Chip.flag_setFlag_same _ d _ phase hfit rfl
  · rw [if_neg h, beq_eq_false_iff_ne.mpr h]
    exact congrArg (· == 1) (Chip.fld_setFld_bits (f := ⟨r, lo, 6⟩) (f' := ⟨r, lo', 1⟩) s d _ rfl (.inr hapart))

end

/-! ### FAB_TX_SLOT (R326, R327) -/

theorem exec_fabTxSlot (d : Die) (q : Fin 128) (s : State) : exec (.fabTxSlot d q) s = s.onDie d (fun c => c.fabTx d q) := rfl

theorem Chip.fabTx_idle {s : Chip} {d q : Nat}
    (h : s.fabServed d q = false ∨ (s.port (fabRouter d q) (q % 2)).waiting ≠ [] ∨
      bit (s.mailWord d q (512 + 8 * s.fld d (F.BLW_FABPORT_TX_NEXT q) + 6)) 0 ≠ !s.flag d (F.BLW_FABPORT_TX_LAP q)) :
    s.fabTx d q = s := by
  unfold Chip.fabTx
  by_cases hready : (!s.fabServed d q || !(s.port (fabRouter d q) (q % 2)).waiting.isEmpty) = true
  · exact if_pos hready
  · refine (if_neg hready).trans (if_pos ?_)
    simp only [Bool.or_eq_true, Bool.not_eq_true', List.isEmpty_eq_false_iff, not_or] at hready
    rcases h with h | h | h
    · exact absurd h hready.1
    · exact absurd h hready.2
    · exact bne_iff_ne.mpr h

/-- A transmit slot freed, and its ring at the next one. -/
def Chip.txFreed (s : Chip) (d q i : Nat) (phase : Bool) : Chip :=
  (s.mailWrite d q (512 + 8 * i + 7) (word (ofBool phase))).ringStep d (F.BLW_FABPORT_TX_NEXT q) (F.BLW_FABPORT_TX_LAP q) i phase

/-- The flit of six words of a transmit slot, of whose second only LAST and POISON count (R327). -/
def Chip.slotFlit (s : Chip) (d q a : Nat) : Flit := {
  w0 := s.mailWord d q a, w1 := word (bits (s.mailWord d q (a + 1)) 0 2), w2 := s.mailWord d q (a + 2)
  w3 := s.mailWord d q (a + 3), w4 := s.mailWord d q (a + 4), w5 := s.mailWord d q (a + 5) }

/-- What becomes of the parts of a packet once its next flit is taken: sent where that flit is its LAST (R327). -/
def Chip.takeParts (s : Chip) (d q i : Nat) (last : Bool) (parts : List Flit) : Chip :=
  if last then (s.onMail d q (fun m => { m with parts := [] })).fabSubmit d q i parts
  else s.onMail d q (fun m => { m with parts := parts })

theorem Chip.fabTx_full {s : Chip} {d q i : Nat} {phase : Bool} (hi : s.fld d (F.BLW_FABPORT_TX_NEXT q) = i)
    (hphase : (!s.flag d (F.BLW_FABPORT_TX_LAP q)) = phase) (hserved : s.fabServed d q = true)
    (hwait : (s.port (fabRouter d q) (q % 2)).waiting = []) (hfull : bit (s.mailWord d q (512 + 8 * i + 6)) 0 = phase)
    (hgood : ∀ k, k < 6 → (s.ramWord d (fabRam d q) (512 + 8 * i + k)).syndrome = 0) :
    s.fabTx d q = (s.txFreed d q i phase).takeParts d q i (bit (s.mailWord d q (512 + 8 * i + 1)) 1)
      (((s.txFreed d q i phase).mail d q).parts ++ [s.slotFlit d q (512 + 8 * i)]) := by
  have h0 := Chip.mailRead_of_good (hgood 0 (by decide))
  have h1 := Chip.mailRead_of_good (hgood 1 (by decide))
  have h2 := Chip.mailRead_of_good (hgood 2 (by decide))
  have h3 := Chip.mailRead_of_good (hgood 3 (by decide))
  have h4 := Chip.mailRead_of_good (hgood 4 (by decide))
  have h5 := Chip.mailRead_of_good (hgood 5 (by decide))
  have hnot : (bit (s.ramWord d (fabRam d q) (512 + 8 * i + 6)).value 0 != phase) = false := by
    rw [bne_eq_false_iff_eq]; exact hfull
  rw [Nat.add_zero] at h0
  unfold Chip.fabTx
  simp only [hi, hphase, hserved, hwait, hnot, h0, h1, h2, h3, h4, h5, List.isEmpty_nil, Bool.not_true,
    Bool.or_false, Bool.false_eq_true, if_false, Chip.when_false, Nat.or_zero, ofBool]
  rfl

end Sys2Proof.Machine
end

section
/-! PROOFS. What a transmit slot taken and a receive slot filled leave (R326 to R328). -/

namespace Sys2Proof.Machine

section
variable {s : Chip} {d q : Nat} (ha : s.flipArmed d 1 (fabRam d q) = false) (i : Nat) (phase : Bool)
include ha

theorem Chip.txFreed_onlyRing : OnlyRing s (s.txFreed d q i phase) :=
  (Chip.mailWrite_onlyRing ha _ _).trans (Chip.ringStep_onlyRegs _ _ _ _ _ _).ring

theorem Chip.txFreed_regsBut (hq : q < 128) : RegsBut (OneReg d (Reg.BLW_FABPORT q)) s (s.txFreed d q i phase) :=
  (RegsBut.of_regs (Chip.mailWrite_regs ha _ _)).trans
    (Chip.ringStep_regsBut _ d (Reg.BLW_FABPORT q) 7 14 i phase (by unfold Reg.BLW_FABPORT; omega))

theorem Chip.txFreed_mark : (s.txFreed d q i phase).mailWord d q (512 + 8 * i + 7) = word (ofBool phase) := by
  have hstep : ∀ t : Chip, OnlyRegs t (t.ringStep d (F.BLW_FABPORT_TX_NEXT q) (F.BLW_FABPORT_TX_LAP q) i phase) :=
    fun t => t.ringStep_onlyRegs d _ _ i phase
  have hwrite := Chip.mailWord_mailWrite ha (512 + 8 * i + 7) (512 + 8 * i + 7) (word (ofBool phase))
  unfold Chip.txFreed
  generalize s.mailWrite d q (512 + 8 * i + 7) (word (ofBool phase)) = t at hwrite ⊢
  rw [if_pos rfl] at hwrite
  rw [hstep t]
  exact hwrite

omit ha in
theorem Chip.txFreed_next : (s.txFreed d q i phase).fld d (F.BLW_FABPORT_TX_NEXT q) = (i + 1) % 64 :=
  Chip.ringStep_next _ d (Reg.BLW_FABPORT q) 7 14 i phase (by decide) (by decide)

theorem Chip.txFreed_lap :
    (s.txFreed d q i phase).flag d (F.BLW_FABPORT_TX_LAP q) = if i = 63 then phase else s.flag d (F.BLW_FABPORT_TX_LAP q) := by
  refine (Chip.ringStep_lap _ d (Reg.BLW_FABPORT q) 7 14 i phase (by decide) (by decide)).trans ?_
  rw [Chip.flag_congr (Chip.mailWrite_regs ha _ _)]
  rfl

end

/-- A port's window is the same where registers other than NOC_PORT differ. -/
theorem Chip.fits_of_regsBut {a b : Chip} {d off : Nat} (h : RegsBut (OneReg d off) a b) (hoff : off < 0x080000)
    (router port : Nat) (hport : port < 4) (p : Packet) : b.fits router port p = a.fits router port p := by
  have hx : localX router < 8 := Nat.mod_lt _ (by decide)
  have hy : localY router < 8 := Nat.mod_lt _ (by decide)
  unfold Chip.fits Chip.window
  rw [h.fld_of_off_ne (by show 0x080100 + 4 * (8 * localY router + localX router) + port < 2 ^ 23; omega)
    (by show 0x080100 + 4 * (8 * localY router + localX router) + port ≠ off; omega)]

/-- The packet that the parts taken from a transmit ring make, by the header of the first (R327). -/
def slotPacket (q i : Nat) (h : Flit) (parts : List Flit) : Packet := {
  dev := h.dstDev, router := h.dstRouter, port := h.dstPort, typ := h.typ, flow := h.flow
  body := parts.map (fun x => { w2 := x.w2, w3 := x.w3, w4 := x.w4, w5 := x.w5, poison := x.poison })
  resp := responsesFor h.typ h.w3, origin := .fabSlot q i }

theorem Chip.fabSubmit_eq (s : Chip) (d q i : Nat) {parts : List Flit} (h : parts ≠ []) (f : Flit) :
    s.fabSubmit d q i parts = s.submit (fabRouter d q) (q % 2) (slotPacket q i (parts.headD f) parts) := by
  cases parts with
  | nil => exact absurd rfl h
  | cons g gs => rfl

section
variable (s : Chip) (d q i : Nat) (parts : List Flit)

theorem Chip.takeParts_more : s.takeParts d q i false parts = s.onMail d q (fun m => { m with parts := parts }) := rfl

theorem Chip.takeParts_last (h : parts ≠ []) (f : Flit) :
    s.takeParts d q i true parts = (s.onMail d q (fun m => { m with parts := [] })).submit (fabRouter d q) (q % 2)
      (slotPacket q i (parts.headD f) parts) := Chip.fabSubmit_eq _ d q i h f

/-- Taking a flit changes the engine's record and the port alone. -/
theorem Chip.takeParts_frame (last : Bool) :
    s.takeParts d q i last parts =
      { s with fabMail := (s.takeParts d q i last parts).fabMail, ports := (s.takeParts d q i last parts).ports } := by
  cases last with
  | false => rfl
  | true => cases parts <;> rfl

theorem Chip.takeParts_regs (last : Bool) : (s.takeParts d q i last parts).regs = s.regs := by rw [Chip.takeParts_frame]

theorem Chip.takeParts_mailWord (last : Bool) (a : Nat) : (s.takeParts d q i last parts).mailWord d q a = s.mailWord d q a := by
  rw [Chip.takeParts_frame]; rfl

end

@[simp] theorem Chip.mail_onMail (s : Chip) (d q : Nat) (f : FabMail → FabMail) : (s.onMail d q f).mail d q = f (s.mail d q) := by
  simp [Chip.mail, Chip.onMail]

@[simp] theorem Chip.mail_submit (s : Chip) (r p : Nat) (k : Packet) (d q : Nat) : (s.submit r p k).mail d q = s.mail d q := rfl

@[simp] theorem Chip.onMail_ports (s : Chip) (d q : Nat) (f : FabMail → FabMail) : (s.onMail d q f).ports = s.ports := rfl

/-- What FAB_TX_SLOT leaves of a FULL slot i whose words are good: the slot free and the ring at the next one, and its flit kept
until the packet's LAST flit sends the whole (R326, R327). -/
theorem Chip.fabTx_spec {s : Chip} {d q i : Nat} {phase : Bool} (hq : q < 128) (hi : s.fld d (F.BLW_FABPORT_TX_NEXT q) = i)
    (hphase : (!s.flag d (F.BLW_FABPORT_TX_LAP q)) = phase) (hserved : s.fabServed d q = true)
    (hwait : (s.port (fabRouter d q) (q % 2)).waiting = []) (hfull : bit (s.mailWord d q (512 + 8 * i + 6)) 0 = phase)
    (ha : s.flipArmed d 1 (fabRam d q) = false)
    (hgood : ∀ k, k < 6 → (s.ramWord d (fabRam d q) (512 + 8 * i + k)).syndrome = 0) :
    let c := s.fabTx d q
    let f := s.slotFlit d q (512 + 8 * i)
    let parts := (s.mail d q).parts ++ [f]
    let p := slotPacket q i (parts.headD f) parts
    let port := s.port (fabRouter d q) (q % 2)
    c.mailWord d q (512 + 8 * i + 7) = word (ofBool phase) ∧
    c.fld d (F.BLW_FABPORT_TX_NEXT q) = (i + 1) % 64 ∧
    c.flag d (F.BLW_FABPORT_TX_LAP q) = (if i = 63 then phase else !phase) ∧
    (bit (s.mailWord d q (512 + 8 * i + 1)) 1 = false → (c.mail d q).parts = parts ∧ c.ports = s.ports) ∧
    (bit (s.mailWord d q (512 + 8 * i + 1)) 1 = true → (c.mail d q).parts = [] ∧
      c.port (fabRouter d q) (q % 2) =
        if s.fits (fabRouter d q) (q % 2) p then { port with waiting := [p] }
        else { port with refusedOwn := port.refusedOwn ++ [p] }) := by
  intro c f parts p port
  have hring := Chip.txFreed_onlyRing ha i phase
  have hc : c = (s.txFreed d q i phase).takeParts d q i (bit (s.mailWord d q (512 + 8 * i + 1)) 1) parts := by
    rw [show c = s.fabTx d q from rfl, Chip.fabTx_full hi hphase hserved hwait hfull hgood, hring.mail_eq]
  have hnext := Chip.txFreed_next (s := s) (d := d) (q := q) i phase
  have hlap := Chip.txFreed_lap ha i phase
  have hmark := Chip.txFreed_mark ha i phase
  have hfits := Chip.fits_of_regsBut (Chip.txFreed_regsBut ha i phase hq) (by unfold Reg.BLW_FABPORT; omega) (fabRouter d q) (q % 2)
    (by omega) p
  have hflag : s.flag d (F.BLW_FABPORT_TX_LAP q) = !phase := by rw [← hphase, Bool.not_not]
  rw [hc]
  generalize s.txFreed d q i phase = t at hring hnext hlap hmark hfits ⊢
  refine ⟨?_, ?_, ?_, fun hlast => ?_, fun hlast => ?_⟩
  · rw [Chip.takeParts_mailWord, hmark]
  · rw [Chip.fld_congr (Chip.takeParts_regs _ _ _ _ _ _), hnext]
  · rw [Chip.flag_congr (Chip.takeParts_regs _ _ _ _ _ _), hlap, hflag]
  · rw [hlast, Chip.takeParts_more, Chip.mail_onMail, Chip.onMail_ports, hring.ports_eq]
    exact ⟨rfl, rfl⟩
  · have hport : (t.onMail d q (fun m => { m with parts := [] })).port (fabRouter d q) (q % 2) = port := by
      show (t.ports).get _ = _
      rw [hring.ports_eq]; rfl
    have hfits' : (t.onMail d q (fun m => { m with parts := [] })).fits (fabRouter d q) (q % 2) p =
        s.fits (fabRouter d q) (q % 2) p := hfits
    have hempty : port.waiting = [] := hwait
    rw [hlast, Chip.takeParts_last t d q i parts (by simp [parts]) f, Chip.mail_submit, Chip.mail_onMail,
      Chip.submit_port, hfits', hport]
    refine ⟨rfl, ?_⟩
    split
    · rw [hempty]; rfl
    · rfl

/-! ### FAB_RX_FLIT (R326, R328) -/

@[simp] theorem Chip.port_onPort (s : Chip) (router port : Nat) (f : NocPort → NocPort) :
    (s.onPort router port f).port router port = f (s.port router port) := by simp [Chip.onPort, Chip.port]

theorem exec_fabRxFlit (d : Die) (q : Fin 128) (s : State) : exec (.fabRxFlit d q) s = s.onDie d (fun c => c.fabRx d q) := rfl

theorem Chip.fabRx_idle {s : Chip} {d q : Nat}
    (h : s.fabServed d q = false ∨ s.fabRxFree d q = false ∨
      ((s.mail d q).failures = [] ∧ (s.port (fabRouter d q) (q % 2)).delivered = [])) : s.fabRx d q = s := by
  rcases h with h | h | ⟨hf, hd⟩
  · simp [Chip.fabRx, h]
  · simp [Chip.fabRx, h]
  · simp [Chip.fabRx, hf, hd]

section
variable {s : Chip} {d q : Nat} (hserved : s.fabServed d q = true) (hfree : s.fabRxFree d q = true)
include hserved hfree

theorem Chip.fabRx_failure {w0 w1 : W36} {rest : List (W36 × W36)} (h : (s.mail d q).failures = (w0, w1) :: rest) :
    s.fabRx d q = (s.onMail d q (fun m => { m with failures := rest })).fabRxPut d q [w0, w1] true := by
  simp [Chip.fabRx, hserved, hfree, h]

theorem Chip.fabRx_delivered {f : Flit} {rest : List Flit} (hnone : (s.mail d q).failures = [])
    (h : (s.port (fabRouter d q) (q % 2)).delivered = f :: rest) :
    s.fabRx d q = (s.onPort (fabRouter d q) (q % 2) (fun p => { p with delivered := rest })).fabRxPut d q
      [f.w0, f.w1, f.w2, f.w3, f.w4, f.w5] false := by
  simp [Chip.fabRx, hserved, hfree, hnone, h]

end

theorem Chip.when_comp (s : Chip) (c : Bool) (f g : Chip → Chip) : s.when c (fun s => g (f s)) = (s.when c f).when c g := by
  cases c <;> rfl

/-- Words written one after another from address a of a port RAM. -/
def Chip.mailFill (s : Chip) (d q a : Nat) (ws : Nat → W36) (n : Nat) : Chip :=
  s.upTo n (fun s j => s.mailWrite d q (a + j) (ws j))

section
variable {s : Chip} {d q : Nat} (ha : s.flipArmed d 1 (fabRam d q) = false) (a : Nat) (ws : Nat → W36)

theorem Chip.mailFill_succ (n : Nat) : s.mailFill d q a ws (n + 1) = (s.mailFill d q a ws n).mailWrite d q (a + n) (ws n) := by
  simp [Chip.mailFill, Chip.upTo, List.range_succ]

include ha

theorem Chip.mailFill_regs (n : Nat) : (s.mailFill d q a ws n).regs = s.regs := by
  induction n with
  | zero => rfl
  | succ n ih => rw [Chip.mailFill_succ, Chip.mailWrite_regs ((Chip.flipArmed_congr ih _ _ _).trans ha), ih]

theorem Chip.mailFill_unarmed (n : Nat) : (s.mailFill d q a ws n).flipArmed d 1 (fabRam d q) = false :=
  (Chip.flipArmed_congr (Chip.mailFill_regs ha a ws n) _ _ _).trans ha

theorem Chip.mailFill_onlyRing (n : Nat) : OnlyRing s (s.mailFill d q a ws n) := by
  induction n with
  | zero => rfl
  | succ n ih =>
    rw [Chip.mailFill_succ]
    exact ih.trans (Chip.mailWrite_onlyRing (Chip.mailFill_unarmed ha a ws n) _ _)

theorem Chip.mailFill_word {n k : Nat} (hk : k < n) : (s.mailFill d q a ws n).mailWord d q (a + k) = ws k := by
  induction n with
  | zero => omega
  | succ n ih =>
    rw [Chip.mailFill_succ, Chip.mailWord_mailWrite (Chip.mailFill_unarmed ha a ws n)]
    by_cases hkn : k = n
    · rw [if_pos (by omega), hkn]
    · rw [if_neg (by omega), ih (by omega)]

end

/-- The engine remembers that its receive ring is past lap 0 where past holds. -/
def Chip.lapNoted (s : Chip) (d q : Nat) (past : Bool) : Chip :=
  s.when past (fun s => s.onMail d q (fun m => { m with rxLapped := true }))

theorem Chip.lapNoted_frame (s : Chip) (d q : Nat) (past : Bool) :
    s.lapNoted d q past = { s with fabMail := (s.lapNoted d q past).fabMail } := by
  cases past <;> rfl

theorem Chip.lapNoted_mail (s : Chip) (d q : Nat) (past : Bool) :
    (s.lapNoted d q past).mail d q = { s.mail d q with rxLapped := (s.mail d q).rxLapped || past } := by
  cases past <;> simp [Chip.lapNoted]

/-- A receive slot filled with six words and its FULL mark. -/
def Chip.rxFilled (s : Chip) (d q i : Nat) (ws : List W36) (mark : W36) : Chip :=
  (s.mailFill d q (8 * i) (fun j => (ws[j]?).getD 0) 6).mailWrite d q (8 * i + 6) mark

theorem Chip.fabRxPut_eq (s : Chip) (d q : Nat) (ws : List W36) (fail : Bool) :
    let i := s.fld d (F.BLW_FABPORT_RX_NEXT q)
    let phase := !s.flag d (F.BLW_FABPORT_RX_LAP q)
    s.fabRxPut d q ws fail =
      ((s.rxFilled d q i ws (word (ofBool phase + 2 * ofBool fail))).ringStep d (F.BLW_FABPORT_RX_NEXT q) (F.BLW_FABPORT_RX_LAP q) i
        phase).lapNoted d q (i == 63) := by
  intro i phase
  exact Chip.when_comp
    ((s.rxFilled d q i ws (word (ofBool phase + 2 * ofBool fail))).setFld d (F.BLW_FABPORT_RX_NEXT q) ((i + 1) % 64))
    (i == 63) (fun s => s.setFlag d (F.BLW_FABPORT_RX_LAP q) phase) (fun s => s.onMail d q (fun m => { m with rxLapped := true }))

section
variable {s : Chip} {d q : Nat} (ha : s.flipArmed d 1 (fabRam d q) = false) (i : Nat) (ws : List W36) (mark : W36)
include ha

theorem Chip.rxFilled_regs :
    (s.rxFilled d q i ws mark).regs = s.regs := by
  rw [Chip.rxFilled, Chip.mailWrite_regs (Chip.mailFill_unarmed ha _ _ 6), Chip.mailFill_regs ha]

theorem Chip.rxFilled_onlyRing : OnlyRing s (s.rxFilled d q i ws mark) :=
  (Chip.mailFill_onlyRing ha _ _ 6).trans (Chip.mailWrite_onlyRing (Chip.mailFill_unarmed ha _ _ 6) _ _)

theorem Chip.rxFilled_words :
    (∀ k, k < 6 → (s.rxFilled d q i ws mark).mailWord d q (8 * i + k) = ws.getD k 0) ∧
      (s.rxFilled d q i ws mark).mailWord d q (8 * i + 6) = mark := by
  have hwrite := fun a => Chip.mailWord_mailWrite (Chip.mailFill_unarmed ha (8 * i) (fun j => (ws[j]?).getD 0) 6) (8 * i + 6) a mark
  refine ⟨fun k hk => ?_, ?_⟩
  · rw [Chip.rxFilled, hwrite, if_neg (by omega), Chip.mailFill_word ha _ _ hk, List.getD_eq_getElem?_getD]
  · rw [Chip.rxFilled, hwrite, if_pos rfl]

end

/-- A ring step leaves the words of the port RAM. -/
theorem Chip.mailWord_ringStep (s : Chip) (d : Nat) (next lap : Fld) (i : Nat) (phase : Bool) (q a : Nat) :
    (s.ringStep d next lap i phase).mailWord d q a = s.mailWord d q a := by
  rw [s.ringStep_onlyRegs d next lap i phase]; rfl

/-- The words, the FULL mark, the ring and the lap as a filled receive slot leaves them, and all else of the engine and its port
as it was (R326, R328). -/
theorem Chip.fabRxPut_spec {s : Chip} {d q i : Nat} {phase : Bool} (hi : s.fld d (F.BLW_FABPORT_RX_NEXT q) = i)
    (hphase : (!s.flag d (F.BLW_FABPORT_RX_LAP q)) = phase) (ha : s.flipArmed d 1 (fabRam d q) = false) (ws : List W36)
    (fail : Bool) :
    let c := s.fabRxPut d q ws fail
    ((∀ k, k < 6 → c.mailWord d q (8 * i + k) = ws.getD k 0) ∧
      c.mailWord d q (8 * i + 6) = word (ofBool phase + 2 * ofBool fail) ∧
      c.fld d (F.BLW_FABPORT_RX_NEXT q) = (i + 1) % 64 ∧ (c.mail d q).rxLapped = ((s.mail d q).rxLapped || i == 63) ∧
      c.flag d (F.BLW_FABPORT_RX_LAP q) = (if i = 63 then phase else !phase)) ∧
    (c.mail d q).failures = (s.mail d q).failures ∧ c.ports = s.ports := by
  have hput := s.fabRxPut_eq d q ws fail
  simp only [hi, hphase] at hput
  obtain ⟨hwords, hmark⟩ := Chip.rxFilled_words ha i ws (word (ofBool phase + 2 * ofBool fail))
  have hregs := Chip.rxFilled_regs ha i ws (word (ofBool phase + 2 * ofBool fail))
  have hring := Chip.rxFilled_onlyRing ha i ws (word (ofBool phase + 2 * ofBool fail))
  have hflag : s.flag d (F.BLW_FABPORT_RX_LAP q) = !phase := by rw [← hphase, Bool.not_not]
  intro c
  rw [show c = _ from hput]
  generalize s.rxFilled d q i ws (word (ofBool phase + 2 * ofBool fail)) = t at hwords hmark hregs hring ⊢
  have hnext := t.ringStep_next d (Reg.BLW_FABPORT q) 1 13 i phase (by decide) (by decide)
  have hlap := t.ringStep_lap d (Reg.BLW_FABPORT q) 1 13 i phase (by decide) (by decide)
  have hlap' : t.flag d ⟨Reg.BLW_FABPORT q, 13, 1⟩ = !phase := (Chip.flag_congr hregs d _).trans hflag
  have hkeep := fun a => t.mailWord_ringStep d ⟨Reg.BLW_FABPORT q, 1, 6⟩ ⟨Reg.BLW_FABPORT q, 13, 1⟩ i phase q a
  have honly := hring.trans (t.ringStep_onlyRegs d ⟨Reg.BLW_FABPORT q, 1, 6⟩ ⟨Reg.BLW_FABPORT q, 13, 1⟩ i phase).ring
  simp only [F.BLW_FABPORT_RX_NEXT, F.BLW_FABPORT_RX_LAP]
  generalize t.ringStep d ⟨Reg.BLW_FABPORT q, 1, 6⟩ ⟨Reg.BLW_FABPORT q, 13, 1⟩ i phase = u at hnext hlap hkeep honly ⊢
  have hmail := u.lapNoted_mail d q (i == 63)
  have hframe := u.lapNoted_frame d q (i == 63)
  generalize u.lapNoted d q (i == 63) = v at hmail hframe ⊢
  have hword : ∀ a, v.mailWord d q a = t.mailWord d q a := fun a => by rw [hframe]; exact hkeep a
  have hvregs : v.regs = u.regs := by rw [hframe]
  refine ⟨⟨fun k hk => (hword _).trans (hwords k hk), (hword _).trans hmark, ?_, ?_, ?_⟩, ?_, ?_⟩
  · rw [Chip.fld_congr hvregs, hnext]
  · rw [hmail, honly.mail_eq]
  · rw [Chip.flag_congr hvregs, hlap, hlap']
  · rw [hmail, honly.mail_eq]
  · rw [hframe]; exact honly.ports_eq

/-- A receive slot i of a port as it was filled with words ws and a FULL mark of a flit (fail 0) or a failure record (fail 1), the
ring moved on past it. -/
def RxWrote (s c : Chip) (d q i : Nat) (phase : Bool) (ws : List W36) (fail : Nat) : Prop :=
  (∀ k : Fin 6, (c.ramWord d (fabRam d q) (8 * i + k)).value = ws.getD k 0) ∧
  (c.ramWord d (fabRam d q) (8 * i + 6)).value = word (ofBool phase + 2 * fail) ∧
  c.fld d (F.BLW_FABPORT_RX_NEXT q) = (i + 1) % 64 ∧ (c.mail d q).rxLapped = ((s.mail d q).rxLapped || i == 63) ∧
  c.flag d (F.BLW_FABPORT_RX_LAP q) = (if i = 63 then phase else !phase)

section
variable {s : Chip} {d q : Nat} (hserved : s.fabServed d q = true) (hfree : s.fabRxFree d q = true)
  (ha : s.flipArmed d 1 (fabRam d q) = false)
include hserved hfree ha

/-- A waiting failure record is written first, and taken from the engine (R328). -/
theorem Chip.fabRx_failure_spec {w0 w1 : W36} {rest : List (W36 × W36)} (h : (s.mail d q).failures = (w0, w1) :: rest) :
    let c := s.fabRx d q
    RxWrote s c d q (s.fld d (F.BLW_FABPORT_RX_NEXT q)) (!s.flag d (F.BLW_FABPORT_RX_LAP q)) [w0, w1] 1 ∧
      (c.mail d q).failures = rest ∧ c.ports = s.ports := by
  rw [Chip.fabRx_failure hserved hfree h]
  obtain ⟨⟨hwords, hmark, hnext, hlapped, hlap⟩, hfailures, hports⟩ :=
    Chip.fabRxPut_spec (s := s.onMail d q (fun m => { m with failures := rest })) rfl rfl ha [w0, w1] true
  rw [Chip.mail_onMail] at hlapped hfailures
  exact ⟨⟨fun k => hwords k k.isLt, hmark, hnext, hlapped, hlap⟩, hfailures, hports⟩

/-- With no failure record waiting the port's next delivered flit is written, and taken from the port (R328). -/
theorem Chip.fabRx_delivered_spec {f : Flit} {rest : List Flit} (hnone : (s.mail d q).failures = [])
    (h : (s.port (fabRouter d q) (q % 2)).delivered = f :: rest) :
    let c := s.fabRx d q
    RxWrote s c d q (s.fld d (F.BLW_FABPORT_RX_NEXT q)) (!s.flag d (F.BLW_FABPORT_RX_LAP q))
        [f.w0, f.w1, f.w2, f.w3, f.w4, f.w5] 0 ∧
      c.port (fabRouter d q) (q % 2) = { s.port (fabRouter d q) (q % 2) with delivered := rest } := by
  rw [Chip.fabRx_delivered hserved hfree hnone h]
  obtain ⟨⟨hwords, hmark, hnext, hlapped, hlap⟩, -, hports⟩ :=
    Chip.fabRxPut_spec (s := s.onPort (fabRouter d q) (q % 2) (fun p => { p with delivered := rest })) (q := q) rfl rfl ha
      [f.w0, f.w1, f.w2, f.w3, f.w4, f.w5] false
  refine ⟨⟨fun k => hwords k k.isLt, hmark, hnext, hlapped, hlap⟩, ?_⟩
  exact (congrArg (fun m => SMap.get m _) hports).trans (s.port_onPort _ _ _)

end

end Sys2Proof.Machine
end

section
/-! PROOFS. The statement about release, the registers of Bellows and the FAB port mailboxes. -/

namespace Sys2Proof.Machine

/-- Settles O43: each clause is what the lemma about its command's function says, at the chip that the command finds. -/
theorem bellowsReleaseAndRegisters : Obligations.BellowsReleaseAndRegisters := by
  refine ⟨⟨?release, ?pop⟩, ⟨?flow, ?template, ?worker, ?histogram⟩, ?fabPort, ?transmit, ?receive⟩
  case release =>
    intro s d flow hr base q moved
    refine ⟨fun m hm hf hrel => ?_, fun hm => ?_, fun m x tpl hm hf hrel hx => ?_, fun m cause tpl hm hf hq hk => ?_⟩
    · exact NoEffect.of_onDie (exec_releaseItem d flow s) (Chip.releaseItem_of_waiting hm hf hrel)
    · exact NoEffect.of_onDie (exec_releaseItem d flow s) (Chip.releaseItem_of_absent hm)
    · exact releaseItem_release hr hm hf hrel hx
    · exact releaseItem_failed hr hm hf hq hk
  case pop =>
    intro s d hr
    refine ⟨fun hq => Done.of_onDie (exec_blwResultPop d s) hr ?_, fun i rest hq => blwResultPop_item hr hq⟩
    rw [Chip.resultPop_empty hq]
    exact ⟨rfl, rfl⟩
  case flow =>
    intro s d flow v hr base
    refine ⟨fun hany => ?_, fun hnone => ?_, fun h21 hm hs => ?_, fun h21 hm hv => ?_⟩
    · have hfailed := Chip.blwFlowWrite_failed d.isLt flow.isLt (bit_failHead v) hany
      exact Done.of_onDie (exec_failHead d flow v s) hr ⟨hfailed.mark, hfailed.base, hfailed.fault, hfailed.logged⟩
    · have honly := Chip.blwFlowWrite_onlyRegs (v := v ||| 0x200000) (.inr hnone)
      exact Done.of_onDie (exec_failHead d flow v s) hr ⟨by rw [honly], honly.log_eq⟩
    · exact Done.of_result (exec_blwFlowWrite d flow v s) hr (Chip.blwFlowWrite_of_empty h21 hm hs)
        ⟨Chip.flowSet_base _ d flow v, Chip.flowSet_en _ d flow v, Chip.flowSet_onlyRegs _ d flow v,
          Chip.flowSet_regsBut _ d flow.isLt v⟩
    · exact Done.of_result (exec_blwFlowWrite d flow v s) hr (Chip.blwFlowWrite_of_moves h21 hm hv) (Chip.blwRefuse_spec _ d)
  case template =>
    intro s d t isB v hr
    refine ⟨fun hused => ?_, fun hfree hA => ?_, fun hfree hB => ?_⟩
    · exact Done.of_result (exec_blwTplWrite d t isB v s) hr (Chip.blwTplWrite_of_inUse hused isB v) (Chip.blwRefuse_spec _ d)
    · subst hA; exact blwTplWrite_A_done t v hr hfree
    · subst hB; exact blwTplWrite_B_done t v hr hfree
  case worker =>
    intro s d w v hr lawful on held
    have hlawful : lawful ↔ workerLawful d w v = true := (workerLawful_iff d w v).symm
    refine ⟨fun h16 hl => ?_, fun h16 hl hon hv => ?_, fun h16 hon => ?_, fun hon hl => ?_⟩
    · rw [hlawful, Bool.not_eq_true] at hl
      exact Done.of_result (exec_blwWorkerWrite d w v s) hr (Chip.blwWorkerWrite_of_unlawful h16 hl) (Chip.blwRefuse_spec _ d)
    · exact Done.of_result (exec_blwWorkerWrite d w v s) hr (Chip.blwWorkerWrite_of_changed h16 (hlawful.mp hl) hon hv)
        (Chip.blwRefuse_spec _ d)
    · exact Done.of_onDie (exec_blwWorkerWrite d w v s) hr (Chip.blwWorkerWrite_off_spec w.isLt h16 hon)
    · exact Done.of_onDie (exec_blwWorkerWrite d w v s) hr
        (Chip.blwWorkerWrite_new_spec w.isLt (fun h => hlawful.mp (hl h)) hon)
  case histogram => exact fun s d v hr => histClr_done v hr
  case fabPort =>
    intro s d q v hr
    refine ⟨fun h0 hc => ?_, fun h0 hc => ?_, fun h0 => ?_⟩
    · exact Done.of_result (exec_blwFabportWrite d q v s) hr (Chip.blwFabportWrite_cascaded h0 hc) (Chip.blwRefuse_spec _ d)
    · exact Done.of_onDie (exec_blwFabportWrite d q v s) hr (Chip.blwFabportWrite_on_spec q.isLt h0 hc)
    · exact Done.of_onDie (exec_blwFabportWrite d q v s) hr (Chip.blwFabportWrite_off_spec q.isLt h0)
  case transmit =>
    intro s d q hr i word6 phase port
    refine ⟨fun h => NoEffect.of_onDie (exec_fabTxSlot d q s) (Chip.fabTx_idle h), fun hserved hwait hfull ha hgood => ?_⟩
    exact Done.of_onDie (exec_fabTxSlot d q s) hr (Chip.fabTx_spec q.isLt rfl rfl hserved hwait hfull ha hgood)
  case receive =>
    intro s d q hr i phase port wrote
    refine ⟨fun h => NoEffect.of_onDie (exec_fabRxFlit d q s) (Chip.fabRx_idle h), fun hserved hfree ha =>
      ⟨fun w0 w1 rest hfail => ?_, fun f rest hnone hdel => ?_⟩⟩
    · exact Done.of_onDie (exec_fabRxFlit d q s) hr (Chip.fabRx_failure_spec hserved hfree ha hfail)
    · exact Done.of_onDie (exec_fabRxFlit d q s) hr (Chip.fabRx_delivered_spec hserved hfree ha hnone hdel)

end Sys2Proof.Machine
end

section
/-! PROOFS. What the entry into SECURE_HALT leaves of an integrity failure: its record, the device state and the zeroised keys
(R523, R524), and MAC_CHECK (R519). -/

namespace Sys2Proof.Machine

/-! ### A channel's record changed -/

theorem Chip.onDdr_regs (s : Chip) (d c : Nat) (f : DdrChan → DdrChan) : (s.onDdr d c f).regs = s.regs := rfl

theorem Chip.ddrChan_onDdr (s : Chip) (d c : Nat) (f : DdrChan → DdrChan) :
    (s.onDdr d c f).ddrChan d c = f (s.ddrChan d c) := SMap.get_upd_same _ _ _

/-! ### What the steps of a halt leave as it was -/

/-- From a to b the device state and every die's MIE_HALT_INFO stay, and no channel whose keys are zeroised has keys again. -/
structure KeepsHalt (a b : Chip) : Prop where
  dev : b.dev = a.dev
  info : ∀ d, b.reg d Reg.MIE_HALT_INFO = a.reg d Reg.MIE_HALT_INFO
  keys : ∀ d c, (a.ddrChan d c).keys = none → (b.ddrChan d c).keys = none

namespace KeepsHalt

theorem of_frame {a b : Chip} (hregs : b.regs = a.regs) (hcfg : b.cfg = a.cfg) (hddr : b.ddr = a.ddr) : KeepsHalt a b where
  dev := Chip.dev_congr hcfg
  info d := Chip.reg_congr hregs d _
  keys d c h := by rw [Chip.ddrChan, hddr]; exact h

theorem refl (s : Chip) : KeepsHalt s s := of_frame rfl rfl rfl

theorem trans {a b c : Chip} (h : KeepsHalt a b) (h' : KeepsHalt b c) : KeepsHalt a c where
  dev := h'.dev.trans h.dev
  info d := (h'.info d).trans (h.info d)
  keys d ch hk := h'.keys d ch (h.keys d ch hk)

theorem of_regsBut {P : Nat → Nat → Prop} {a b : Chip} (h : RegsBut P a b) (hn : ∀ d, ¬ P d Reg.MIE_HALT_INFO)
    (honly : OnlyRegsAndLog a b) : KeepsHalt a b where
  dev := honly.dev_eq
  info d := h d _ (by decide) (hn d)
  keys d c hk := by rw [Chip.ddrChan, honly]; exact hk

theorem setFld (s : Chip) (d : Nat) {f : Fld} (v : Nat) (h : f.off < 2 ^ 23 ∧ f.off ≠ Reg.MIE_HALT_INFO) :
    KeepsHalt s (s.setFld d f v) :=
  of_regsBut (Chip.setReg_regsBut s _ h.1) (fun _ hp => h.2 hp.2.symm) (OnlyRegs.setFld s d f v).log

theorem setFlag (s : Chip) (d : Nat) {f : Fld} (b : Bool) (h : f.off < 2 ^ 23 ∧ f.off ≠ Reg.MIE_HALT_INFO) :
    KeepsHalt s (s.setFlag d f b) := setFld s d _ h

theorem logEv (s : Chip) (d : Nat) (ev : Ev) (detail : Nat) : KeepsHalt s (s.logEv d ev detail) :=
  of_regsBut (s.logEv_regsBut d ev detail) (fun _ hp => absurd hp.2 (by decide)) (s.logEv_only d ev detail)

theorem ite {s a b : Chip} {c : Prop} [Decidable c] (ha : KeepsHalt s a) (hb : KeepsHalt s b) :
    KeepsHalt s (if c then a else b) := by
  split
  · exact ha
  · exact hb

theorem each {α : Type} {f : Chip → α → Chip} (xs : List α) (h : ∀ s, ∀ x ∈ xs, KeepsHalt s (f s x)) (s : Chip) :
    KeepsHalt s (s.each xs f) := by
  induction xs generalizing s with
  | nil => exact refl s
  | cons x xs ih => exact (h s x (by simp)).trans (ih (fun s y hy => h s y (by simp [hy])) (f s x))

theorem upTo {f : Chip → Nat → Chip} (n : Nat) (h : ∀ s, ∀ x, x < n → KeepsHalt s (f s x)) (s : Chip) :
    KeepsHalt s (s.upTo n f) := each (List.range n) (fun s x hx => h s x (List.mem_range.mp hx)) s

/-- A channel's record changed by what gives no keys. -/
theorem onDdr (s : Chip) (d c : Nat) (f : DdrChan → DdrChan) (h : ∀ x, x.keys = none → (f x).keys = none) :
    KeepsHalt s (s.onDdr d c f) where
  dev := rfl
  info _ := rfl
  keys d' c' hk := by
    simp only [Chip.ddrChan, Chip.onDdr, SMap.get_upd] at hk ⊢
    split
    · next hkey => rw [hkey] at hk; exact h _ hk
    · exact hk

end KeepsHalt

/-! ### The steps of a halt -/

theorem Chip.onBank_keepsHalt (s : Chip) (d b : Nat) (f : UioBank → UioBank) : KeepsHalt s (s.onBank d b f) :=
  KeepsHalt.of_frame rfl rfl rfl

theorem Chip.ethCleared_keepsHalt (s : Chip) (d : Nat) : KeepsHalt s (s.ethCleared d) := KeepsHalt.of_frame rfl rfl rfl

theorem Chip.sessionsClosed_keepsHalt (s : Chip) (d : Nat) : KeepsHalt s (s.sessionsClosed d) := KeepsHalt.of_frame rfl rfl rfl

theorem Chip.unlockEnds_keepsHalt (s : Chip) : KeepsHalt s s.unlockEnds := KeepsHalt.of_frame rfl rfl rfl

theorem Chip.abandonPort_keepsHalt (s : Chip) (p : Nat) (halt : Bool) : KeepsHalt s (s.abandonPort p halt) :=
  KeepsHalt.of_frame rfl rfl rfl

theorem Chip.keysZeroised_keepsHalt (s : Chip) (d : Nat) : KeepsHalt s (s.keysZeroised d) :=
  KeepsHalt.upTo 4 (fun s k _ => (KeepsHalt.of_frame rfl rfl rfl : KeepsHalt s (s.onKarn d k _)).trans
    (KeepsHalt.setFlag _ d _ (by simp only [F.KRN_LINK_STATUS_KEY_OK, Reg.KRN_LINK_STATUS, Reg.MIE_HALT_INFO]; omega))) s

theorem Chip.dropLatch_keepsHalt (s : Chip) (d : Nat) {b : Nat} (hb : b < 2) : KeepsHalt s (s.dropLatch d b) :=
  (s.onBank_keepsHalt d b _).trans (KeepsHalt.setFld _ d _ (by
    simp only [F.UIO_BANK_STATUS_LATCH_CAUSE, Reg.UIO_BANK_STATUS, Reg.MIE_HALT_INFO]; omega))

theorem Chip.ethRefresh_keepsHalt (s : Chip) (d : Nat) {m : Nat} (hm : m < 2) : KeepsHalt s (s.ethRefresh d m) := by
  have hstatus : Reg.ETH_STATUS m < 2 ^ 23 ∧ Reg.ETH_STATUS m ≠ Reg.MIE_HALT_INFO := by
    simp only [Reg.ETH_STATUS, Reg.MIE_HALT_INFO]; omega
  refine KeepsHalt.upTo 4 (fun s p _ => ?_) s
  extract_lets on up link was put t1 t2
  have ht2 : KeepsHalt s t2 := (KeepsHalt.setFld s d _ hstatus).trans (KeepsHalt.setFld t1 d _ hstatus)
  exact KeepsHalt.ite ((ht2.trans (KeepsHalt.setFlag t2 d _ hstatus)).trans (KeepsHalt.logEv _ d _ _)) ht2

theorem Chip.setGroup_keepsHalt (s : Chip) (d : Nat) {q : Nat} (hq : q < 8) {lanes : List Nat}
    (hl : ∀ l ∈ lanes, l < 4) (st : Nat) : KeepsHalt s (s.setGroup d q lanes st) := by
  have hlink : Reg.KRN_LINK_STATUS (q / 2) < 2 ^ 23 ∧ Reg.KRN_LINK_STATUS (q / 2) ≠ Reg.MIE_HALT_INFO := by
    simp only [Reg.KRN_LINK_STATUS, Reg.MIE_HALT_INFO]; omega
  unfold Chip.setGroup
  extract_lets t1 k was t2 t3
  have h1 : KeepsHalt s t1 := by
    refine KeepsHalt.each lanes (fun s l hmem => ?_) s
    have hlane : Reg.XCV_LANE_STATUS q l < 2 ^ 23 ∧ Reg.XCV_LANE_STATUS q l ≠ Reg.MIE_HALT_INFO := by
      have := hl l hmem
      simp only [Reg.XCV_LANE_STATUS, Reg.MIE_HALT_INFO]; omega
    extract_lets u1 u2
    have hu1 : KeepsHalt s u1 := KeepsHalt.setFld s d _ hlane
    have hu2 : KeepsHalt s u2 :=
      KeepsHalt.ite ((hu1.trans (KeepsHalt.setFlag u1 d _ hlane)).trans (KeepsHalt.setFlag _ d _ hlane)) hu1
    exact hu2.trans (KeepsHalt.of_frame rfl rfl rfl)
  have h2 : KeepsHalt s t2 := h1.trans (KeepsHalt.setFld t1 d _ hlink)
  have h3 : KeepsHalt s t3 :=
    KeepsHalt.ite (KeepsHalt.ite (h2.trans (KeepsHalt.of_frame rfl rfl rfl))
      (KeepsHalt.ite (h2.trans (KeepsHalt.of_frame rfl rfl rfl)) h2)) h1
  exact KeepsHalt.ite (h3.trans (Chip.ethRefresh_keepsHalt t3 d (by omega))) h3

theorem Chip.quadDown_keepsHalt (s : Chip) (d : Nat) {q : Nat} (hq : q < 8) : KeepsHalt s (s.quadDown d q) :=
  KeepsHalt.upTo 4 (fun s l hl => KeepsHalt.ite (KeepsHalt.refl s)
    (Chip.setGroup_keepsHalt s d hq (by simpa using hl) 0)) s

/-- What SECURE_HALT makes of a channel's record (R524). -/
def haltedChan (x : DdrChan) : DdrChan :=
  { x with keys := none, oldKeys := none, queue := [], jobs := [], taking := [], macs := [], cache := [], root := [] }

/-- What SECURE_HALT does to a channel: its record, and self-refresh where it was ready (R524). -/
def Chip.haltedChannel (s : Chip) (d c : Nat) : Chip :=
  (s.onDdr d c haltedChan).when ((s.onDdr d c haltedChan).fld d (F.DDR_STATUS_STATE c) == 3) (fun s =>
    s.setFld d (F.DDR_STATUS_STATE c) 4)

theorem Chip.haltedChannel_keepsHalt (s : Chip) (d : Nat) {c : Nat} (hc : c < 2) : KeepsHalt s (s.haltedChannel d c) := by
  have hrec : KeepsHalt s (s.onDdr d c haltedChan) := KeepsHalt.onDdr s d c _ (fun _ _ => rfl)
  exact hrec.trans (KeepsHalt.ite
    (KeepsHalt.setFld _ d _ (by simp only [F.DDR_STATUS_STATE, Reg.DDR_STATUS, Reg.MIE_HALT_INFO]; omega)) (KeepsHalt.refl _))

theorem Chip.haltedChannel_keys (s : Chip) (d c : Nat) : ((s.haltedChannel d c).ddrChan d c).keys = none := by
  have hrec : ((s.onDdr d c haltedChan).ddrChan d c).keys = none := by simp [Chip.ddrChan, Chip.onDdr, haltedChan]
  unfold Chip.haltedChannel Chip.when
  split
  · exact hrec
  · exact hrec

/-- A die before its channels halt. -/
def Chip.haltedBlocks (s : Chip) (d : Nat) : Chip :=
  let s := (s.setFlag d F.CFG_STATUS_DONE_OUT false).keysZeroised d
  let s := s.upTo 2 (fun s b => (s.dropLatch d b).onBank d b (fun x => { x with words := [] }))
  ((s.upTo 8 (fun s q => s.quadDown d q)).ethCleared d).sessionsClosed d

theorem Chip.haltedDie_eq (s : Chip) (d : Nat) :
    s.haltedDie d = (s.haltedBlocks d).upTo 2 (fun s c => s.haltedChannel d c) := rfl

theorem Chip.haltedBlocks_keepsHalt (s : Chip) (d : Nat) : KeepsHalt s (s.haltedBlocks d) := by
  unfold Chip.haltedBlocks
  extract_lets t1 t2
  have h1 : KeepsHalt s t1 := (KeepsHalt.setFlag s d _ (by decide)).trans (Chip.keysZeroised_keepsHalt _ d)
  have h2 : KeepsHalt s t2 := h1.trans (KeepsHalt.upTo 2 (fun s b hb =>
    (s.dropLatch_keepsHalt d hb).trans (Chip.onBank_keepsHalt _ d b _)) t1)
  have h3 := h2.trans (KeepsHalt.upTo 8 (fun s q hq => s.quadDown_keepsHalt d hq) t2)
  exact (h3.trans (Chip.ethCleared_keepsHalt _ d)).trans (Chip.sessionsClosed_keepsHalt _ d)

theorem Chip.haltedDie_keepsHalt (s : Chip) (d : Nat) : KeepsHalt s (s.haltedDie d) := by
  rw [Chip.haltedDie_eq]
  exact (s.haltedBlocks_keepsHalt d).trans (KeepsHalt.upTo 2 (fun s _ hc => s.haltedChannel_keepsHalt d hc) _)

/-- What each step of a loop makes hold of its index, and every step keeps, holds of every index after the loop. -/
theorem Chip.upTo_establishes {f : Chip → Nat → Chip} {P : Nat → Chip → Prop} (n : Nat) (hstep : ∀ s x, P x (f s x))
    (hkeep : ∀ s x y, y < n → P x s → P x (f s y)) (s : Chip) {x : Nat} (hx : x < n) : P x (s.upTo n f) := by
  induction n with
  | zero => omega
  | succ n ih =>
    have hlast : s.upTo (n + 1) f = f (s.upTo n f) n := by simp [Chip.upTo, List.range_succ]
    rw [hlast]
    by_cases hxn : x = n
    · subst hxn; exact hstep _ _
    · exact hkeep _ x n (by omega) (ih (fun s x y hy => hkeep s x y (by omega)) (by omega))

theorem Chip.haltedDie_keys (s : Chip) (d : Nat) {c : Nat} (hc : c < 2) : ((s.haltedDie d).ddrChan d c).keys = none := by
  rw [Chip.haltedDie_eq]
  exact Chip.upTo_establishes (P := fun c t => (t.ddrChan d c).keys = none) 2 (fun s c => s.haltedChannel_keys d c)
    (fun s c _ hy h => (s.haltedChannel_keepsHalt d hy).keys d c h) _ hc

/-! ### The entry into SECURE_HALT (R524) -/

/-- The device state and the command ports as SECURE_HALT sets them, before its dies halt. -/
def Chip.haltBegun (s : Chip) : Chip :=
  let s := (s.setDev .secureHalt).upTo 5 (fun s p => s.abandonPort p true)
  { s with haltOut := ~~~s.inReset, loads := [], updates := [] }

theorem Chip.enterSecureHalt_eq {s : Chip} (hdev : s.dev ≠ .secureHalt) (halive : s.alive = true) :
    s.enterSecureHalt = (s.haltBegun.upTo 4 (fun s d => s.haltedDie d)).unlockEnds := by
  simp only [Chip.enterSecureHalt, hdev, halive, Chip.haltBegun, decide_false, Bool.not_true, Bool.or_self, Bool.false_eq_true,
    if_false]

theorem Chip.haltBegun_keepsHalt (s : Chip) : KeepsHalt (s.setDev .secureHalt) s.haltBegun := by
  unfold Chip.haltBegun
  extract_lets t
  have ht : KeepsHalt (s.setDev .secureHalt) t := KeepsHalt.upTo 5 (fun s p _ => s.abandonPort_keepsHalt p true) _
  clear_value t
  exact ht.trans (KeepsHalt.of_frame rfl rfl rfl)

/-- A part that enters SECURE_HALT shows that state, keeps MIE_HALT_INFO, and has no channel keys (R524, R527). -/
theorem Chip.enterSecureHalt_spec {s : Chip} (hdev : s.dev ≠ .secureHalt) (halive : s.alive = true) :
    s.enterSecureHalt.dev = .secureHalt ∧ (∀ d, s.enterSecureHalt.reg d Reg.MIE_HALT_INFO = s.reg d Reg.MIE_HALT_INFO) ∧
      ∀ d < 4, ∀ c < 2, (s.enterSecureHalt.ddrChan d c).keys = none := by
  have hdies := KeepsHalt.upTo 4 (fun s d _ => Chip.haltedDie_keepsHalt s d) s.haltBegun
  have hall := (s.haltBegun_keepsHalt.trans hdies).trans (Chip.unlockEnds_keepsHalt _)
  rw [Chip.enterSecureHalt_eq hdev halive]
  refine ⟨hall.dev.trans (s.setDev_dev _), fun d => (hall.info d).trans ?_, fun d hd c hc => ?_⟩
  · exact s.setDev_regsBut .secureHalt d _ (by decide) (fun hp => absurd hp.2 (by decide))
  · have hkeys := Chip.upTo_establishes (P := fun d t => ∀ c < 2, (t.ddrChan d c).keys = none) 4
      (fun s d c hc => s.haltedDie_keys d hc) (fun s d e _ h c hc => (s.haltedDie_keepsHalt e).keys d c (h c hc)) s.haltBegun hd
    exact (Chip.unlockEnds_keepsHalt _).keys d c (hkeys c hc)

/-! ### An integrity failure (R523, R527) -/

/-- The word that records an integrity failure in MIE_HALT_INFO. -/
def haltInfo (c line cause : Nat) : W36 := word (line % 2 ^ 32 + c * 2 ^ 32 + cause * 2 ^ 33)

theorem bits_haltInfo {c cause : Nat} (hc : c < 2) (hcause : cause < 8) (line : Nat) :
    bits (haltInfo c line cause) 0 32 = line % 2 ^ 32 ∧ bits (haltInfo c line cause) 32 1 = c ∧
      bits (haltInfo c line cause) 33 3 = cause := by
  have hnat : (haltInfo c line cause).toNat = line % 2 ^ 32 + c * 2 ^ 32 + cause * 2 ^ 33 := by
    rw [haltInfo, word, BitVec.toNat_ofNat]
    exact Nat.mod_eq_of_lt (by omega)
  simp only [bits, hnat, Nat.shiftRight_eq_div_pow]
  omega

/-- An integrity failure recorded and logged, before the part halts (R523, R527). -/
def Chip.failureRecorded (s : Chip) (d c line cause : Nat) : Chip :=
  let s := s.setReg d Reg.MIE_HALT_INFO (haltInfo c line cause)
  { (s.logEv d Ev.mieSecureHalt (s.reg d Reg.MIE_HALT_INFO).toNat) with haltDie := some d }

theorem Chip.failureRecorded_keepsHalt (s : Chip) (d c line cause : Nat) :
    KeepsHalt (s.setReg d Reg.MIE_HALT_INFO (haltInfo c line cause)) (s.failureRecorded d c line cause) := by
  unfold Chip.failureRecorded
  extract_lets t
  exact (KeepsHalt.logEv t d _ _).trans (KeepsHalt.of_frame rfl rfl rfl)

theorem Chip.integrityFailure_eq {s : Chip} (hdev : s.dev ≠ .secureHalt) (d c line cause : Nat) :
    s.integrityFailure d c line cause = (s.failureRecorded d c line cause).enterSecureHalt := if_neg hdev

/-- An integrity failure of a running part halts it and leaves line, channel and cause in MIE_HALT_INFO (R523, R524, R527). -/
theorem Chip.integrityFailure_spec {s : Chip} {d c line cause : Nat} (hdev : s.dev ≠ .secureHalt) (halive : s.alive = true)
    (hd : d < 4) (hc : c < 2) (hcause : cause < 8) :
    let t := s.integrityFailure d c line cause
    t.dev = .secureHalt ∧ t.fld d F.MIE_HALT_INFO_LINE = line % 2 ^ 32 ∧ t.fld d F.MIE_HALT_INFO_CH = c ∧
      t.fld d F.MIE_HALT_INFO_CAUSE = cause ∧ (t.ddrChan d c).keys = none := by
  have hkeep := s.failureRecorded_keepsHalt d c line cause
  rw [Chip.integrityFailure_eq hdev]
  generalize s.failureRecorded d c line cause = u at hkeep ⊢
  have hdev' : u.dev = s.dev := hkeep.dev
  obtain ⟨hhalt, hinfo, hkeys⟩ := Chip.enterSecureHalt_spec (hdev' ▸ hdev) (by rw [Chip.alive, hdev']; exact halive)
  have hreg : u.enterSecureHalt.reg d Reg.MIE_HALT_INFO = haltInfo c line cause := by
    rw [hinfo, hkeep.info, Chip.reg_setReg_same]
  obtain ⟨hline, hch, hcs⟩ := bits_haltInfo hc hcause line
  refine ⟨hhalt, ?_, ?_, ?_, hkeys d hd c hc⟩
  · exact (congrArg (fun w => bits w 0 32) hreg).trans hline
  · exact (congrArg (fun w => bits w 32 1) hreg).trans hch
  · exact (congrArg (fun w => bits w 33 3) hreg).trans hcs

/-! ### MAC_CHECK (R519) -/

theorem exec_macCheck (d : Die) (c : Fin 2) (s : State) : exec (.macCheck d c) s = s.onDie d (fun x => x.macCheck d c) := rfl

theorem Chip.macCheck_none {s : Chip} {d c : Nat} (h : (s.ddrChan d c).macs = []) : s.macCheck d c = s := by
  simp [Chip.macCheck, h]

theorem Chip.macCheck_good {s : Chip} {d c line : Nat} {r : List (Nat × Bool)} (h : (s.ddrChan d c).macs = (line, true) :: r) :
    s.macCheck d c = s.onDdr d c (fun x => { x with macs := r }) := by simp [Chip.macCheck, h]

theorem Chip.macCheck_bad {s : Chip} {d c line : Nat} {r : List (Nat × Bool)} (h : (s.ddrChan d c).macs = (line, false) :: r) :
    s.macCheck d c = (s.onDdr d c (fun x => { x with macs := r })).integrityFailure d c line 1 := by simp [Chip.macCheck, h]

/-- A channel's record changed is a change of that channel alone. -/
theorem onlyChannel_onDdr (s : Chip) (d c : Nat) (f : DdrChan → DdrChan) : onlyChannel d c s (s.onDdr d c f) :=
  ⟨fun _ hj => SMap.get_upd_other _ _ hj, rfl⟩

theorem Chip.alive_of_runs {s : Chip} {d : Nat} (h : s.runs d = true) : s.alive = true := by
  simp only [Chip.runs, Bool.and_eq_true] at h
  exact h.1.1

theorem macCheck_failed {s : State} {d : Die} {ch : Fin 2} {line : Nat} {r : List (Nat × Bool)} (hr : s.chip.runs d = true)
    (hmacs : (s.chip.ddrChan d ch).macs = (line, false) :: r) (hdev : s.chip.dev ≠ .secureHalt) :
    Done (.macCheck d ch) s (fun c => c.dev = .secureHalt ∧ c.fld d F.MIE_HALT_INFO_LINE = line % 2 ^ 32 ∧
      c.fld d F.MIE_HALT_INFO_CH = ch ∧ c.fld d F.MIE_HALT_INFO_CAUSE = 1 ∧ (c.ddrChan d ch).keys = none) :=
  Done.of_result (exec_macCheck d ch s) hr (Chip.macCheck_bad hmacs)
    (Chip.integrityFailure_spec (s := s.chip.onDdr d ch _) hdev (Chip.alive_of_runs hr) d.isLt ch.isLt (by decide))

end Sys2Proof.Machine
end

section
/-! PROOFS. Lines as the engine stores them: their check fields and verdicts, and how a line is written and read while no flip is
armed and no rank migrates (R503 to R506, R519); the initialisation of a channel (R528). -/

namespace Sys2Proof.Machine

/-! ### Check fields and verdicts (R503, R504) -/

/-- A field written again holds the later value. -/
theorem putBits_putBits_same {n : Nat} (w : BitVec n) (lo width v v' : Nat) :
    putBits (putBits w lo width v) lo width v' = putBits w lo width v' := by
  refine BitVec.eq_of_getLsbD_eq (fun i hi => ?_)
  simp only [getLsbD_putBits _ _ _ _ _ hi]
  split <;> rfl

/-- A check field depends on the former one only outside its CRC. -/
theorem withCrc_withCrc (mode : Nat) (v : BitVec 576) (chk : BitVec 64) (p q : Bool) :
    withCrc mode v (withCrc mode v chk p) q = withCrc mode v chk q := by
  by_cases hmode : mode = 1
  · simp only [withCrc, hmode, if_true, putBits_putBits_same]
  · simp only [withCrc, hmode, if_false]

/-- A line stored with the good CRC of its data passes. -/
theorem lineVerdict_withCrc (mode : Nat) (v : BitVec 576) (chk : BitVec 64) :
    lineVerdict mode { data := v, chk := withCrc mode v chk false } = .pass := by
  rw [lineVerdict, if_pos (withCrc_withCrc mode v chk false false).symm]

/-- The bits of a Compact line's check field that the CRC leaves hold the MAC stored there (R506). -/
theorem bits_withCrc_mac {mac : Nat} (h : mac < 2 ^ 48) (v : BitVec 576) (p : Bool) :
    bits (withCrc 1 v (BitVec.ofNat 64 (mac * 2 ^ 16)) p) 16 48 = mac := by
  rw [withCrc, if_pos rfl, bits_putBits_other _ _ _ _ _ _ (by decide), bits, BitVec.toNat_ofNat, Nat.shiftRight_eq_div_pow]
  omega

/-- A line as Plain mode stores it. -/
def plainLine (data : BitVec 576) : DramLine := { data := data, chk := withCrc 0 data 0 false }

/-- A line as Compact mode stores it: encrypted under its address, with its MAC and CRC (R505, R506). -/
def compactLine (k : MieKeys) (line : Nat) (data : BitVec 576) : DramLine :=
  let ct := Config.xtsEncrypt k.data k.tweak line data
  { data := ct, chk := withCrc 1 ct (BitVec.ofNat 64 (mac48 k line false ct * 2 ^ 16)) false }

theorem lineVerdict_compactLine (k : MieKeys) (line : Nat) (data : BitVec 576) :
    lineVerdict 1 (compactLine k line data) = .pass := lineVerdict_withCrc 1 _ _

theorem mac48_lt (k : MieKeys) (line : Nat) (poison : Bool) (ct : BitVec 576) : mac48 k line poison ct < 2 ^ 48 := bits_lt _ 80 48

theorem compactLine_mac (k : MieKeys) (line : Nat) (data : BitVec 576) :
    bits (compactLine k line data).chk 16 48 = mac48 k line false (compactLine k line data).data :=
  bits_withCrc_mac (mac48_lt k line false _) _ false

/-- A node of the tree that holds zero counters under version 0, as initialisation stores it (R511, R528). -/
def freshNode (k : MieKeys) (addr : Nat) : DramLine :=
  let v := packLine 0 (nodeMac k addr 0 0)
  { data := v, chk := withCrc 2 v 0 false }

theorem lineVerdict_freshNode (k : MieKeys) (addr : Nat) : lineVerdict 2 (freshNode k addr) = .pass := lineVerdict_withCrc 2 _ _

/-! ### A line written or read at its place -/

/-- The key of the stored line that serves a line of a channel (R469, R471). -/
def Chip.lineKey (s : Chip) (d c line : Nat) : Nat :=
  dramKey d c (s.physRank d c (s.place d c line).rank) (s.place d c line).index

/-- The chip with a line stored where it lies. -/
def Chip.putAt (s : Chip) (d c line : Nat) (x : DramLine) : Chip := 
  s.putLine d c (s.physRank d c (s.place d c line).rank) (s.place d c line).index x

theorem Chip.putAt_eq (s : Chip) (d c line : Nat) (x : DramLine) :
    s.putAt d c line x = { s with dram := s.dram.set (s.lineKey d c line) x } := rfl

theorem Chip.flipArmed_of_unarmed {s : Chip} {d : Nat} (h : s.flag d F.MIE_FLIP_SEL_ARM = false) (kind index : Nat) :
    s.flipArmed d kind index = false := by simp [Chip.flipArmed, h]

theorem Chip.macFlip_of_unarmed {s : Chip} {d : Nat} (h : s.flag d F.MIE_FLIP_SEL_ARM = false) (c : Nat) :
    s.macFlip d c = (s, 0) := by simp [Chip.macFlip, Chip.flipArmed_of_unarmed h]

section
variable {s : Chip} {d c : Nat} (harm : s.flag d F.MIE_FLIP_SEL_ARM = false)
  (hmig : s.flag d (F.DDR_STATUS_MIGRATING c) = false)
include harm hmig

theorem Chip.writeStored_eq (line : Nat) (x : DramLine) : s.writeStored d c line x = s.putAt d c line x := by
  have hput : ∀ phys index, (s.putLine d c phys index x).flag d (F.DDR_STATUS_MIGRATING c) = false := fun _ _ => hmig
  simp [Chip.writeStored, Chip.flipArmed_of_unarmed harm, Chip.putAt, hput]

theorem Chip.writeLine_compact (hmode : s.mieMode d c = 1) (line : Nat) (data : BitVec 576) (badNode : Nat) :
    s.writeLine d c line data false badNode = s.putAt d c line (compactLine (s.lineKeys d c line) line data) := by
  simp only [Chip.writeLine, hmode, Chip.macFlip_of_unarmed harm, Chip.writeStored_eq harm hmig, Nat.xor_zero,
    Nat.mod_eq_of_lt (mac48_lt _ _ _ _)]
  rfl

theorem Chip.writeLine_plain (h1 : s.mieMode d c ≠ 1) (h2 : s.mieMode d c ≠ 2) (line : Nat) (data : BitVec 576) (badNode : Nat) :
    s.writeLine d c line data false badNode = s.putAt d c line (plainLine data) := by
  rw [← Chip.writeStored_eq harm hmig]
  unfold Chip.writeLine
  split
  · contradiction
  · contradiction
  · rfl

end

/-! ### Initialisation (R528) -/

theorem exec_initWalkLine (d : Die) (c : Fin 2) (s : State) :
    exec (.initWalkLine d c) s = s.onDie d (fun x => x.initLine d c) := rfl

theorem Chip.initLine_idle {s : Chip} {d c : Nat} (h : s.flag d (F.MIE_CH_STATUS_INIT_BUSY c) = false) : s.initLine d c = s := by
  simp [Chip.initLine, h]

/-- What initialisation stores at a line, by the channel's mode (R528). -/
def Chip.initContent (s : Chip) (d c line : Nat) : DramLine :=
  if s.mieMode d c = 2 then freshNode (s.lineKeys d c 0) line
  else if s.mieMode d c = 1 then compactLine (s.lineKeys d c line) line 0
  else plainLine 0

theorem Chip.initContent_plain {s : Chip} {d c line : Nat} (h : s.mieMode d c = 0) :
    s.initContent d c line = { data := 0, chk := withCrc 0 0 0 false } := by simp [Chip.initContent, h, plainLine]

theorem Chip.initContent_compact {s : Chip} {d c line : Nat} (h : s.mieMode d c = 1) :
    s.initContent d c line = compactLine (s.lineKeys d c line) line 0 := by simp [Chip.initContent, h]

theorem Chip.initContent_full {s : Chip} {d c line : Nat} (h : s.mieMode d c = 2) :
    s.initContent d c line = freshNode (s.lineKeys d c 0) line := by simp [Chip.initContent, h]

/-- Where the initialisation of a channel ends: in Full mode after its counter and tree lines (R528). -/
def Chip.initEnd (s : Chip) (d c : Nat) : Nat :=
  if s.mieMode d c = 2 then mbOf (s.lineCount d c) + (treeLevels (s.lineCount d c)).foldl (· + ·) 0 else s.lineCount d c

/-- The line at the pointer initialised, and the pointer moved on. -/
def Chip.initStep (s : Chip) (d c : Nat) : Chip :=
  let line := s.fld d (F.MIE_CH_PTR_PTR c)
  (s.putAt d c line (s.initContent d c line)).setFld d (F.MIE_CH_PTR_PTR c) (line + 1)

section
variable {s : Chip} {d c : Nat} (harm : s.flag d F.MIE_FLIP_SEL_ARM = false)
  (hmig : s.flag d (F.DDR_STATUS_MIGRATING c) = false)
include harm hmig

theorem Chip.initLine_eq (hbusy : s.flag d (F.MIE_CH_STATUS_INIT_BUSY c) = true) (hready : s.fld d (F.DDR_STATUS_STATE c) = 3) :
    s.initLine d c = if s.initEnd d c ≤ s.fld d (F.MIE_CH_PTR_PTR c) + 1 then
      (s.initStep d c).setFlag d (F.MIE_CH_STATUS_INIT_BUSY c) false else s.initStep d c := by
  unfold Chip.initLine Chip.initStep Chip.initContent Chip.initEnd
  by_cases h2 : s.mieMode d c = 2
  · simp only [hbusy, hready, h2, Chip.writeStored_eq harm hmig, if_true]
    rfl
  · by_cases h1 : s.mieMode d c = 1
    · simp only [hbusy, hready, h1, Chip.writeLine_compact harm hmig h1]
      rfl
    · simp only [hbusy, hready, h1, h2, Chip.writeLine_plain harm hmig h1 h2, if_false]
      rfl

end

theorem mieStatus_ne_miePtr (c : Nat) : Reg.MIE_CH_STATUS c ≠ Reg.MIE_CH_PTR c := by
  simp only [Reg.MIE_CH_STATUS, Reg.MIE_CH_PTR]; omega

theorem mieStatus_lt {c : Nat} (hc : c < 2) : Reg.MIE_CH_STATUS c < 2 ^ 23 := by
  simp only [Reg.MIE_CH_STATUS]; omega

theorem miePtr_lt {c : Nat} (hc : c < 2) : Reg.MIE_CH_PTR c < 2 ^ 23 := by
  simp only [Reg.MIE_CH_PTR]; omega

theorem Chip.initStep_ptr (s : Chip) (d c : Nat) :
    (s.initStep d c).fld d (F.MIE_CH_PTR_PTR c) = (s.fld d (F.MIE_CH_PTR_PTR c) + 1) % 2 ^ 32 :=
  Chip.fld_setFld_same _ d (F.MIE_CH_PTR_PTR c) _ (by decide : 0 + 32 ≤ 36)

theorem Chip.initStep_busy (s : Chip) (d : Nat) {c : Nat} (hc : c < 2) :
    (s.initStep d c).flag d (F.MIE_CH_STATUS_INIT_BUSY c) = s.flag d (F.MIE_CH_STATUS_INIT_BUSY c) :=
  congrArg (· == 1) (Chip.fld_setFld_off _ (f := F.MIE_CH_PTR_PTR c) _ (miePtr_lt hc) (mieStatus_lt hc) (mieStatus_ne_miePtr c))

/-- INIT_WALK_LINE on a busy channel: the pointer moves on, the line at it is stored, and the walk ends after the last (R528). -/
theorem Chip.initLine_spec {s : Chip} {d c : Nat} (hc : c < 2) (hbusy : s.flag d (F.MIE_CH_STATUS_INIT_BUSY c) = true)
    (hready : s.fld d (F.DDR_STATUS_STATE c) = 3) (harm : s.flag d F.MIE_FLIP_SEL_ARM = false)
    (hmig : s.flag d (F.DDR_STATUS_MIGRATING c) = false) :
    let line := s.fld d (F.MIE_CH_PTR_PTR c)
    let t := s.initLine d c
    t.fld d (F.MIE_CH_PTR_PTR c) = (line + 1) % 2 ^ 32 ∧
      t.dram = s.dram.set (s.lineKey d c line) (s.initContent d c line) ∧
      t.flag d (F.MIE_CH_STATUS_INIT_BUSY c) = decide (line + 1 < s.initEnd d c) := by
  intro line t
  have ht : t = _ := Chip.initLine_eq harm hmig hbusy hready
  by_cases hend : s.initEnd d c ≤ line + 1
  · rw [if_pos hend] at ht
    refine ⟨?_, ?_, ?_⟩
    · rw [ht, Chip.setFlag_eq, Chip.fld_setFld_off _ _ (mieStatus_lt hc) (miePtr_lt hc) (mieStatus_ne_miePtr c).symm,
        Chip.initStep_ptr]
    · rw [ht]; rfl
    · rw [ht, Chip.flag_setFlag_same _ d _ false (by decide : 0 + 1 ≤ 36) rfl, decide_eq_false (Nat.not_lt.mpr hend)]
  · rw [if_neg hend] at ht
    refine ⟨?_, ?_, ?_⟩
    · rw [ht, Chip.initStep_ptr]
    · rw [ht]; rfl
    · rw [ht, Chip.initStep_busy s d hc, hbusy, decide_eq_true (Nat.not_le.mp hend)]

end Sys2Proof.Machine
end

section
/-! PROOFS. How a command is carried out and answered (R572, R573, R576), and REKEY (R529). -/

namespace Sys2Proof.Machine

/-! ### A command answered (R572, R573, R576) -/

/-- A packet that passes every check is carried out (R573). -/
theorem Chip.command_of_admitted {s : Chip} {p op : Nat} {h : W36} {ws : List W36} (ha : s.admitted p op = some (h, ws))
    (run : Chip → W36 → List W36 → Chip) : s.command p op run = run s h ws := by
  unfold Chip.admitted at ha
  split at ha
  · next h' ws' hrun =>
    split at ha
    · next hok =>
      obtain ⟨rfl, rfl⟩ : h' = h ∧ ws' = ws := by simpa using ha
      simp only [Bool.and_eq_true, Bool.not_eq_true', decide_eq_true_eq, beq_iff_eq] at hok
      obtain ⟨⟨⟨⟨⟨hans, hbegun⟩, hop⟩, hlen⟩, hauth⟩, hstate⟩ := hok
      simp only [Chip.command, hrun, hans, hbegun, hop, hlen, Nat.not_lt.mpr hauth, hstate, bne_self_eq_false, Bool.not_true,
        Bool.or_self, Bool.false_eq_true, if_false]
    · exact absurd ha (by simp)
  · exact absurd ha (by simp)

/-- The port runs a packet of header h that came by the port itself, and nothing is buffered behind it. -/
def Chip.runsPacket (s : Chip) (p : Nat) (h : W36) : Prop :=
  (∃ ws, (s.cmd p).running = some (h :: ws)) ∧ (s.cmd p).buffered = none ∧ (s.cmd p).runningFrom = none

theorem Chip.runsPacket_of_accepts {s : Chip} {p op : Nat} {h : W36} {ws : List W36} (ha : Accepts s p op h ws) :
    s.runsPacket p h := by
  obtain ⟨hadm, hbuf, hfrom⟩ := ha
  refine ⟨?_, hbuf, hfrom⟩
  unfold Chip.admitted at hadm
  split at hadm
  · next h' ws' hrun =>
    split at hadm
    · obtain ⟨rfl, -⟩ : h' = h ∧ ws' = ws := by simpa using hadm
      exact ⟨ws', hrun⟩
    · exact absurd hadm (by simp)
  · exact absurd hadm (by simp)

theorem Chip.runsPacket_congr {s t : Chip} {p : Nat} {h : W36} (hc : t.cmds = s.cmds) (hr : s.runsPacket p h) : t.runsPacket p h := by
  simpa only [Chip.runsPacket, Chip.cmd, hc] using hr

/-- A port's record once its command has replied (R576). -/
def repliedPort (p : Nat) (r : List W36) (x : CmdPort) : CmdPort :=
  { x with running := none, runningFrom := none, begun := false, reply := some r, readPos := 0, unread := p != Port.con,
           repeatMark := false }

theorem Chip.cmd_onCmd (s : Chip) (p : Nat) (f : CmdPort → CmdPort) : (s.onCmd p f).cmd p = f (s.cmd p) :=
  SMap.get_upd_same _ _ _

theorem Chip.cmd_withReturned (s : Chip) (r : List W36) (p : Nat) : ({ s with returned := r } : Chip).cmd p = s.cmd p := rfl

theorem OnlyPort.trans {p : Nat} {a b c : Chip} (h : OnlyPort p a b) (h' : OnlyPort p b c) : OnlyPort p a c := by
  refine ⟨?_, fun q hq => (h'.2 q hq).trans (h.2 q hq)⟩
  rw [h'.1, h.1]

theorem OnlyPort.onCmd (s : Chip) (p : Nat) (f : CmdPort → CmdPort) : OnlyPort p s (s.onCmd p f) :=
  ⟨rfl, fun _ hq => SMap.get_upd_other _ _ hq⟩

theorem OnlyPort.returned (p : Nat) (s : Chip) (r : List W36) : OnlyPort p s { s with returned := r } := ⟨rfl, fun _ _ => rfl⟩

/-- A command that came by the port itself leaves its reply in the port's register (R576). -/
theorem Chip.setReply_spec {s : Chip} {p : Nat} {h : W36} (hr : s.runsPacket p h) (status : Nat) (ws : List W36) :
    (s.setReply p status ws).cmd p = repliedPort p (replyTo h status ws) (s.cmd p) ∧ OnlyPort p s (s.setReply p status ws) := by
  obtain ⟨⟨body, hrun⟩, -, hfrom⟩ := hr
  simp only [Chip.setReply, hrun, hfrom]
  have honly (f g : CmdPort → CmdPort) : OnlyPort p s ((s.onCmd p f).onCmd p g) :=
    (OnlyPort.onCmd s p f).trans (OnlyPort.onCmd _ p g)
  split
  · refine ⟨?_, (honly _ _).trans (OnlyPort.returned p _ _)⟩
    rw [Chip.cmd_withReturned, Chip.cmd_onCmd, Chip.cmd_onCmd]; rfl
  · refine ⟨?_, honly _ _⟩
    rw [Chip.cmd_onCmd, Chip.cmd_onCmd]; rfl

theorem Chip.startNext_of_empty {s : Chip} {p : Nat} (h : (s.cmd p).buffered = none) : s.startNext p = s := by
  unfold Chip.startNext
  extract_lets x
  split
  · next hbuf => exact absurd (h.symm.trans hbuf) (by simp)
  · rfl

/-- A command that finishes leaves its reply in the port's register and changes nothing else (R572, R576). -/
theorem Chip.finish_spec {s : Chip} {p : Nat} {h : W36} (hr : s.runsPacket p h) (status : Nat) (ws : List W36) :
    Replied (s.finish p status ws) p h status ws ∧ OnlyPort p s (s.finish p status ws) := by
  obtain ⟨hport, honly⟩ := Chip.setReply_spec hr status ws
  have hfinish : s.finish p status ws = s.setReply p status ws := Chip.startNext_of_empty (by rw [hport]; exact hr.2.1)
  rw [hfinish, Replied, hport]
  exact ⟨⟨rfl, rfl, rfl⟩, honly⟩

theorem OnlyPort.regs_eq {p : Nat} {a b : Chip} (h : OnlyPort p a b) : b.regs = a.regs := by rw [h.1]
theorem OnlyPort.ddr_eq {p : Nat} {a b : Chip} (h : OnlyPort p a b) : b.ddr = a.ddr := by rw [h.1]
theorem OnlyPort.dram_eq {p : Nat} {a b : Chip} (h : OnlyPort p a b) : b.dram = a.dram := by rw [h.1]
theorem OnlyPort.log_eq {p : Nat} {a b : Chip} (h : OnlyPort p a b) : b.log = a.log := by rw [h.1]

theorem OnlyPort.ddrChan_eq {p : Nat} {a b : Chip} (h : OnlyPort p a b) (d c : Nat) : b.ddrChan d c = a.ddrChan d c := by
  rw [Chip.ddrChan, h.ddr_eq, Chip.ddrChan]

/-! ### REKEY (R529) -/

/-- What REKEY does where its packet passes every check and its die is not in reset (R529). -/
def Chip.rekeyCommand (s : Chip) (p d ch : Nat) : Chip :=
  if s.mieMode d ch = 0 then s.finishState p 0x301 0 [1, 2]
  else if s.flag d (F.MIE_CH_STATUS_INIT_BUSY ch) || s.flag d (F.MIE_CH_STATUS_REKEY_BUSY ch) then s.finish p St.busy []
  else (s.startRekey d ch).finish p St.ok []

theorem rekey_done {s : State} {p : Fin 5} {h : W36} {ws : List W36} {P : Chip → Prop} (ha : Accepts s.chip p 0x301 h ws)
    (hreset : s.chip.dieInReset (cmdDie h) = false) (hp : P (s.chip.rekeyCommand p (cmdDie h) (bits (ws.headD 0) 0 1))) :
    Done (.rekey p) s P := by
  refine Done.of_onChip (f := fun c => c.command p 0x301 _) rfl ?_
  rw [Chip.command_of_admitted ha.1]
  unfold Chip.rekeyCommand Chip.mieMode at hp
  simp only [Chip.onNamedDie, hreset, Bool.false_eq_true, if_false]
  split at hp
  · next hmode => rw [if_pos hmode, hmode]; exact hp
  · next hmode => rw [if_neg hmode]; exact hp

theorem Chip.startRekey_cmds (s : Chip) (d c : Nat) : (s.startRekey d c).cmds = s.cmds := rfl
theorem Chip.startRekey_dram (s : Chip) (d c : Nat) : (s.startRekey d c).dram = s.dram := rfl
theorem Chip.startRekey_log (s : Chip) (d c : Nat) : (s.startRekey d c).log = s.log := rfl

/-- The channel's keys become its old ones, and new ones are drawn (R505, R529). -/
theorem Chip.startRekey_chan (s : Chip) (d c : Nat) : (s.startRekey d c).ddrChan d c =
    { s.ddrChan d c with
      oldKeys := (s.ddrChan d c).keys, rekeyOld := none
      keys := some (s.channelKeys d c ((Config.random256 s.free).setWidth 128)) } := by
  simp only [Chip.startRekey, Chip.drawKeys, Chip.ddrChan, Chip.setFlag_ddr, Chip.setFld_ddr, Chip.onDdr, SMap.get_upd_same]
  rfl

theorem Chip.startRekey_busy (s : Chip) (d c : Nat) : (s.startRekey d c).flag d (F.MIE_CH_STATUS_REKEY_BUSY c) = true :=
  Chip.flag_setFlag_same _ d _ true (by decide : 2 + 1 ≤ 36) rfl

theorem Chip.startRekey_ptr (s : Chip) (d : Nat) {c : Nat} (hc : c < 2) : (s.startRekey d c).fld d (F.MIE_CH_PTR_PTR c) = 0 :=
  (Chip.fld_setFld_off _ (f := F.MIE_CH_STATUS_REKEY_BUSY c) _ (mieStatus_lt hc) (miePtr_lt hc) (mieStatus_ne_miePtr c).symm).trans
    (Chip.fld_setFld_same _ d (F.MIE_CH_PTR_PTR c) 0 (by decide : 0 + 32 ≤ 36))

/-- REKEY taken: answered OK, the walk begun at line 0 and new keys in force, with nothing stored or logged (R505, R529). -/
theorem Chip.rekeyTaken_spec {s : Chip} {p : Nat} {h : W36} (hr : s.runsPacket p h) (d : Nat) {c : Nat} (hc : c < 2) :
    let t := (s.startRekey d c).finish p St.ok []
    Replied t p h St.ok [] ∧ t.flag d (F.MIE_CH_STATUS_REKEY_BUSY c) = true ∧ t.fld d (F.MIE_CH_PTR_PTR c) = 0 ∧
      (t.ddrChan d c).oldKeys = (s.ddrChan d c).keys ∧
      (t.ddrChan d c).keys = some (s.channelKeys d c ((Config.random256 s.free).setWidth 128)) ∧
      t.dram = s.dram ∧ t.log = s.log := by
  have hr' : (s.startRekey d c).runsPacket p h := Chip.runsPacket_congr (s.startRekey_cmds d c) hr
  obtain ⟨hrep, honly⟩ := Chip.finish_spec hr' St.ok []
  refine ⟨hrep, ?_, ?_, ?_, ?_, honly.dram_eq.trans (s.startRekey_dram d c), honly.log_eq.trans (s.startRekey_log d c)⟩
  · rw [Chip.flag_congr honly.regs_eq, Chip.startRekey_busy]
  · rw [Chip.fld_congr honly.regs_eq, Chip.startRekey_ptr _ _ hc]
  · rw [honly.ddrChan_eq, Chip.startRekey_chan]
  · rw [honly.ddrChan_eq, Chip.startRekey_chan]

end Sys2Proof.Machine
end

section
/-! PROOFS. The walk of a REKEY on a Compact channel (R521, R529). -/

namespace Sys2Proof.Machine

/-! ### What the pointer's register leaves -/

/-- The fields that place a line stay while MIE_CH_c_PTR is written. -/
theorem Chip.lineKey_of_regsBut {a b : Chip} {d c : Nat} (hc : c < 2) (h : RegsBut (OneReg d (Reg.MIE_CH_PTR c)) a b) (line : Nat) :
    b.lineKey d c line = a.lineKey d c line := by
  have hfld (f : Fld) (ho : f.off < 0x0C0000) : b.fld d f = a.fld d f :=
    h.fld_of_off_ne (by omega) (by simp only [Reg.MIE_CH_PTR]; omega)
  have hgeom : Reg.DDR_GEOM c < 0x0C0000 := by simp only [Reg.DDR_GEOM]; omega
  have hcfg : Reg.DDR_CFG c < 0x0C0000 := by simp only [Reg.DDR_CFG]; omega
  have hmap : Reg.DDR_RANK_MAP c < 0x0C0000 := by simp only [Reg.DDR_RANK_MAP]; omega
  simp only [Chip.lineKey, Chip.physRank, Chip.place, Chip.lranks, Chip.colBits, Chip.bgBits, Chip.baBits, Chip.rowBits,
    hfld (F.DDR_GEOM_COLBITS c) hgeom, hfld (F.DDR_GEOM_BGBITS c) hgeom, hfld (F.DDR_GEOM_BABITS c) hgeom,
    hfld (F.DDR_GEOM_ROWBITS c) hgeom, hfld (F.DDR_CFG_ORDER c) hcfg, hfld (F.DDR_CFG_LRANKS_M1 c) hcfg,
    hfld (F.DDR_RANK_MAP_MAP c) hmap]

/-- The pointer of a walk moved on. -/
def Chip.passLine (s : Chip) (d c line : Nat) : Chip := s.setFld d (F.MIE_CH_PTR_PTR c) (line + 1)

theorem Chip.passLine_regsBut (s : Chip) (d : Nat) {c : Nat} (hc : c < 2) (line : Nat) :
    RegsBut (OneReg d (Reg.MIE_CH_PTR c)) s (s.passLine d c line) := RegsBut.setFld s _ (miePtr_lt hc) ⟨rfl, rfl⟩

theorem Chip.passLine_ptr (s : Chip) (d c : Nat) {line : Nat} (hline : line + 1 < 2 ^ 32) :
    (s.passLine d c line).fld d (F.MIE_CH_PTR_PTR c) = line + 1 :=
  (Chip.fld_setFld_same s d (F.MIE_CH_PTR_PTR c) _ (by decide : 0 + 32 ≤ 36)).trans (Nat.mod_eq_of_lt hline)

/-! ### Keys on either side of the walk (R529) -/

section
variable {s : Chip} {d c : Nat} (hbusy : s.flag d (F.MIE_CH_STATUS_REKEY_BUSY c) = true)
include hbusy

theorem Chip.lineKeys_of_unwalked {line : Nat} (hptr : s.fld d (F.MIE_CH_PTR_PTR c) ≤ line) :
    s.lineKeys d c line = (s.ddrChan d c).oldKeys.getD {} := by
  simp [Chip.lineKeys, Chip.unwalked, hbusy, hptr]

theorem Chip.lineKeys_of_walked {line : Nat} (hptr : line < s.fld d (F.MIE_CH_PTR_PTR c)) :
    s.lineKeys d c line = (s.ddrChan d c).keys.getD {} := by
  simp [Chip.lineKeys, Chip.unwalked, hbusy, Nat.not_le.mpr hptr]

end

/-! ### A line read and verified (R519, R521) -/

/-- An undisturbed read of a line on a channel where no rank migrates (R486, R491). -/
theorem Chip.readStored_eq {s : Chip} {d c : Nat} (hmig : s.flag d (F.DDR_STATUS_MIGRATING c) = false) {line : Nat}
    (hpass : lineVerdict (s.mieMode d c) (s.dram.get (s.lineKey d c line)) = .pass) :
    s.readStored d c line 0 = (s, s.dram.get (s.lineKey d c line), .pass) := by
  have hrank : s.readFrom d c (s.place d c line) = s.physRank d c (s.place d c line).rank := by simp [Chip.readFrom, hmig]
  unfold Chip.lineKey at hpass ⊢
  simp [Chip.readStored, Chip.readRank, hrank, hpass]

/-- A Compact line whose MAC agrees is delivered decrypted (R519, R521). -/
theorem Chip.readVerified_compact {s : Chip} {d c line : Nat} (hmode : s.mieMode d c = 1)
    (hmig : s.flag d (F.DDR_STATUS_MIGRATING c) = false) (hpass : lineVerdict 1 (s.dram.get (s.lineKey d c line)) = .pass)
    (hmac : bits (s.dram.get (s.lineKey d c line)).chk 16 48 =
      mac48 (s.lineKeys d c line) line false (s.dram.get (s.lineKey d c line)).data) :
    s.readVerified d c line 0 0 0 = (s,
      { data := Config.xtsDecrypt (s.lineKeys d c line).data (s.lineKeys d c line).tweak line (s.dram.get (s.lineKey d c line)).data
        mac := some true }) := by
  simp only [Chip.readVerified, Chip.readLine, hmode, Chip.readStored_eq hmig (hmode ▸ hpass), hmac, beq_self_eq_true]
  rfl

/-! ### A line moved to the new keys -/

/-- The line at a walk's pointer, opened under the old keys and sealed under the new ones (R529). -/
def Chip.rekeyed (s : Chip) (d c line : Nat) : DramLine :=
  let k := (s.ddrChan d c).oldKeys.getD {}
  compactLine ((s.ddrChan d c).keys.getD {}) line (Config.xtsDecrypt k.data k.tweak line (s.dram.get (s.lineKey d c line)).data)

/-- What a REKEY walk asks of the line at its pointer to move it: a Compact channel without armed flip or migration, and a stored
line that passes and carries its MAC (R521, R529). -/
structure Chip.Movable (s : Chip) (d c line : Nat) : Prop where
  busy : s.flag d (F.MIE_CH_STATUS_REKEY_BUSY c) = true
  ptr : s.fld d (F.MIE_CH_PTR_PTR c) = line
  mode : s.mieMode d c = 1
  unarmed : s.flag d F.MIE_FLIP_SEL_ARM = false
  settled : s.flag d (F.DDR_STATUS_MIGRATING c) = false
  pass : lineVerdict 1 (s.dram.get (s.lineKey d c line)) = .pass
  mac : bits (s.dram.get (s.lineKey d c line)).chk 16 48 =
    mac48 ((s.ddrChan d c).oldKeys.getD {}) line false (s.dram.get (s.lineKey d c line)).data
  bound : line + 1 < 2 ^ 32

/-- The line at the pointer moved, and the pointer past it. -/
def Chip.lineMoved (s : Chip) (d c line : Nat) : Chip :=
  { s.passLine d c line with dram := s.dram.set (s.lineKey d c line) (s.rekeyed d c line) }

section
variable {s : Chip} {d c line : Nat} (hc : c < 2) (hm : s.Movable d c line)
include hc hm

theorem Chip.rekeyMove_compact : s.rekeyMove d c line 0 = s.lineMoved d c line := by
  have hregs := s.passLine_regsBut d hc line
  have hold := Chip.lineKeys_of_unwalked hm.busy (Nat.le_of_eq hm.ptr)
  have hread := Chip.readVerified_compact hm.mode hm.settled hm.pass (hold ▸ hm.mac)
  have hnew : (s.passLine d c line).lineKeys d c line = (s.ddrChan d c).keys.getD {} := by
    refine Chip.lineKeys_of_walked ?_ (Nat.lt_of_lt_of_eq (Nat.lt_succ_self line) (s.passLine_ptr d c hm.bound).symm)
    rw [hregs.flag_of_off_ne (mieStatus_lt hc) (mieStatus_ne_miePtr c), hm.busy]
  have hmode : (s.passLine d c line).mieMode d c = 1 := by
    rw [Chip.mieMode, hregs.fld_of_off_ne, ← Chip.mieMode, hm.mode] <;>
      simp only [F.MIE_CH_CFG_MODE, Reg.MIE_CH_CFG, Reg.MIE_CH_PTR] <;> omega
  have harm : (s.passLine d c line).flag d F.MIE_FLIP_SEL_ARM = false := by
    rw [hregs.flag_of_off_ne (by decide), hm.unarmed]
    simp only [F.MIE_FLIP_SEL_ARM, Reg.MIE_FLIP_SEL, Reg.MIE_CH_PTR]; omega
  have hmig : (s.passLine d c line).flag d (F.DDR_STATUS_MIGRATING c) = false := by
    rw [hregs.flag_of_off_ne, hm.settled] <;>
      simp only [F.DDR_STATUS_MIGRATING, Reg.DDR_STATUS, Reg.MIE_CH_PTR] <;> omega
  have hwrite := Chip.writeLine_compact harm hmig hmode line
    (Config.xtsDecrypt (s.lineKeys d c line).data (s.lineKeys d c line).tweak line (s.dram.get (s.lineKey d c line)).data) 0
  rw [hnew, Chip.putAt_eq, Chip.lineKey_of_regsBut hc hregs, hold] at hwrite
  unfold Chip.rekeyMove
  simp only [hm.mode, hread, decide_true, Bool.true_or, Bool.not_true, Bool.false_eq_true, if_false, if_true]
  rw [hold]
  exact hwrite

end

/-! ### The end of the walk -/

/-- The registers and keys of a channel whose REKEY walk ends, before the event is logged (R529). -/
def Chip.walkEnded (s : Chip) (d c : Nat) : Chip :=
  (((s.setFlag d (F.MIE_CH_STATUS_REKEY_BUSY c) false).setFlag d (F.MIE_CH_STATUS_READ_ONLY c) false).setFlag d
    (F.DDR_STATUS_READ_ONLY c) false).onDdr d c (fun x => { x with oldKeys := none, rekeyOld := none })

/-- The registers that the end of a walk writes, but DRN_LOG_STATUS. -/
def WalkReg (d c d' off : Nat) : Prop := d' = d ∧ (off = Reg.MIE_CH_STATUS c ∨ off = Reg.DDR_STATUS c)

theorem ddrStatus_lt {c : Nat} (hc : c < 2) : Reg.DDR_STATUS c < 2 ^ 23 := by
  simp only [Reg.DDR_STATUS]; omega

theorem mieStatus_ne_ddrStatus {c : Nat} (hc : c < 2) : Reg.MIE_CH_STATUS c ≠ Reg.DDR_STATUS c := by
  simp only [Reg.MIE_CH_STATUS, Reg.DDR_STATUS]; omega

theorem Chip.walkEnded_regsBut (s : Chip) (d : Nat) {c : Nat} (hc : c < 2) : RegsBut (WalkReg d c) s (s.walkEnded d c) := by
  have hmie (f : Fld) (hf : f.off = Reg.MIE_CH_STATUS c) (t : Chip) : RegsBut (WalkReg d c) t (t.setFlag d f false) :=
    RegsBut.setFlag t false (hf ▸ mieStatus_lt hc) ⟨rfl, .inl hf⟩
  have hddr (t : Chip) : RegsBut (WalkReg d c) t (t.setFlag d (F.DDR_STATUS_READ_ONLY c) false) :=
    RegsBut.setFlag t false (ddrStatus_lt hc) ⟨rfl, .inr rfl⟩
  have hflags := ((hmie (F.MIE_CH_STATUS_REKEY_BUSY c) rfl s).trans (hmie (F.MIE_CH_STATUS_READ_ONLY c) rfl _)).trans (hddr _)
  exact hflags.trans (RegsBut.of_regs (Chip.onDdr_regs _ d c _))

/-- The flags of a channel after its walk. -/
theorem Chip.walkEnded_flags (s : Chip) (d : Nat) {c : Nat} (hc : c < 2) :
    (s.walkEnded d c).flag d (F.MIE_CH_STATUS_REKEY_BUSY c) = false ∧
      (s.walkEnded d c).flag d (F.DDR_STATUS_READ_ONLY c) = false ∧
      (s.walkEnded d c).flag d (F.MIE_CH_STATUS_READ_ONLY c) = false := by
  have hreg (f : Fld) (hf : f.off = Reg.MIE_CH_STATUS c) : Fld.Apart d (F.DDR_STATUS_READ_ONLY c) d f :=
    .inl (regKey_ne (ddrStatus_lt hc) (hf ▸ mieStatus_lt hc) (hf ▸ mieStatus_ne_ddrStatus hc))
  have hbits : Fld.Apart d (F.MIE_CH_STATUS_READ_ONLY c) d (F.MIE_CH_STATUS_REKEY_BUSY c) :=
    .inr ⟨rfl, rfl, .inr (by decide : 1 + 1 ≤ 2)⟩
  simp only [Chip.walkEnded, Chip.flag_congr (Chip.onDdr_regs _ d c _)]
  refine ⟨?_, ?_, ?_⟩
  · exact (Chip.flag_setFld_apart _ _ (hreg _ rfl)).trans ((Chip.flag_setFld_apart _ _ hbits).trans
      (Chip.flag_setFlag_same s d (F.MIE_CH_STATUS_REKEY_BUSY c) false (by decide : 2 + 1 ≤ 36) rfl))
  · exact Chip.flag_setFlag_same _ d (F.DDR_STATUS_READ_ONLY c) false (by decide : 3 + 1 ≤ 36) rfl
  · exact (Chip.flag_setFld_apart _ _ (hreg _ rfl)).trans
      (Chip.flag_setFlag_same _ d (F.MIE_CH_STATUS_READ_ONLY c) false (by decide : 1 + 1 ≤ 36) rfl)

theorem Chip.walkEnded_chan (s : Chip) (d c : Nat) :
    (s.walkEnded d c).ddrChan d c = { s.ddrChan d c with oldKeys := none, rekeyOld := none } := by
  rw [Chip.walkEnded, Chip.ddrChan_onDdr]; rfl

/-- A REKEY walk ends: its flags and old keys cleared, and the event logged (R529). -/
def Chip.rekeyEnded (s : Chip) (d c : Nat) : Chip := (s.walkEnded d c).logEv d Ev.mieRekeyDone c

theorem Chip.rekeyEnded_only (s : Chip) (d c : Nat) : OnlyRegsAndLog (s.walkEnded d c) (s.rekeyEnded d c) := Chip.logEv_only _ d _ _

theorem Chip.rekeyEnded_chan (s : Chip) (d c : Nat) :
    (s.rekeyEnded d c).ddrChan d c = { s.ddrChan d c with oldKeys := none, rekeyOld := none } := by
  rw [← Chip.walkEnded_chan, Chip.ddrChan, s.rekeyEnded_only d c, Chip.ddrChan]

theorem Chip.rekeyEnded_dram (s : Chip) (d c : Nat) : (s.rekeyEnded d c).dram = s.dram := by
  rw [s.rekeyEnded_only d c]; rfl

theorem Chip.rekeyEnded_dev (s : Chip) (d c : Nat) : (s.rekeyEnded d c).dev = s.dev := (s.rekeyEnded_only d c).dev_eq

/-- A field at none of the registers that the end of a walk writes keeps its value. -/
theorem Chip.rekeyEnded_fld (s : Chip) (d : Nat) {c : Nat} (hc : c < 2) {f : Fld} (ho : f.off < 2 ^ 23)
    (hlog : f.off ≠ Reg.DRN_LOG_STATUS) (hmie : f.off ≠ Reg.MIE_CH_STATUS c) (hddr : f.off ≠ Reg.DDR_STATUS c) :
    (s.rekeyEnded d c).fld d f = s.fld d f :=
  (Chip.logEv_fld _ d _ _ d ho hlog).trans ((s.walkEnded_regsBut d hc).fld ho (fun hp => hp.2.elim hmie hddr))

theorem Chip.rekeyEnded_ptr (s : Chip) (d : Nat) {c : Nat} (hc : c < 2) :
    (s.rekeyEnded d c).fld d (F.MIE_CH_PTR_PTR c) = s.fld d (F.MIE_CH_PTR_PTR c) :=
  s.rekeyEnded_fld d hc (miePtr_lt hc) (by simp only [F.MIE_CH_PTR_PTR, Reg.MIE_CH_PTR, Reg.DRN_LOG_STATUS]; omega)
    (mieStatus_ne_miePtr c).symm (by simp only [F.MIE_CH_PTR_PTR, Reg.MIE_CH_PTR, Reg.DDR_STATUS]; omega)

theorem Chip.rekeyEnded_flags (s : Chip) (d : Nat) {c : Nat} (hc : c < 2) :
    (s.rekeyEnded d c).flag d (F.MIE_CH_STATUS_REKEY_BUSY c) = false ∧
      (s.rekeyEnded d c).flag d (F.DDR_STATUS_READ_ONLY c) = false ∧
      (s.rekeyEnded d c).flag d (F.MIE_CH_STATUS_READ_ONLY c) = false := by
  have hflag (f : Fld) (ho : f.off < 2 ^ 23) (hn : f.off ≠ Reg.DRN_LOG_STATUS) :
      (s.rekeyEnded d c).flag d f = (s.walkEnded d c).flag d f := congrArg (· == 1) (Chip.logEv_fld _ d _ _ d ho hn)
  have hmie : Reg.MIE_CH_STATUS c ≠ Reg.DRN_LOG_STATUS := by simp only [Reg.MIE_CH_STATUS, Reg.DRN_LOG_STATUS]; omega
  have hddr : Reg.DDR_STATUS c ≠ Reg.DRN_LOG_STATUS := by simp only [Reg.DDR_STATUS, Reg.DRN_LOG_STATUS]; omega
  rw [hflag _ (mieStatus_lt hc) hmie, hflag _ (ddrStatus_lt hc) hddr, hflag _ (mieStatus_lt hc) hmie]
  exact s.walkEnded_flags d hc

theorem Chip.rekeyEnded_logged {s : Chip} {d c : Nat} (hd : d < 4) (hc : c < 2) :
    Logged s (s.rekeyEnded d c) d Ev.mieRekeyDone c := by
  have hsame : (s.walkEnded d c).fld d F.DRN_LOG_STATUS_NEWEST = s.fld d F.DRN_LOG_STATUS_NEWEST :=
    (s.walkEnded_regsBut d hc).fld (by decide) (fun hp => by
      simp only [WalkReg, F.DRN_LOG_STATUS_NEWEST, Reg.DRN_LOG_STATUS, Reg.MIE_CH_STATUS, Reg.DDR_STATUS] at hp; omega)
  obtain ⟨hnewest, hseq⟩ := Chip.logEv_newest (s.walkEnded d c) hd (ev := Ev.mieRekeyDone) (by decide) (by decide) c
  exact ⟨hnewest, hsame ▸ hseq⟩

/-! ### REKEY_WALK_LINE -/

theorem exec_rekeyWalkLine (d : Die) (c : Fin 2) (bad : Nat) (s : State) :
    exec (.rekeyWalkLine d c bad) s = s.onDie d (fun x => x.rekeyLine d c bad) := rfl

theorem Chip.rekeyLine_idle {s : Chip} {d c : Nat} (h : s.flag d (F.MIE_CH_STATUS_REKEY_BUSY c) = false) (bad : Nat) :
    s.rekeyLine d c bad = s := by simp [Chip.rekeyLine, h]

/-- An empty cache needs no trimming. -/
theorem Chip.cacheTrim_of_empty {s : Chip} {d c : Nat} (h : (s.ddrChan d c).cache = []) : s.cacheTrim d c = s := by
  simp [Chip.cacheTrim, Chip.trimCache, h]

section
variable {s : Chip} {d c line : Nat} (hc : c < 2) (hm : s.Movable d c line)
include hc hm

theorem Chip.rekeyLine_compact (hready : s.fld d (F.DDR_STATUS_STATE c) = 3) (hcache : (s.ddrChan d c).cache = []) :
    s.rekeyLine d c 0 =
      if s.lineCount d c ≤ line + 1 then (s.lineMoved d c line).rekeyEnded d c else s.lineMoved d c line := by
  have hmoved : (s.lineMoved d c line).ddrChan d c = s.ddrChan d c := rfl
  have htrim := Chip.cacheTrim_of_empty (s := s.lineMoved d c line) (hmoved ▸ hcache)
  have htrim' := Chip.cacheTrim_of_empty (s := (s.lineMoved d c line).rekeyEnded d c)
    (by rw [Chip.rekeyEnded_chan]; exact hmoved ▸ hcache)
  unfold Chip.rekeyLine
  simp only [hm.busy, hm.ptr, hm.mode, hready]
  by_cases hend : s.lineCount d c ≤ line + 1
  · simpa [hend, Chip.rekeyMove_compact hc hm, Chip.rekeyEnded, Chip.walkEnded] using htrim'
  · simpa [hend, Chip.rekeyMove_compact hc hm] using htrim

/-- A line moved passes the pointer on; the walk and the newest log entry stay. -/
theorem Chip.lineMoved_spec :
    (s.lineMoved d c line).fld d (F.MIE_CH_PTR_PTR c) = line + 1 ∧
      (s.lineMoved d c line).flag d (F.MIE_CH_STATUS_REKEY_BUSY c) = true ∧
      (s.lineMoved d c line).fld d F.DRN_LOG_STATUS_NEWEST = s.fld d F.DRN_LOG_STATUS_NEWEST := by
  have hregs := s.passLine_regsBut d hc line
  refine ⟨s.passLine_ptr d c hm.bound, ?_, ?_⟩
  · exact (hregs.flag_of_off_ne (f := F.MIE_CH_STATUS_REKEY_BUSY c) (mieStatus_lt hc) (mieStatus_ne_miePtr c)).trans hm.busy
  · exact hregs.fld_of_off_ne (f := F.DRN_LOG_STATUS_NEWEST) (by decide)
      (by simp only [F.DRN_LOG_STATUS_NEWEST, Reg.DRN_LOG_STATUS, Reg.MIE_CH_PTR]; omega)

end

end Sys2Proof.Machine
end

section
/-! PROOFS. Flips armed and TEST_EN set as R500 allows, and the statement about the integrity engine. -/

namespace Sys2Proof.Machine

/-! ### Writes refused or taken by their row (R499, R500) -/

/-- The row of MIE_FLIP_SEL. -/
def flipSelRow : RegRow := ⟨0x0C0002, [], [⟨0, 4, .rw, 0⟩, ⟨4, 12, .rw, 0⟩, ⟨16, 4, .rw, 0⟩, ⟨20, 1, .rw, 0⟩,
  ⟨21, 1, .w1c, 0⟩, ⟨22, 4, .rw, 0⟩, ⟨26, 6, .rw, 0⟩]⟩

/-- The row of MIE_CTRL. -/
def mieCtrlRow : RegRow := ⟨0x0C0000, [], [⟨0, 1, .rw, 0⟩]⟩

theorem findRow_flipSel : findRow Reg.MIE_FLIP_SEL = some flipSelRow := by decide +kernel

theorem findRow_mieCtrl : findRow Reg.MIE_CTRL = some mieCtrlRow := by decide +kernel

/-- A write that R500 forbids: nothing changes but REFUSED. -/
def Chip.mieRefuse (s : Chip) (d : Nat) : Chip := s.setFlag d F.MIE_STATUS_REFUSED true

theorem Chip.mieRefuse_spec (s : Chip) (d : Nat) : (s.mieRefuse d).flag d F.MIE_STATUS_REFUSED = true ∧
    OnlyRegs s (s.mieRefuse d) ∧ RegsBut (OneReg d Reg.MIE_STATUS) s (s.mieRefuse d) :=
  ⟨Chip.flag_setFlag_same s d F.MIE_STATUS_REFUSED true (by decide) rfl, OnlyRegs.setFlag s d _ true,
    RegsBut.setFlag s true (by decide) ⟨rfl, rfl⟩⟩

/-! ### MIE_FLIP_SEL (R499) -/

theorem exec_mieFlipArm (d : Die) (v : W36) (s : State) :
    exec (.mieFlipArm d v) s = s.onDie d (fun c => c.flipSelWrite d (v ||| 0x100000)) := rfl

/-- R500 lets a flip of this word be armed: its KIND exists, its INDEX is in range, and KIND 9 needs TEST_EN. -/
def Chip.mayArm (s : Chip) (d : Nat) (v : W36) : Prop :=
  ∃ n, flipIndexes (bits v 0 4) = some n ∧ bits v 4 12 < n ∧ (bits v 0 4 = 9 → s.flag d F.MIE_CTRL_TEST_EN = true)

/-- A field keeps its value where bits outside it are set. -/
theorem bits_or_of_clear {n : Nat} (v m : BitVec n) {lo width : Nat} (h : bits m lo width = 0) :
    bits (v ||| m) lo width = bits v lo width := by
  simp only [bits, BitVec.toNat_or, Nat.shiftRight_or_distrib, Nat.or_mod_two_pow] at h ⊢
  rw [h, Nat.or_zero]

/-- A word of MIE_FLIP_SEL with ARM set. -/
def armWord (v : W36) : W36 := v ||| 0x100000

theorem armWord_kind (v : W36) : bits (armWord v) 0 4 = bits v 0 4 := bits_or_of_clear v _ (by decide)

theorem armWord_index (v : W36) : bits (armWord v) 4 12 = bits v 4 12 := bits_or_of_clear v _ (by decide)

theorem armWord_arm (v : W36) : bit (armWord v) 20 = true := by
  rw [armWord, bit_or, show bit (0x100000 : W36) 20 = true by decide, Bool.or_true]

theorem Chip.mayArm_armWord (s : Chip) (d : Nat) (v : W36) : s.mayArm d (armWord v) ↔ s.mayArm d v := by
  simp only [Chip.mayArm, armWord_kind, armWord_index]

/-- MIE_FLIP_SEL as a write by its table leaves it. -/
def Chip.flipSet (s : Chip) (d : Nat) (v : W36) : Chip :=
  s.setReg d Reg.MIE_FLIP_SEL (flipSelRow.writes (s.reg d Reg.MIE_FLIP_SEL) v)

theorem Chip.flipSelWrite_of_mayArm {s : Chip} {d : Nat} {v : W36} (h : s.mayArm d v) : s.flipSelWrite d v = s.flipSet d v := by
  obtain ⟨n, hkind, hindex, h9⟩ := h
  have htest : (bits v 0 4 != 9 || s.flag d F.MIE_CTRL_TEST_EN) = true := by
    by_cases hk : bits v 0 4 = 9
    · rw [h9 hk, Bool.or_true]
    · simp [hk]
  simp only [Chip.flipSelWrite, hkind, hindex, htest, decide_true, Bool.and_self, Bool.not_true, Bool.and_false,
    Bool.false_eq_true, if_false, Chip.plainWrite_of_findRow s d v findRow_flipSel]
  rfl

theorem Chip.flipSelWrite_of_not_mayArm {s : Chip} {d : Nat} {v : W36} (h : ¬ s.mayArm d v) (harm : bit v 20 = true) :
    s.flipSelWrite d v = s.mieRefuse d := by
  unfold Chip.flipSelWrite
  extract_lets ok
  have hok : ok = false := by
    cases hkind : flipIndexes (bits v 0 4) with
    | none => simp [ok, hkind]
    | some n =>
      have hrule : ¬ (bits v 4 12 < n ∧ (bits v 0 4 = 9 → s.flag d F.MIE_CTRL_TEST_EN = true)) := fun hr => h ⟨n, hkind, hr⟩
      refine Bool.eq_false_iff.mpr (fun htrue => ?_)
      simp only [ok, hkind, Bool.and_eq_true, decide_eq_true_eq, Bool.or_eq_true, bne_iff_ne] at htrue
      obtain ⟨hindex, htest⟩ := htrue
      exact hrule ⟨hindex, fun h9 => htest.resolve_left (fun hne => hne h9)⟩
  rw [harm, hok]
  rfl

theorem flipSelRow_writes (old w : W36) : flipSelRow.writes old w =
    putBits (putBits (putBits (putBits (putBits (putBits old 0 4 (bits w 0 4)) 4 12 (bits w 4 12)) 16 4 (bits w 16 4)) 20 1
      (bits w 20 1) &&& ~~~putBits 0 21 1 (bits w 21 1)) 22 4 (bits w 22 4)) 26 6 (bits w 26 6) := rfl

/-- A field of MIE_FLIP_SEL below DONE depends on the RW fields below DONE alone. -/
theorem flipSelRow_low (old w : W36) {lo width : Nat} (h : lo + width ≤ 21) : bits (flipSelRow.writes old w) lo width =
    bits (putBits (putBits (putBits (putBits old 0 4 (bits w 0 4)) 4 12 (bits w 4 12)) 16 4 (bits w 16 4)) 20 1 (bits w 20 1))
      lo width := by
  rw [flipSelRow_writes, bits_putBits_other _ _ _ _ _ _ (.inl (by omega)), bits_putBits_other _ _ _ _ _ _ (.inl (by omega)),
    bits_and_not_putBits _ _ _ _ _ _ h (by decide)]

theorem flipSelRow_kind (old w : W36) : bits (flipSelRow.writes old w) 0 4 = bits w 0 4 := by
  rw [flipSelRow_low _ _ (by decide), bits_putBits_other _ _ _ _ _ _ (by decide), bits_putBits_other _ _ _ _ _ _ (by decide),
    bits_putBits_other _ _ _ _ _ _ (by decide), bits_putBits_same _ _ _ _ (by decide), Nat.mod_eq_of_lt (bits_lt w 0 4)]

theorem flipSelRow_index (old w : W36) : bits (flipSelRow.writes old w) 4 12 = bits w 4 12 := by
  rw [flipSelRow_low _ _ (by decide), bits_putBits_other _ _ _ _ _ _ (by decide), bits_putBits_other _ _ _ _ _ _ (by decide),
    bits_putBits_same _ _ _ _ (by decide), Nat.mod_eq_of_lt (bits_lt w 4 12)]

theorem flipSelRow_arm (old w : W36) : bits (flipSelRow.writes old w) 20 1 = bits w 20 1 := by
  rw [flipSelRow_low _ _ (by decide), bits_putBits_same _ _ _ _ (by decide), Nat.mod_eq_of_lt (bits_lt w 20 1)]

theorem Chip.flipSet_reg (s : Chip) (d : Nat) (v : W36) :
    (s.flipSet d v).reg d Reg.MIE_FLIP_SEL = flipSelRow.writes (s.reg d Reg.MIE_FLIP_SEL) v := Chip.reg_setReg_same s d _ _

/-- An arming that R500 allows: the flip is armed with its KIND and INDEX, and nothing else changes (R499). -/
theorem Chip.flipSet_armWord_spec (s : Chip) (d : Nat) (v : W36) :
    let t := s.flipSet d (armWord v)
    t.flag d F.MIE_FLIP_SEL_ARM = true ∧ OnlyRegs s t ∧ t.fld d F.MIE_FLIP_SEL_KIND = bits v 0 4 ∧
      t.fld d F.MIE_FLIP_SEL_INDEX = bits v 4 12 ∧ RegsBut (OneReg d Reg.MIE_FLIP_SEL) s t := by
  have hreg := s.flipSet_reg d (armWord v)
  have harm : (s.flipSet d (armWord v)).fld d F.MIE_FLIP_SEL_ARM = bits (armWord v) 20 1 :=
    (congrArg (fun w => bits w 20 1) hreg).trans (flipSelRow_arm _ _)
  refine ⟨(flag_of_bits harm).trans (armWord_arm v), OnlyRegs.setReg s d _ _, ?_, ?_, Chip.setReg_regsBut s _ (by decide)⟩
  · exact (congrArg (fun w => bits w 0 4) hreg).trans ((flipSelRow_kind _ _).trans (armWord_kind v))
  · exact (congrArg (fun w => bits w 4 12) hreg).trans ((flipSelRow_index _ _).trans (armWord_index v))

/-! ### MIE_CTRL (R500) -/

theorem exec_testEnWrite (d : Die) (v : W36) (s : State) :
    exec (.testEnWrite d v) s = s.onDie d (fun c => c.mieCtrlWrite d v) := rfl

/-- MIE_CTRL as a write by its table leaves it. -/
def Chip.mieCtrlSet (s : Chip) (d : Nat) (v : W36) : Chip :=
  s.setReg d Reg.MIE_CTRL (mieCtrlRow.writes (s.reg d Reg.MIE_CTRL) v)

theorem Chip.mieCtrlWrite_refused {s : Chip} {v : W36} (hv : bit v 0 = true) (hlevel : s.sec.level ≠ 0) (d : Nat) :
    s.mieCtrlWrite d v = s.mieRefuse d := by simp [Chip.mieCtrlWrite, hv, hlevel, Chip.mieRefuse]

theorem Chip.mieCtrlWrite_taken {s : Chip} {v : W36} (h : bit v 0 = false ∨ s.sec.level = 0) (d : Nat) :
    s.mieCtrlWrite d v = s.mieCtrlSet d v := by
  have hno : (bit v 0 && s.sec.level != 0) = false := by
    rcases h with h | h <;> simp [h]
  rw [Chip.mieCtrlWrite, hno, Chip.plainWrite_of_findRow s d v findRow_mieCtrl]
  rfl

theorem Chip.mieCtrlSet_spec (s : Chip) (d : Nat) (v : W36) : (s.mieCtrlSet d v).flag d F.MIE_CTRL_TEST_EN = bit v 0 ∧
    OnlyRegs s (s.mieCtrlSet d v) ∧ RegsBut (OneReg d Reg.MIE_CTRL) s (s.mieCtrlSet d v) := by
  have hfld := Chip.fld_setReg_writes (r := mieCtrlRow) (by decide) (by decide) s d Reg.MIE_CTRL v ⟨0, 1, .rw, 0⟩ (by decide)
  exact ⟨flag_of_bits hfld, OnlyRegs.setReg s d _ _, Chip.setReg_regsBut s _ (by decide)⟩

/-! ### The integrity engine -/

/-- Settles O54, clause by clause: a MAC check through what a halt keeps, the two walks through the line each stores, and the writes
of the flip and test registers through their rows. -/
theorem integrityEngine : Obligations.IntegrityEngine := by
  refine ⟨?mac, ?init, ?rekey, ?walk, ?flip⟩
  case mac =>
    intro s d ch hr
    refine ⟨fun hm => NoEffect.of_onDie (exec_macCheck d ch s) (Chip.macCheck_none hm), fun line r hm => ?_,
      fun line r hm hdev => macCheck_failed hr hm hdev⟩
    exact Done.of_result (exec_macCheck d ch s) hr (Chip.macCheck_good hm)
      ⟨Chip.ddrChan_onDdr _ _ _ _, rfl, onlyChannel_onDdr _ _ _ _⟩
  case init =>
    intro s d ch hr mode line n p key busy
    refine ⟨fun hb => NoEffect.of_onDie (exec_initWalkLine d ch s) (Chip.initLine_idle hb), fun hb hready harm hmig => ?_⟩
    obtain ⟨hptr, hdram, hbusy⟩ := Chip.initLine_spec ch.isLt hb hready harm hmig
    have hget : (s.chip.initLine d ch).dram.get key = s.chip.initContent d ch line := by rw [hdram]; exact SMap.get_set_same _ _ _
    refine Done.of_onDie (exec_initWalkLine d ch s) hr ⟨hptr, ?_, ?_, ?_, ?_, ?_, ?_⟩
    · exact fun j hj => by rw [hdram]; exact SMap.get_set_other _ _ hj
    · exact fun h0 => hget.trans (Chip.initContent_plain h0)
    · intro h1
      rw [hget, Chip.initContent_compact h1]
      exact ⟨lineVerdict_compactLine _ _ _, rfl, compactLine_mac _ _ _⟩
    · intro h2
      rw [hget, Chip.initContent_full h2]
      exact ⟨rfl, lineVerdict_freshNode _ _⟩
    · exact fun h2 _ => by rw [hbusy, Chip.initEnd, if_neg h2]
    · exact fun h2 => by rw [hbusy, Chip.initEnd, if_pos h2]
  case rekey =>
    intro s p h ws ha hreset d ch mode busy
    have hrun := Chip.runsPacket_of_accepts ha
    have hch : ch < 2 := bits_lt _ 0 1
    refine ⟨fun h0 => rekey_done ha hreset ?_, fun h0 hb => rekey_done ha hreset ?_, fun h0 hb => rekey_done ha hreset ?_⟩
    · rw [Chip.rekeyCommand, if_pos h0]
      obtain ⟨hrep, honly⟩ := Chip.finish_spec hrun St.state (s.chip.stateWords 0x301 (some (0, [1, 2])))
      exact ⟨⟨_, hrep⟩, honly⟩
    · rw [Chip.rekeyCommand, if_neg h0, if_pos hb]
      exact Chip.finish_spec hrun St.busy []
    · rw [Chip.rekeyCommand, if_neg h0, if_neg (Bool.eq_false_iff.mp hb)]
      exact Chip.rekeyTaken_spec hrun d hch
  case walk =>
    intro s d ch hr line n p key x k k' y
    refine ⟨fun hb => NoEffect.of_onDie (exec_rekeyWalkLine d ch 0 s) (Chip.rekeyLine_idle hb 0),
      fun hb hready hmode harm hmig hcache hpass hmac hline => ?_⟩
    have hm : s.chip.Movable d ch line := ⟨hb, rfl, hmode, harm, hmig, hpass, hmac, hline⟩
    obtain ⟨hptr, hbusy, hnewest⟩ := Chip.lineMoved_spec ch.isLt hm
    have hget : (s.chip.lineMoved d ch line).dram.get key = s.chip.rekeyed d ch line := SMap.get_set_same _ _ _
    have hother : SameBut key s.chip.dram (s.chip.lineMoved d ch line).dram := fun j hj => SMap.get_set_other _ _ hj
    refine Done.of_result (exec_rekeyWalkLine d ch 0 s) hr (Chip.rekeyLine_compact ch.isLt hm hready hcache) ?_
    by_cases hend : n ≤ line + 1
    · obtain ⟨hwalk, hddr, hmie⟩ := (s.chip.lineMoved d ch line).rekeyEnded_flags d ch.isLt
      obtain ⟨hnew, hseq⟩ := Chip.rekeyEnded_logged (s := s.chip.lineMoved d ch line) d.isLt ch.isLt
      rw [if_pos hend, Chip.rekeyEnded_ptr _ _ ch.isLt, Chip.rekeyEnded_dram, Chip.rekeyEnded_dev, hget, Chip.rekeyEnded_chan]
      exact ⟨hptr, hother, rfl, rfl, compactLine_mac _ _ _, fun h => absurd hend (Nat.not_le.mpr h),
        fun _ => ⟨hwalk, hddr, hmie, rfl, hnew, hnewest ▸ hseq⟩⟩
    · rw [if_neg hend, hget]
      exact ⟨hptr, hother, rfl, rfl, compactLine_mac _ _ _, fun _ => ⟨hbusy, rfl⟩, fun h => absurd h hend⟩
  case flip =>
    intro s d v hr refused allowed
    have hrefused : refused (s.chip.mieRefuse d) := s.chip.mieRefuse_spec d
    refine ⟨fun ha => ?_, fun ha => ?_, fun hv hlevel => ?_, fun h => ?_⟩
    · exact Done.of_result (exec_mieFlipArm d v s) hr (Chip.flipSelWrite_of_mayArm ((Chip.mayArm_armWord _ d v).mpr ha))
        (Chip.flipSet_armWord_spec _ d v)
    · exact Done.of_result (exec_mieFlipArm d v s) hr
        (Chip.flipSelWrite_of_not_mayArm (mt (Chip.mayArm_armWord _ d v).mp ha) (armWord_arm v)) hrefused
    · exact Done.of_result (exec_testEnWrite d v s) hr (Chip.mieCtrlWrite_refused hv hlevel d) hrefused
    · exact Done.of_result (exec_testEnWrite d v s) hr (Chip.mieCtrlWrite_taken h d) (Chip.mieCtrlSet_spec _ d v)

end Sys2Proof.Machine
end

section
/-! PROOFS. What a write makes of a bit of a register, by the access types of its row, and the registers of a counter block
(R11, R634). -/

namespace Sys2Proof.Machine

/-! ### A bit of a written register (R11) -/

/-- A bit of a register after a write passes one field: RW takes the written bit, W1C clears it, the others leave it. -/
def FldRow.bitWritten (f : FldRow) (i : Nat) (old w : Bool) : Bool :=
  if f.lo ≤ i ∧ i < f.lo + f.width then
    match f.acc with
    | .rw => w
    | .w1c => old && !w
    | _ => old
  else old

theorem FldRow.getLsbD_written (f : FldRow) (old w : W36) {i : Nat} (hi : i < 36) :
    (f.written old w).getLsbD i = f.bitWritten i (old.getLsbD i) (w.getLsbD i) := by
  have hput : ∀ x : W36, (putBits x f.lo f.width (bits w f.lo f.width)).getLsbD i =
      if f.lo ≤ i ∧ i < f.lo + f.width then w.getLsbD i else x.getLsbD i := by
    intro x
    rw [getLsbD_putBits _ _ _ _ _ hi]
    split
    · next hin =>
      have hwidth : i - f.lo < f.width := by omega
      rw [testBit_bits, show f.lo + (i - f.lo) = i by omega, decide_eq_true hwidth, Bool.true_and]
    · rfl
  unfold FldRow.written FldRow.bitWritten
  cases f.acc
  case rw => exact hput old
  case w1c =>
    simp only [BitVec.getLsbD_and, BitVec.getLsbD_not, hi, decide_true, Bool.true_and, hput]
    split <;> simp
  all_goals simp

/-- A bit of a register after a write, field by field of its row. -/
theorem RegRow.getLsbD_writes (r : RegRow) (old w : W36) {i : Nat} (hi : i < 36) :
    (r.writes old w).getLsbD i = r.flds.foldl (fun x f => f.bitWritten i x (w.getLsbD i)) (old.getLsbD i) := by
  unfold RegRow.writes
  induction r.flds generalizing old with
  | nil => rfl
  | cons f fs ih => rw [List.foldl_cons, List.foldl_cons, ih, FldRow.getLsbD_written f old w hi]

theorem RegRow.bit_writes (r : RegRow) (old w : W36) {i : Nat} (hi : i < 36) :
    bit (r.writes old w) i = r.flds.foldl (fun x f => f.bitWritten i x (bit w i)) (bit old i) := r.getLsbD_writes old w hi

/-- A field keeps its value when a register at another offset is written. -/
theorem Chip.fld_setReg_off (s : Chip) {d off d' : Nat} {f : Fld} (w : W36) (ho : off < 2 ^ 23) (hf : f.off < 2 ^ 23)
    (hne : f.off ≠ off) : (s.setReg d off w).fld d' f = s.fld d' f :=
  (Chip.setReg_regsBut s w ho).fld_of_off_ne hf hne

/-! ### The registers of a block, by their distance from its CFG register -/

theorem pmcHi_eq (b : Option Nat) : pmcHi b = ⟨pmcCfgReg b + 2, 0, 28⟩ := by
  cases b with
  | none => rfl
  | some n => exact congrArg (Fld.mk · 0 28) (by simp only [pmcCfgReg, Reg.OBE_PMC_HI, Reg.OBE_PMC_CFG]; omega)

theorem pmcMode_eq (b : Option Nat) : pmcMode b = ⟨pmcCfgReg b, 0, 1⟩ := by cases b <;> rfl

theorem pmcOvfCnt_eq (b : Option Nat) : pmcOvfCnt b = ⟨pmcCfgReg b + 3, 0, 8⟩ := by
  cases b with
  | none => rfl
  | some n => exact congrArg (Fld.mk · 0 8) (by simp only [pmcCfgReg, Reg.OBE_PMC_OVF, Reg.OBE_PMC_CFG]; omega)

theorem pmcOvfCyc_eq (b : Option Nat) : pmcOvfCyc b = ⟨pmcCfgReg b + 3, 8, 1⟩ := by
  cases b with
  | none => rfl
  | some n => exact congrArg (Fld.mk · 8 1) (by simp only [pmcCfgReg, Reg.OBE_PMC_OVF, Reg.OBE_PMC_CFG]; omega)

theorem pmcInvalid_eq (b : Option Nat) (ev : Nat) :
    pmcInvalid b ev = if ev < 36 then ⟨pmcCfgReg b + 4, ev, 1⟩ else ⟨pmcCfgReg b + 5, ev - 36, 1⟩ := by
  cases b with
  | none => rfl
  | some n =>
    have hlo : Reg.OBE_PMC_INV_LO n = Reg.OBE_PMC_CFG n + 4 := by simp only [Reg.OBE_PMC_INV_LO, Reg.OBE_PMC_CFG]; omega
    simp only [pmcInvalid, pmcCfgReg, hlo]

/-- A block of a core of the die, or the die's own. -/
def PmcOf (b : Option Nat) : Prop := ∀ n ∈ b, n < 64

theorem pmcOf_some {n : Nat} (hn : n < 64) : PmcOf (some n) := fun m hm => by obtain rfl := Option.some.inj hm; exact hn

theorem pmcOf_map (blk : Option (Fin 64)) : PmcOf (blk.map (fun n => n.val)) := by
  intro n hn
  obtain ⟨x, -, rfl⟩ := Option.map_eq_some_iff.mp hn
  exact x.isLt

/-- The registers of a block lie above the log's and within the space of a die's registers. -/
theorem PmcOf.range {b : Option Nat} (hb : PmcOf b) : 0x120000 ≤ pmcCfgReg b ∧ pmcCfgReg b + 0x100 < 2 ^ 23 := by
  cases b with
  | none => decide
  | some n =>
    have hn : n < 64 := hb n rfl
    simp only [pmcCfgReg, Reg.OBE_PMC_CFG]
    omega

/-- The row of OBE_PMC_CFG. -/
def obePmcCfgRow : RegRow := ⟨0x200100, [(64, 65536)], [⟨0, 1, .rw, 0⟩, ⟨1, 1, .rw, 0⟩, ⟨2, 1, .wo, 0⟩, ⟨3, 1, .w1c, 0⟩]⟩

/-- The row of OBE_PMC_USER. -/
def obePmcUserRow : RegRow := ⟨0x200101, [(64, 65536)], [⟨0, 1, .rw, 0⟩, ⟨1, 1, .rw, 0⟩]⟩

/-- The row of OBE_PMC_CFG or of PMC_CFG. -/
def pmcCfgRow : Option Nat → RegRow
  | some _ => obePmcCfgRow
  | none => ⟨0x120000, [], [⟨0, 1, .rw, 0⟩, ⟨1, 1, .rw, 0⟩, ⟨2, 1, .wo, 0⟩, ⟨4, 2, .rw, 0⟩, ⟨6, 2, .rw, 0⟩]⟩

theorem findRow_obePmcCfg (n : Fin 64) : findRow (Reg.OBE_PMC_CFG n) = some obePmcCfgRow := by revert n; decide +kernel

theorem findRow_obePmcUser (n : Fin 64) : findRow (Reg.OBE_PMC_USER n) = some obePmcUserRow := by revert n; decide +kernel

theorem findRow_pmcCfg {b : Option Nat} (hb : PmcOf b) : findRow (pmcCfgReg b) = some (pmcCfgRow b) := by
  cases b with
  | none => decide +kernel
  | some n => exact findRow_obePmcCfg ⟨n, hb n rfl⟩

end Sys2Proof.Machine
end

section
/-! PROOFS. A write of a block's CFG register (R634). -/

namespace Sys2Proof.Machine

theorem exec_pmcCfgWrite (d : Die) (blk : Option (Fin 64)) (v : W36) (s : State) :
    exec (.pmcCfgWrite d blk v) s = s.onDie d (fun c => c.pmcCfgWrite d (blk.map (fun n => n.val)) v) := rfl

@[simp] theorem Chip.pmcBlock_onPmc (s : Chip) (d : Nat) (b : Option Nat) (f : Pmc → Pmc) :
    (s.onPmc d b f).pmcBlock d b = f (s.pmcBlock d b) := SMap.get_upd_same _ _ _

theorem pmcCfgRow_bits (b : Option Nat) (old w : W36) {i : Nat} (hi : i < 2) : bit ((pmcCfgRow b).writes old w) i = bit w i := by
  rw [RegRow.bit_writes _ _ _ (by omega)]
  obtain rfl | rfl : i = 0 ∨ i = 1 := by omega
  · cases b <;> rfl
  · cases b <;> rfl

theorem OnlyRegs.pmcBlock_eq {a c : Chip} (h : OnlyRegs a c) (d : Nat) (b : Option Nat) : c.pmcBlock d b = a.pmcBlock d b := by
  rw [h]; rfl

/-- Registers written after a block was changed: nothing else of the chip differs. -/
theorem OnlyRegs.frame_of_onPmc {s c : Chip} {d : Nat} {b : Option Nat} {f : Pmc → Pmc} (h : OnlyRegs (s.onPmc d b f) c) :
    c = { s with regs := c.regs, pmc := c.pmc } := by
  rw [h]; rfl

section
variable (s : Chip) (d : Nat) {b : Option Nat} (v : W36)

/-- A block's CFG register as a write by its table leaves it. -/
def Chip.pmcCfgSet (b : Option Nat) : Chip := s.setReg d (pmcCfgReg b) ((pmcCfgRow b).writes (s.reg d (pmcCfgReg b)) v)

theorem Chip.pmcCfgSet_reg : (s.pmcCfgSet d v b).reg d (pmcCfgReg b) = (pmcCfgRow b).writes (s.reg d (pmcCfgReg b)) v :=
  Chip.reg_setReg_same s d _ _

theorem Chip.pmcCfgSet_en : bit ((s.pmcCfgSet d v b).reg d (pmcCfgReg b)) 1 = bit v 1 := by
  rw [Chip.pmcCfgSet_reg, pmcCfgRow_bits b _ v (by decide)]

theorem Chip.pmcCfgSet_mode : (s.pmcCfgSet d v b).fld d (pmcMode b) = bits v 0 1 := by
  have hbit := pmcCfgRow_bits b (s.reg d (pmcCfgReg b)) v (by decide : 0 < 2)
  rw [pmcMode_eq, Chip.fld, Chip.pmcCfgSet_reg, bits_one, bits_one, hbit]

theorem Chip.pmcCfgSet_regsBut (hb : PmcOf b) : RegsBut (OneReg d (pmcCfgReg b)) s (s.pmcCfgSet d v b) :=
  Chip.setReg_regsBut s _ (by have := hb.range; omega)

theorem Chip.pmcCfgWrite_eq (hb : PmcOf b) : s.pmcCfgWrite d b v =
    if bits v 0 1 ≠ s.fld d (pmcMode b) ∨ bit v 2 = true then (s.pmcCfgSet d v b).pmcClear d b else s.pmcCfgSet d v b := by
  simp only [Chip.pmcCfgWrite, Chip.plainWrite_of_findRow s d v (findRow_pmcCfg hb), Bool.or_eq_true, bne_iff_ne]
  rfl

/-- The registers that a cleared block writes: OVF, INV_LO and INV_HI. -/
def ClearedReg (b : Option Nat) (d' off : Nat) : Prop := d' = d ∧ pmcCfgReg b + 3 ≤ off ∧ off ≤ pmcCfgReg b + 5

theorem Chip.pmcClear_eq (b : Option Nat) : s.pmcClear d b =
    ((((s.onPmc d b (fun _ => {})).setFld d (pmcOvfCnt b) 0).setFld d (pmcOvfCyc b) 0).setReg d (pmcCfgReg b + 4) 0).setReg d
      (pmcCfgReg b + 5) 0 := by
  simp only [Chip.pmcClear, pmcInvalid_eq]
  rfl

theorem Chip.pmcClear_only (b : Option Nat) : OnlyRegs (s.onPmc d b (fun _ => {})) (s.pmcClear d b) := by
  rw [Chip.pmcClear_eq]
  exact (((OnlyRegs.setFld _ d _ 0).trans (OnlyRegs.setFld _ d _ 0)).trans (OnlyRegs.setReg _ d _ 0)).trans (OnlyRegs.setReg _ d _ 0)

theorem Chip.pmcClear_regsBut (hb : PmcOf b) : RegsBut (ClearedReg d b) s (s.pmcClear d b) := by
  obtain ⟨-, hhi⟩ := hb.range
  have hreg : ∀ (t : Chip) (w : W36) (k : Nat), 3 ≤ k → k ≤ 5 → RegsBut (ClearedReg d b) t (t.setReg d (pmcCfgReg b + k) w) :=
    fun t w k h3 h5 => RegsBut.setReg t w (by omega) ⟨rfl, by omega, by omega⟩
  have hblock : RegsBut (ClearedReg d b) s (s.onPmc d b (fun _ => {})) := RegsBut.of_regs rfl
  rw [Chip.pmcClear_eq, pmcOvfCnt_eq, pmcOvfCyc_eq]
  exact (((hblock.trans (hreg _ _ 3 (by decide) (by decide))).trans (hreg _ _ 3 (by decide) (by decide))).trans
    (hreg _ _ 4 (by decide) (by decide))).trans (hreg _ _ 5 (by decide) (by decide))

theorem Chip.pmcClear_mode (hb : PmcOf b) : (s.pmcClear d b).fld d (pmcMode b) = s.fld d (pmcMode b) := by
  obtain ⟨-, hhi⟩ := hb.range
  rw [pmcMode_eq]
  exact (s.pmcClear_regsBut d hb).fld (by show pmcCfgReg b < 2 ^ 23; omega)
    (fun hp => by have h3 : pmcCfgReg b + 3 ≤ pmcCfgReg b := hp.2.1; omega)

/-- The flags of a cleared block: no counter has wrapped (R634). -/
theorem Chip.pmcClear_ovf (hb : PmcOf b) :
    (s.pmcClear d b).fld d (pmcOvfCnt b) = 0 ∧ (s.pmcClear d b).fld d (pmcOvfCyc b) = 0 := by
  obtain ⟨-, hhi⟩ := hb.range
  have hkeep : ∀ (t : Chip) (lo width : Nat), ((t.setReg d (pmcCfgReg b + 4) 0).setReg d (pmcCfgReg b + 5) 0).fld d
      ⟨pmcCfgReg b + 3, lo, width⟩ = t.fld d ⟨pmcCfgReg b + 3, lo, width⟩ := fun t lo width => by
    rw [Chip.fld_setReg_off _ _ (by omega) (by show pmcCfgReg b + 3 < 2 ^ 23; omega) (by simp),
      Chip.fld_setReg_off _ _ (by omega) (by show pmcCfgReg b + 3 < 2 ^ 23; omega) (by simp)]
  have hcyc : ∀ t : Chip, (t.setFld d ⟨pmcCfgReg b + 3, 8, 1⟩ 0).fld d ⟨pmcCfgReg b + 3, 0, 8⟩ = t.fld d ⟨pmcCfgReg b + 3, 0, 8⟩ :=
    fun t => Chip.fld_setFld_bits t d 0 rfl (.inl (by decide : 0 + 8 ≤ 8))
  rw [Chip.pmcClear_eq, pmcOvfCnt_eq, pmcOvfCyc_eq, hkeep, hkeep, hcyc, Chip.fld_setFld_same _ _ _ _ (by decide : 0 + 8 ≤ 36),
    Chip.fld_setFld_same _ _ _ _ (by decide : 8 + 1 ≤ 36)]
  exact ⟨rfl, rfl⟩

/-- No event of a cleared block has lost a count (R634). -/
theorem Chip.pmcClear_invalid (hb : PmcOf b) (ev : Nat) : (s.pmcClear d b).flag d (pmcInvalid b ev) = false := by
  obtain ⟨-, hhi⟩ := hb.range
  have hlo : (s.pmcClear d b).reg d (pmcCfgReg b + 4) = 0 := by
    rw [Chip.pmcClear_eq, Chip.reg_setReg_other _ _ (regKey_ne (by omega) (by omega) (by omega)), Chip.reg_setReg_same]
  have hhigh : (s.pmcClear d b).reg d (pmcCfgReg b + 5) = 0 := by rw [Chip.pmcClear_eq, Chip.reg_setReg_same]
  rw [pmcInvalid_eq]
  split
  · simp [Chip.flag, Chip.fld, hlo, bits]
  · simp [Chip.flag, Chip.fld, hhigh, bits]
end

end Sys2Proof.Machine
end

section
/-! PROOFS. A word of a block that fails its check: it restarts, and its event is reported once (R639). -/

namespace Sys2Proof.Machine

/-- The DETAIL of a PMC_LOST event. -/
def lostDetail (b : Option Nat) (ev : Nat) : Nat := b.getD 0 + ev * 64 + if b.isNone then 2 ^ 12 else 0

/-- A block whose word for an event has restarted at zero. -/
def Pmc.Restarted (p : Pmc) (ev : Nat) : Prop := ev ∉ p.bad ∧ p.words.get ev = 0 ∧ p.fast.get ev = 0

/-- Between s and c an event's loss was reported: INVALID is set, and an event logged where it was not (R639). -/
structure LossReported (s c : Chip) (d : Nat) (b : Option Nat) (ev : Nat) : Prop where
  invalid : c.flag d (pmcInvalid b ev) = true
  known : s.flag d (pmcInvalid b ev) = true → c.log = s.log
  logged : s.flag d (pmcInvalid b ev) = false → Logged s c d Ev.pmcLost (lostDetail b ev)

/-- A block's word for an event as R639 restarts it. -/
def Pmc.restart (ev : Nat) (p : Pmc) : Pmc :=
  { p with words := p.words.set ev 0, fast := p.fast.set ev 0, bad := p.bad.filter (· != ev) }

theorem Pmc.restarted_restart (ev : Nat) (p : Pmc) : (p.restart ev).Restarted ev :=
  ⟨by simp [Pmc.restart], by simp [Pmc.restart], by simp [Pmc.restart]⟩

theorem pmcInvalid_place {b : Option Nat} (hb : PmcOf b) {ev : Nat} :
    (pmcInvalid b ev).off < 2 ^ 23 ∧ 0x120000 < (pmcInvalid b ev).off ∧ (pmcInvalid b ev).off ≠ pmcCfgReg b + 2 := by
  obtain ⟨hlo, hhi⟩ := hb.range
  rw [pmcInvalid_eq]
  split <;> exact ⟨by simp only; omega, by simp only; omega, by simp⟩

theorem pmcInvalid_fits (b : Option Nat) {ev : Nat} (hev : ev < 48) :
    (pmcInvalid b ev).lo + (pmcInvalid b ev).width ≤ 36 ∧ (pmcInvalid b ev).width = 1 := by
  rw [pmcInvalid_eq]
  split <;> exact ⟨by simp only; omega, rfl⟩

section
variable {s c c' : Chip} {d : Nat} {b : Option Nat} {ev : Nat}

/-- A report stands while neither the log nor INVALID changes: whatever else happens to HI and to the block. -/
theorem LossReported.after (h : LossReported s c d b ev) (hb : PmcOf b) (hl : c'.log = c.log)
    (hr : RegsBut (OneReg d (pmcHi b).off) c c') : LossReported s c' d b ev := by
  obtain ⟨hlo, hhi⟩ := hb.range
  obtain ⟨hfit, hplace, hne⟩ := pmcInvalid_place hb (ev := ev)
  rw [pmcHi_eq] at hr
  have hnewest : c'.fld d F.DRN_LOG_STATUS_NEWEST = c.fld d F.DRN_LOG_STATUS_NEWEST :=
    hr.fld_of_off_ne (by decide) (by show 0x000005 ≠ pmcCfgReg b + 2; omega)
  exact ⟨(hr.flag_of_off_ne hfit hne).trans h.invalid, fun hs => hl.trans (h.known hs),
    fun hs => (h.logged hs).of_after hl hnewest⟩

theorem Chip.pmcLost_of_good (h : ev ∉ (s.pmcBlock d b).bad) : s.pmcLost d b ev = s := by
  simp [Chip.pmcLost, h]

theorem Chip.pmcLost_of_bad (h : ev ∈ (s.pmcBlock d b).bad) : s.pmcLost d b ev =
    if s.flag d (pmcInvalid b ev) then s.onPmc d b (Pmc.restart ev)
    else ((s.onPmc d b (Pmc.restart ev)).setFlag d (pmcInvalid b ev) true).logEv d Ev.pmcLost (lostDetail b ev) := by
  have hdetail : b.getD 0 + ev * 64 + ofBool b.isNone * 2 ^ 12 = lostDetail b ev := by
    cases b <;> simp [lostDetail, ofBool]
  simp only [Chip.pmcLost, List.contains_iff_mem.mpr h, if_true, hdetail]
  rfl

theorem OnlyRegsAndLog.pmcBlock_eq {a c : Chip} (h : OnlyRegsAndLog a c) (d : Nat) (b : Option Nat) :
    c.pmcBlock d b = a.pmcBlock d b := by
  rw [h]; rfl

theorem Chip.pmcLost_block (h : ev ∈ (s.pmcBlock d b).bad) : (s.pmcLost d b ev).pmcBlock d b = (s.pmcBlock d b).restart ev := by
  rw [Chip.pmcLost_of_bad h]
  split
  · exact Chip.pmcBlock_onPmc s d b _
  · exact ((Chip.logEv_only _ d _ _).pmcBlock_eq d b).trans (Chip.pmcBlock_onPmc s d b _)

theorem Chip.pmcLost_reported (hd : d < 4) (hb : PmcOf b) (hev : ev < 48) (h : ev ∈ (s.pmcBlock d b).bad) :
    LossReported s (s.pmcLost d b ev) d b ev := by
  obtain ⟨hfit, hplace, -⟩ := pmcInvalid_place hb (ev := ev)
  obtain ⟨hin, hone⟩ := pmcInvalid_fits b hev
  rw [Chip.pmcLost_of_bad h]
  cases hflag : s.flag d (pmcInvalid b ev)
  · generalize ht : (s.onPmc d b (Pmc.restart ev)).setFlag d (pmcInvalid b ev) true = t
    have hset : t.flag d (pmcInvalid b ev) = true := by rw [← ht]; exact Chip.flag_setFlag_same _ d _ true hin hone
    have hnewest : t.fld d F.DRN_LOG_STATUS_NEWEST = s.fld d F.DRN_LOG_STATUS_NEWEST := by
      rw [← ht, Chip.setFlag_eq, Chip.fld_setFld_off _ _ hfit (by decide) (by show 0x000005 ≠ (pmcInvalid b ev).off; omega)]
      rfl
    refine ⟨?_, fun hs => absurd (hflag.symm.trans hs) (by decide), fun _ => ?_⟩
    · exact (congrArg (· == 1) (Chip.logEv_fld t d _ _ d hfit (by show (pmcInvalid b ev).off ≠ 0x000005; omega))).trans hset
    · exact (Chip.logEv_newest t hd (by decide) (by decide) _).of_before hnewest.symm
  · exact ⟨hflag, fun _ => rfl, fun hs => absurd (hflag.symm.trans hs) (by decide)⟩
end

end Sys2Proof.Machine
end

section
/-! PROOFS. Reads and writes of counters, and the flush engine's visits (R638, R639, R641). -/

namespace Sys2Proof.Machine

/-! ### The value of a counter -/

theorem Pmc.value_eq (p : Pmc) (select : Bool) (i : Nat) : p.value select i =
    if select then (if i = 0 then p.cyc else if i < 9 then p.cnt.get (i - 1) else 0)
    else if i < 9 then 0 else (p.words.get (i - 9) + p.fast.get (i - 9)) % 2 ^ 40 := by
  unfold Pmc.value
  by_cases hi : i < 9
  · simp [hi, Nat.not_le.mpr hi]
  · simp [hi, Nat.le_of_not_lt hi]

/-- A restarted word reads as zero. -/
theorem Pmc.Restarted.value {p : Pmc} {i : Nat} (h : p.Restarted (i - 9)) (hi : 9 ≤ i) : p.value false i = 0 := by
  obtain ⟨-, hword, hfast⟩ := h
  simp [Pmc.value, hi, hword, hfast]

/-! ### PMC_COUNTER_READ (R641) -/

theorem exec_pmcCounterRead (d : Die) (blk : Option (Fin 64)) (i : Fin 57) (s : State) :
    exec (.pmcCounterRead d blk i) s = s.onDie d (fun c =>
      (fun (r : Chip × W36) => { r.1 with returned := [r.2] }) (c.pmcRead d (blk.map (fun n => n.val)) i true)) := rfl

section
variable {s : Chip} {d : Nat} {b : Option Nat} {i : Nat}

/-- What an active read leaves once its word has been checked: the value's upper bits in HI. -/
def Chip.pmcLatch (s : Chip) (d : Nat) (b : Option Nat) (value : Nat) : Chip := s.setFld d (pmcHi b) (value / 2 ^ 36)

theorem Chip.pmcRead_quiet (s : Chip) (d : Nat) (b : Option Nat) (i : Nat) :
    s.pmcRead d b i false = (s, word ((s.pmcBlock d b).value (s.flag d (pmcMode b)) i)) := rfl

theorem Chip.pmcRead_of_good (h : ¬ (s.flag d (pmcMode b) = false ∧ 9 ≤ i ∧ i - 9 ∈ (s.pmcBlock d b).bad)) :
    s.pmcRead d b i true = (s.pmcLatch d b ((s.pmcBlock d b).value (s.flag d (pmcMode b)) i),
      word ((s.pmcBlock d b).value (s.flag d (pmcMode b)) i)) := by
  have hchecked : (if true && !s.flag d (pmcMode b) && decide (9 ≤ i) then s.pmcLost d b (i - 9) else s) = s := by
    split
    · next hc =>
      simp only [Bool.true_and, Bool.and_eq_true, Bool.not_eq_true', decide_eq_true_eq] at hc
      exact Chip.pmcLost_of_good (fun hbad => h ⟨hc.1, hc.2, hbad⟩)
    · rfl
  simp only [Chip.pmcRead, hchecked]
  rfl

theorem Chip.pmcRead_of_lost (hmode : s.flag d (pmcMode b) = false) (hi : 9 ≤ i) (hbad : i - 9 ∈ (s.pmcBlock d b).bad) :
    s.pmcRead d b i true = ((s.pmcLost d b (i - 9)).pmcLatch d b 0, 0) := by
  have hvalue : ((s.pmcLost d b (i - 9)).pmcBlock d b).value false i = 0 := by
    rw [Chip.pmcLost_block hbad]
    exact (Pmc.restarted_restart _ _).value hi
  simp only [Chip.pmcRead, hmode, hi, decide_true, Bool.not_false, Bool.and_true, if_true, hvalue]
  rfl

theorem Chip.pmcLatch_hi (s : Chip) (d : Nat) (b : Option Nat) (value : Nat) :
    (s.pmcLatch d b value).fld d (pmcHi b) = value / 2 ^ 36 % 2 ^ 28 := by
  rw [Chip.pmcLatch, pmcHi_eq]
  exact Chip.fld_setFld_same s d ⟨pmcCfgReg b + 2, 0, 28⟩ _ (by decide : 0 + 28 ≤ 36)

theorem Chip.pmcLatch_regsBut (s : Chip) (d : Nat) (hb : PmcOf b) (value : Nat) :
    RegsBut (OneReg d (pmcHi b).off) s (s.pmcLatch d b value) := by
  obtain ⟨-, hhi⟩ := hb.range
  exact RegsBut.setFld s _ (by rw [pmcHi_eq]; show pmcCfgReg b + 2 < 2 ^ 23; omega) ⟨rfl, rfl⟩
end

/-- An active read has its effect where its word is returned and what the read leaves meets P. -/
theorem pmcCounterRead_done {s : State} {d : Die} {blk : Option (Fin 64)} {i : Fin 57} {c : Chip} {w : W36} {P : Chip → Prop}
    (hr : s.chip.runs d = true) (h : s.chip.pmcRead d (blk.map (fun n => n.val)) i true = (c, w))
    (hp : P { c with returned := [w] }) : Done (.pmcCounterRead d blk i) s P :=
  Done.of_result (exec_pmcCounterRead d blk i s) hr (by rw [h]) hp

/-! ### PMC_COUNTER_WRITE (R641) -/

theorem exec_pmcCounterWrite (d : Die) (blk : Option (Fin 64)) (i : Fin 57) (v : W36) (s : State) :
    exec (.pmcCounterWrite d blk i v) s = s.onDie d (fun c => c.pmcWrite d (blk.map (fun n => n.val)) i v) := rfl

/-- The width of a counter: 64 the cycle counter's, 48 a SELECT counter's, 40 an EVERY counter's (R634). -/
def counterWidth (select : Bool) (i : Nat) : Nat := if select then (if i = 0 then 64 else 48) else 40

/-- Counter i of the selected mode set to x, cut to its width. -/
def Pmc.put (select : Bool) (i x : Nat) (p : Pmc) : Pmc :=
  if select then
    (if i = 0 then { p with cyc := x % 2 ^ 64 } else { p with cnt := p.cnt.set (i - 1) (x % 2 ^ 48) })
  else { p with words := p.words.set (i - 9) (x % 2 ^ 40), fast := p.fast.set (i - 9) 0, bad := p.bad.filter (· != i - 9) }

section
variable {select : Bool} {i : Nat} (h : select = true ↔ i < 9) (p : Pmc) (x : Nat)
include h

theorem Pmc.value_put_same : (p.put select i x).value select i = x % 2 ^ counterWidth select i := by
  cases select with
  | true =>
    have hi : i < 9 := h.mp rfl
    by_cases h0 : i = 0 <;> simp [Pmc.put, Pmc.value, counterWidth, h0, hi]
  | false =>
    have hi : 9 ≤ i := by simpa using h
    simp [Pmc.put, Pmc.value, counterWidth, hi]

theorem Pmc.value_put_other {j : Nat} (hj : j ≠ i) : (p.put select i x).value select j = p.value select j := by
  cases select with
  | true =>
    have hkey : ∀ k : Nat, k ≠ 0 → i ≠ 0 → k ≠ i → k - 1 ≠ i - 1 := by omega
    by_cases h0 : i = 0 <;> by_cases hj0 : j = 0
    · exact absurd (hj0.trans h0.symm) hj
    · simp [Pmc.put, Pmc.value, h0, hj0]
    · simp [Pmc.put, Pmc.value, h0, hj0]
    · simp [Pmc.put, Pmc.value, h0, hj0, SMap.get_set_other _ _ (hkey j hj0 h0 hj)]
  | false =>
    have hi : 9 ≤ i := by simpa using h
    by_cases hj9 : 9 ≤ j
    · have hkey : j - 9 ≠ i - 9 := by omega
      simp [Pmc.put, Pmc.value, hj9, SMap.get_set_other _ _ hkey]
    · simp [Pmc.value, hj9]
end

section
variable {s : Chip} {d : Nat} {b : Option Nat} {i : Nat}

theorem Chip.pmcWrite_of_shown (h : s.flag d (pmcMode b) = true ↔ i < 9) (v : W36) :
    s.pmcWrite d b i v = s.onPmc d b (Pmc.put (s.flag d (pmcMode b)) i (s.fld d (pmcHi b) * 2 ^ 36 + v.toNat)) := by
  cases hmode : s.flag d (pmcMode b) with
  | true =>
    have hi : i < 9 := h.mp hmode
    unfold Chip.pmcWrite Pmc.put
    by_cases h0 : i = 0 <;> simp [hmode, h0, hi]
  | false =>
    have hi : 9 ≤ i := by simpa [hmode] using h
    simp only [Chip.pmcWrite, hmode, hi, if_true]
    rfl

/-- A counter register of the mode that is not selected ignores writes. -/
theorem Chip.pmcWrite_of_hidden (h : ¬ (s.flag d (pmcMode b) = true ↔ i < 9)) (v : W36) : s.pmcWrite d b i v = s := by
  cases hmode : s.flag d (pmcMode b) with
  | true =>
    have hi : ¬ i < 9 := by simpa [hmode] using h
    have h0 : i ≠ 0 := by omega
    simp [Chip.pmcWrite, hmode, hi, h0]
  | false =>
    have hi : i < 9 := by simpa [hmode] using h
    simp [Chip.pmcWrite, hmode, Nat.not_le.mpr hi]
end

/-! ### PMC_FLUSH (R638, R639) -/

theorem exec_pmcFlush (d : Die) (blk : Option (Fin 64)) (ev : Fin 48) (s : State) :
    exec (.pmcFlush d blk ev) s = s.onDie d (fun c => c.pmcFlush d (blk.map (fun n => n.val)) ev) := rfl

/-- An event's fast counter added into its word and cleared. -/
def Pmc.flush (ev : Nat) (p : Pmc) : Pmc :=
  { p with words := p.words.set ev ((p.words.get ev + p.fast.get ev) % 2 ^ 40), fast := p.fast.set ev 0 }

theorem Pmc.flush_fast (ev : Nat) (p : Pmc) : (p.flush ev).fast.get ev = 0 := by simp [Pmc.flush]

/-- A flush keeps the value of every EVERY counter. -/
theorem Pmc.value_flush (ev : Nat) (p : Pmc) (j : Nat) : (p.flush ev).value false j = p.value false j := by
  by_cases hj : j - 9 = ev
  · simp [Pmc.value, Pmc.flush, hj]
  · simp [Pmc.value, Pmc.flush, SMap.get_set_other _ _ hj]

theorem Pmc.Restarted.flush {p : Pmc} {ev : Nat} (h : p.Restarted ev) : (p.flush ev).Restarted ev := by
  obtain ⟨hbad, hword, hfast⟩ := h
  exact ⟨hbad, by simp [Pmc.flush, hword, hfast], Pmc.flush_fast ev p⟩

section
variable {s : Chip} {d : Nat} {b : Option Nat}

theorem Chip.pmcFlush_select (h : s.flag d (pmcMode b) = true) (ev : Nat) : s.pmcFlush d b ev = s := by
  simp [Chip.pmcFlush, h]

theorem Chip.pmcFlush_every (h : s.flag d (pmcMode b) = false) (ev : Nat) :
    s.pmcFlush d b ev = (s.pmcLost d b ev).onPmc d b (Pmc.flush ev) := by
  simp only [Chip.pmcFlush, h]
  rfl
end

end Sys2Proof.Machine
end

section
/-! PROOFS. Wrapped counters reported, and writes of OBE_PMC_USER and of registers by their offset (R11 to R13, R640, R642). -/

namespace Sys2Proof.Machine

/-! ### PMC_OVERFLOW (R640) -/

theorem exec_pmcOverflow (d : Die) (blk : Option (Fin 64)) (i : Fin 8) (s : State) :
    exec (.pmcOverflow d blk i) s = s.onDie d (fun c => c.pmcOverflow d (blk.map (fun n => n.val)) i) := rfl

/-- The report of a wrapped counter done with. -/
def Pmc.dropWrapped (i : Nat) (p : Pmc) : Pmc := { p with wrapped := p.wrapped.filter (· != i) }

theorem Pmc.not_mem_dropWrapped (i : Nat) (p : Pmc) : i ∉ (p.dropWrapped i).wrapped := by simp [Pmc.dropWrapped]

/-- A wrapped counter shown in OVF. -/
def Chip.ovfShown (s : Chip) (d : Nat) (b : Option Nat) (i : Nat) : Chip :=
  (s.onPmc d b (Pmc.dropWrapped i)).setFld d (pmcOvfCnt b) (s.fld d (pmcOvfCnt b) ||| 2 ^ i)

/-- Source 6 pending at core n where OVF_IRQ of its counter i asks for it. -/
def Chip.ovfAsked (s : Chip) (d n i : Nat) : Chip :=
  if s.flag d (F.OBE_PMC_SEL_OVF_IRQ n i) then
    s.setFld d (F.OBE_INT_PEND_PEND n) (s.fld d (F.OBE_INT_PEND_PEND n) ||| 2 ^ 6)
  else s

/-- A bit set in a field is kept by the field's width. -/
theorem Chip.or_fld_mod (s : Chip) (d : Nat) (f : Fld) {k : Nat} (hk : k < f.width) :
    (s.fld d f ||| 2 ^ k) % 2 ^ f.width = s.fld d f ||| 2 ^ k :=
  Nat.mod_eq_of_lt (Nat.or_lt_two_pow (s.fld_lt d f) (Nat.pow_lt_pow_right (by decide) hk))

section
variable {s : Chip} {d n i : Nat} {b : Option Nat}

theorem Chip.pmcOverflow_none (h : i ∉ (s.pmcBlock d b).wrapped) : s.pmcOverflow d b i = s := by simp [Chip.pmcOverflow, h]

theorem Chip.pmcOverflow_core (h : i ∈ (s.pmcBlock d (some n)).wrapped) :
    s.pmcOverflow d (some n) i = (s.ovfShown d (some n) i).ovfAsked d n i := by
  simp only [Chip.pmcOverflow, List.contains_iff_mem.mpr h, if_true]
  rfl

theorem Chip.pmcOverflow_die (h : i ∈ (s.pmcBlock d none).wrapped) : s.pmcOverflow d none i = s.ovfShown d none i := by
  simp only [Chip.pmcOverflow, List.contains_iff_mem.mpr h, if_true]
  rfl

theorem Chip.ovfShown_only (s : Chip) (d : Nat) (b : Option Nat) (i : Nat) :
    OnlyRegs (s.onPmc d b (Pmc.dropWrapped i)) (s.ovfShown d b i) := OnlyRegs.setFld _ d _ _

theorem Chip.ovfShown_cnt (s : Chip) (d : Nat) (b : Option Nat) (hi : i < 8) :
    (s.ovfShown d b i).fld d (pmcOvfCnt b) = s.fld d (pmcOvfCnt b) ||| 2 ^ i := by
  rw [Chip.ovfShown, pmcOvfCnt_eq, Chip.fld_setFld_same _ _ _ _ (by decide : 0 + 8 ≤ 36)]
  exact s.or_fld_mod d ⟨pmcCfgReg b + 3, 0, 8⟩ hi

theorem Chip.ovfShown_regsBut (s : Chip) (d : Nat) (hb : PmcOf b) (i : Nat) :
    RegsBut (OneReg d (pmcCfgReg b + 3)) s (s.ovfShown d b i) := by
  obtain ⟨-, hhi⟩ := hb.range
  have hblock : RegsBut (OneReg d (pmcCfgReg b + 3)) s (s.onPmc d b (Pmc.dropWrapped i)) := RegsBut.of_regs rfl
  rw [Chip.ovfShown, pmcOvfCnt_eq]
  exact hblock.trans (RegsBut.setFld _ _ (by show pmcCfgReg b + 3 < 2 ^ 23; omega) ⟨rfl, rfl⟩)

theorem Chip.ovfAsked_only (s : Chip) (d n i : Nat) : OnlyRegs s (s.ovfAsked d n i) := by
  unfold Chip.ovfAsked
  split
  · exact OnlyRegs.setFld _ d _ _
  · exact OnlyRegs.refl s

theorem Chip.ovfAsked_regsBut (s : Chip) (d : Nat) (hn : n < 64) (i : Nat) :
    RegsBut (OneReg d (Reg.OBE_INT_PEND n)) s (s.ovfAsked d n i) := by
  unfold Chip.ovfAsked
  split
  · exact RegsBut.setFld _ _ (by show 0x200005 + 0x10000 * n < 2 ^ 23; omega) ⟨rfl, rfl⟩
  · exact RegsBut.refl _ s

theorem Chip.ovfAsked_pend (s : Chip) (d n i : Nat) :
    (s.ovfAsked d n i).fld d (F.OBE_INT_PEND_PEND n) = if s.flag d (F.OBE_PMC_SEL_OVF_IRQ n i) then
      s.fld d (F.OBE_INT_PEND_PEND n) ||| 2 ^ 6 else s.fld d (F.OBE_INT_PEND_PEND n) := by
  unfold Chip.ovfAsked
  split
  · exact (Chip.fld_setFld_same s d _ _ (by decide : 0 + 8 ≤ 36)).trans (s.or_fld_mod d _ (by decide : 6 < 8))
  · rfl

/-- What the report of a wrapped counter of any block leaves. -/
structure OvfReported (s c : Chip) (d : Nat) (b : Option Nat) (i : Nat) : Prop where
  cnt : c.fld d (pmcOvfCnt b) = s.fld d (pmcOvfCnt b) ||| 2 ^ i
  wrapped : i ∉ (c.pmcBlock d b).wrapped
  frame : c = { s with regs := c.regs, pmc := c.pmc }

theorem Chip.ovfShown_reported (s : Chip) (d : Nat) (b : Option Nat) (hi : i < 8) : OvfReported s (s.ovfShown d b i) d b i where
  cnt := s.ovfShown_cnt d b hi
  wrapped := by
    rw [(s.ovfShown_only d b i).pmcBlock_eq, Chip.pmcBlock_onPmc]
    exact Pmc.not_mem_dropWrapped i _
  frame := (s.ovfShown_only d b i).frame_of_onPmc

theorem OvfReported.asked {c : Chip} (h : OvfReported s c d (some n) i) (hn : n < 64) :
    OvfReported s (c.ovfAsked d n i) d (some n) i where
  cnt := ((c.ovfAsked_regsBut d hn i).fld_of_off_ne (by show 0x200103 + 0x10000 * n < 2 ^ 23; omega)
    (by show 0x200103 + 0x10000 * n ≠ 0x200005 + 0x10000 * n; omega)).trans h.cnt
  wrapped := by rw [(c.ovfAsked_only d n i).pmcBlock_eq]; exact h.wrapped
  frame := by
    have hframe := h.frame
    rw [c.ovfAsked_only d n i]
    generalize (c.ovfAsked d n i).regs = r
    rw [hframe]

theorem Chip.pmcOverflow_reported (hb : PmcOf b) (hi : i < 8) (h : i ∈ (s.pmcBlock d b).wrapped) :
    OvfReported s (s.pmcOverflow d b i) d b i := by
  cases b with
  | none => rw [Chip.pmcOverflow_die h]; exact s.ovfShown_reported d none hi
  | some n => rw [Chip.pmcOverflow_core h]; exact (s.ovfShown_reported d (some n) hi).asked (hb n rfl)

theorem Chip.pmcOverflow_pend (hn : n < 64) (hi : i < 8) (h : i ∈ (s.pmcBlock d (some n)).wrapped) :
    (s.pmcOverflow d (some n) i).fld d (F.OBE_INT_PEND_PEND n) = if s.flag d (F.OBE_PMC_SEL_OVF_IRQ n i) then
      s.fld d (F.OBE_INT_PEND_PEND n) ||| 2 ^ 6 else s.fld d (F.OBE_INT_PEND_PEND n) := by
  have hshown := s.ovfShown_regsBut d (pmcOf_some hn) i
  have hpend := hshown.fld_of_off_ne (d' := d) (f := F.OBE_INT_PEND_PEND n) (by show 0x200005 + 0x10000 * n < 2 ^ 23; omega)
    (by show 0x200005 + 0x10000 * n ≠ 0x200100 + 0x10000 * n + 3; omega)
  have hirq := hshown.flag_of_off_ne (d' := d) (f := F.OBE_PMC_SEL_OVF_IRQ n i)
    (by show 0x200110 + 0x10000 * n + 2 * i < 2 ^ 23; omega)
    (by show 0x200110 + 0x10000 * n + 2 * i ≠ 0x200100 + 0x10000 * n + 3; omega)
  rw [Chip.pmcOverflow_core h, Chip.ovfAsked_pend, hpend, hirq]
end

/-! ### OBE_PMC_USER (R642) -/

theorem exec_obePmcUserWrite (d : Die) (n : Fin 64) (v : W36) (trusted : Bool) (s : State) :
    exec (.obePmcUserWrite d n v trusted) s = s.onDie d (fun c => c.pmcUserWrite d n v trusted) := rfl

theorem Chip.pmcUserWrite_trusted (s : Chip) (d : Nat) (n : Fin 64) (v : W36) : s.pmcUserWrite d n v true =
    s.setReg d (Reg.OBE_PMC_USER n) (obePmcUserRow.writes (s.reg d (Reg.OBE_PMC_USER n)) v) :=
  Chip.plainWrite_of_findRow s d v (findRow_obePmcUser n)

theorem Chip.pmcUserWrite_refused (s : Chip) (d n : Nat) (v : W36) :
    s.pmcUserWrite d n v false = s.setFlag d (F.OBE_PMC_CFG_REFUSED n) true := rfl

theorem Chip.pmcUserWrite_trusted_spec (s : Chip) (d : Nat) (n : Fin 64) (v : W36) :
    let c := s.pmcUserWrite d n v true
    c.flag d (F.OBE_PMC_USER_READ n) = bit v 0 ∧ c.flag d (F.OBE_PMC_USER_WRITE n) = bit v 1 ∧ OnlyRegs s c ∧
      RegsBut (OneReg d (Reg.OBE_PMC_USER n)) s c := by
  rw [Chip.pmcUserWrite_trusted]
  have hfld := Chip.fld_setReg_writes (r := obePmcUserRow) (by decide) (by decide) s d (Reg.OBE_PMC_USER n) v
  simp only [obePmcUserRow, List.forall_mem_cons] at hfld
  obtain ⟨hread, hwrite, -⟩ := hfld
  exact ⟨flag_of_bits hread, flag_of_bits hwrite, OnlyRegs.setReg _ _ _ _,
    Chip.setReg_regsBut _ _ (by unfold Reg.OBE_PMC_USER; omega)⟩

theorem Chip.pmcUserWrite_refused_spec (s : Chip) (d : Nat) (n : Fin 64) (v : W36) :
    let c := s.pmcUserWrite d n v false
    c.flag d (F.OBE_PMC_CFG_REFUSED n) = true ∧ OnlyRegs s c ∧ RegsBut (OneReg d (Reg.OBE_PMC_CFG n)) s c := by
  rw [Chip.pmcUserWrite_refused]
  exact ⟨Chip.flag_setFlag_same s d _ true (by decide : 3 + 1 ≤ 36) rfl, OnlyRegs.setFlag _ _ _ _,
    RegsBut.setFlag s true (by show 0x200100 + 0x10000 * n.val < 2 ^ 23; omega) ⟨rfl, rfl⟩⟩

/-! ### REGISTER_WRITE (R10 to R13, R642) -/

theorem exec_registerWrite (d : Die) (off : BitVec 23) (v : W36) (s : State) :
    exec (.registerWrite d off v) s = s.onDie d (fun c => c.regWrite d off.toNat v false) := rfl

/-- The row of DRN_EVENT_CFG. -/
def eventCfgRow : RegRow := ⟨0x000004, [], [⟨0, 8, .rw, 0⟩, ⟨8, 3, .rw, 0⟩, ⟨11, 1, .rw, 0⟩, ⟨12, 2, .rw, 2⟩, ⟨14, 2, .rw, 2⟩]⟩

/-- The row of MIE_HALT_INFO. -/
def haltInfoRow : RegRow := ⟨0x0C0005, [], [⟨0, 32, .ro, 0⟩, ⟨32, 1, .ro, 0⟩, ⟨33, 3, .ro, 0⟩]⟩

/-- The row of MIE_STATUS. -/
def mieStatusRow : RegRow := ⟨0x0C0001, [], [⟨0, 1, .w1c, 0⟩]⟩

theorem findRow_eventCfg : findRow Reg.DRN_EVENT_CFG = some eventCfgRow := by decide +kernel
theorem findRow_haltInfo : findRow Reg.MIE_HALT_INFO = some haltInfoRow := by decide +kernel
theorem findRow_mieStatus : findRow Reg.MIE_STATUS = some mieStatusRow := by decide +kernel

section
variable (s : Chip) (d : Nat) (v : W36)

theorem Chip.regWrite_of_no_row {off : Nat} (h : findRow off = none) (trusted : Bool) : s.regWrite d off v trusted = s := by
  simp [Chip.regWrite, h]

/-- A register whose write has no meaning of its own takes what its row makes of the word. -/
theorem Chip.regWrite_of_plain {off : Nat} {r : RegRow} {trusted : Bool} (hrow : findRow off = some r)
    (h : s.regWrite d off v trusted = s.plainWrite d off v) :
    s.regWrite d off v trusted = s.setReg d off (r.writes (s.reg d off) v) :=
  h.trans (Chip.plainWrite_of_findRow s d v hrow)

theorem Chip.regWrite_eventCfg (trusted : Bool) : s.regWrite d Reg.DRN_EVENT_CFG v trusted =
    s.setReg d Reg.DRN_EVENT_CFG (eventCfgRow.writes (s.reg d Reg.DRN_EVENT_CFG) v) :=
  Chip.regWrite_of_plain s d v findRow_eventCfg (by simp only [Chip.regWrite, findRow_eventCfg]; rfl)

theorem Chip.regWrite_haltInfo (trusted : Bool) : s.regWrite d Reg.MIE_HALT_INFO v trusted =
    s.setReg d Reg.MIE_HALT_INFO (s.reg d Reg.MIE_HALT_INFO) :=
  Chip.regWrite_of_plain s d v findRow_haltInfo (by simp only [Chip.regWrite, findRow_haltInfo]; rfl)

theorem Chip.regWrite_mieStatus (trusted : Bool) : s.regWrite d Reg.MIE_STATUS v trusted =
    s.setReg d Reg.MIE_STATUS (mieStatusRow.writes (s.reg d Reg.MIE_STATUS) v) :=
  Chip.regWrite_of_plain s d v findRow_mieStatus (by simp only [Chip.regWrite, findRow_mieStatus]; rfl)

/-- A write of OBE_PMC_USER by its offset is the write of it that R642 allows or refuses. -/
theorem Chip.regWrite_obePmcUser (n : Fin 64) (trusted : Bool) :
    s.regWrite d (Reg.OBE_PMC_USER n) v trusted = s.pmcUserWrite d n v trusted := by
  have hcore : (Reg.OBE_PMC_USER n - 0x200000) / 0x10000 = n := by unfold Reg.OBE_PMC_USER; omega
  have hplace : Reg.OBE_PMC_USER n % 0x10000 = 0x101 := by unfold Reg.OBE_PMC_USER; omega
  have hrange : 0x200000 ≤ Reg.OBE_PMC_USER n := by unfold Reg.OBE_PMC_USER; omega
  have hblock : s.regWrite d (Reg.OBE_PMC_USER n) v trusted =
      s.obeWrite d ((Reg.OBE_PMC_USER n - 0x200000) / 0x10000) (Reg.OBE_PMC_USER n % 0x10000) v trusted := by
    unfold Chip.regWrite
    rw [findRow_obePmcUser n, if_neg (by simp)]
    repeat rw [if_neg (by omega)]
  rw [hblock, hcore, hplace]
  rfl

theorem Chip.setReg_self_regsBut {off : Nat} (ho : off < 2 ^ 23) : RegsBut (fun _ _ => False) s (s.setReg d off (s.reg d off)) := by
  intro d' off' ho' _
  rw [Chip.reg_setReg]
  split
  · next h =>
    obtain ⟨rfl, rfl⟩ := (regKey_inj ho' ho).mp h
    rfl
  · rfl

theorem eventCfgRow_bits (old w : W36) : bits (eventCfgRow.writes old w) 0 16 = bits w 0 16 := by
  have hcovered : ∀ i < 16, ∃ f ∈ eventCfgRow.flds, f.lo ≤ i ∧ i < f.lo + f.width := by decide
  apply Nat.eq_of_testBit_eq
  intro i
  rw [testBit_bits, testBit_bits]
  by_cases hi : i < 16
  · rw [Nat.zero_add, RegRow.writes, getLsbD_foldl_written (by omega) (by decide) (.inl (hcovered i hi))]
  · simp [hi]

theorem mieStatusRow_refused (old w : W36) : bit (mieStatusRow.writes old w) 0 = (bit old 0 && !bit w 0) :=
  RegRow.bit_writes mieStatusRow old w (by decide)

theorem Chip.regWrite_eventCfg_spec (trusted : Bool) :
    let c := s.regWrite d Reg.DRN_EVENT_CFG v trusted
    bits (c.reg d Reg.DRN_EVENT_CFG) 0 16 = bits v 0 16 ∧ OnlyRegs s c ∧ RegsBut (OneReg d Reg.DRN_EVENT_CFG) s c := by
  rw [Chip.regWrite_eventCfg]
  exact ⟨by rw [Chip.reg_setReg_same, eventCfgRow_bits], OnlyRegs.setReg _ _ _ _, Chip.setReg_regsBut _ _ (by decide)⟩

theorem Chip.regWrite_haltInfo_spec (trusted : Bool) :
    let c := s.regWrite d Reg.MIE_HALT_INFO v trusted
    OnlyRegs s c ∧ RegsBut (fun _ _ => False) s c := by
  rw [Chip.regWrite_haltInfo]
  exact ⟨OnlyRegs.setReg _ _ _ _, Chip.setReg_self_regsBut s d (by decide)⟩

theorem Chip.regWrite_mieStatus_spec (trusted : Bool) :
    let c := s.regWrite d Reg.MIE_STATUS v trusted
    c.flag d F.MIE_STATUS_REFUSED = (s.flag d F.MIE_STATUS_REFUSED && !bit v 0) ∧ OnlyRegs s c ∧
      RegsBut (OneReg d Reg.MIE_STATUS) s c := by
  rw [Chip.regWrite_mieStatus]
  refine ⟨?_, OnlyRegs.setReg _ _ _ _, Chip.setReg_regsBut _ _ (by decide)⟩
  have hflag : ∀ c : Chip, c.flag d F.MIE_STATUS_REFUSED = bit (c.reg d Reg.MIE_STATUS) 0 :=
    fun c => flag_of_bits (v := c.reg d Reg.MIE_STATUS) rfl
  rw [hflag, hflag, Chip.reg_setReg_same, mieStatusRow_refused]
end

end Sys2Proof.Machine
end

section
/-! PROOFS. The statement about performance counters. -/

namespace Sys2Proof.Machine

/-- Settles O58: each command through what its operation on a block leaves. -/
theorem performanceCounters : Obligations.PerformanceCounters := by
  refine ⟨?cfg, ?counter, ?flush, ?overflow, ?user, ?write⟩
  case cfg =>
    intro s d blk v hr b clears
    have hb : PmcOf b := pmcOf_map blk
    have heq := s.chip.pmcCfgWrite_eq d v hb
    refine ⟨fun h => ?_, fun h => ?_⟩
    · obtain ⟨hcnt, hcyc⟩ := (s.chip.pmcCfgSet d v b).pmcClear_ovf d hb
      have honly := (s.chip.pmcCfgSet d v b).pmcClear_only d b
      refine Done.of_result (exec_pmcCfgWrite d blk v s) hr (heq.trans (if_pos h))
        ⟨?_, hcnt, hcyc, ?_, ?_, honly.frame_of_onPmc⟩
      · rw [honly.pmcBlock_eq, Chip.pmcBlock_onPmc]
      · exact fun ev _ => Chip.pmcClear_invalid _ d hb ev
      · rw [Chip.pmcClear_mode _ d hb, Chip.pmcCfgSet_mode]
    · exact Done.of_result (exec_pmcCfgWrite d blk v s) hr (heq.trans (if_neg h))
        ⟨OnlyRegs.setReg _ _ _ _, Chip.pmcCfgSet_regsBut _ d v hb, Chip.pmcCfgSet_mode _ d v, Chip.pmcCfgSet_en _ d v⟩
  case counter =>
    intro s d blk i hr b x select hi value lost
    have hb : PmcOf b := pmcOf_map blk
    have hvalue : x.value select i = value := Pmc.value_eq x select i
    refine ⟨fun h => ?_, fun h => ?_, ?_, fun v h => ?_, fun v h => ?_⟩
    · refine pmcCounterRead_done hr (Chip.pmcRead_of_good h) ?_
      rw [show (s.chip.pmcBlock d b).value (s.chip.flag d (pmcMode b)) i = value from hvalue]
      exact ⟨rfl, s.chip.pmcLatch_hi d b value, s.chip.pmcLatch_regsBut d hb value, rfl⟩
    · obtain ⟨hmode, hi9, hbad⟩ := h
      obtain ⟨hgood, hword, hfast⟩ := Pmc.restarted_restart (i.val - 9) x
      obtain ⟨hinvalid, hknown, hlogged⟩ := (Chip.pmcLost_reported d.isLt hb (by omega) hbad).after hb
        (c' := { (s.chip.pmcLost d b (i.val - 9)).pmcLatch d b 0 with returned := [0] }) rfl
        (Chip.pmcLatch_regsBut _ d hb 0)
      have hblock : ({ (s.chip.pmcLost d b (i.val - 9)).pmcLatch d b 0 with returned := [0] } : Chip).pmcBlock d b =
        x.restart (i.val - 9) := Chip.pmcLost_block hbad
      refine pmcCounterRead_done hr (Chip.pmcRead_of_lost hmode hi9 hbad) ⟨rfl, hinvalid, ?_⟩
      rw [hblock]
      exact ⟨hgood, hword, hfast, hknown, hlogged⟩
    · rw [Chip.pmcRead_quiet]
      exact congrArg (fun n => (s.chip, word n)) hvalue
    · refine Done.of_result (exec_pmcCounterWrite d blk i v s) hr (Chip.pmcWrite_of_shown h v) ?_
      rw [Chip.pmcBlock_onPmc]
      exact ⟨Pmc.value_put_same h _ _, fun j hj => Pmc.value_put_other h _ _ (fun e => hj (Fin.ext e)), rfl⟩
    · exact NoEffect.of_onDie (exec_pmcCounterWrite d blk i v s) (Chip.pmcWrite_of_hidden h v)
  case flush =>
    intro s d blk ev hr b x
    have hb : PmcOf b := pmcOf_map blk
    refine ⟨fun h => ?_, fun h hgood => ?_, fun h hbad => ?_⟩
    · exact NoEffect.of_onDie (exec_pmcFlush d blk ev s) (Chip.pmcFlush_select h ev)
    · have heq := Chip.pmcFlush_every h ev
      rw [Chip.pmcLost_of_good hgood] at heq
      refine Done.of_result (exec_pmcFlush d blk ev s) hr heq ?_
      rw [Chip.pmcBlock_onPmc]
      exact ⟨Pmc.flush_fast ev _, Pmc.value_flush ev _, rfl⟩
    · obtain ⟨hgood, hword, hfast⟩ := (Pmc.restarted_restart ev.val x).flush
      obtain ⟨hinvalid, hknown, hlogged⟩ := (Chip.pmcLost_reported d.isLt hb ev.isLt hbad).after hb
        (c' := (s.chip.pmcLost d b ev).onPmc d b (Pmc.flush ev)) rfl (RegsBut.of_regs rfl)
      refine Done.of_result (exec_pmcFlush d blk ev s) hr (Chip.pmcFlush_every h ev) ?_
      rw [Chip.pmcBlock_onPmc, Chip.pmcLost_block hbad]
      exact ⟨hword, hfast, hinvalid, hgood, hknown, hlogged⟩
  case overflow =>
    intro s d blk i hr b x
    have hb : PmcOf b := pmcOf_map blk
    refine ⟨fun h => NoEffect.of_onDie (exec_pmcOverflow d blk i s) (Chip.pmcOverflow_none h), fun h => ?_⟩
    obtain ⟨hcnt, hwrapped, hframe⟩ := Chip.pmcOverflow_reported hb i.isLt h
    refine Done.of_onDie (exec_pmcOverflow d blk i s) hr ⟨hcnt, hwrapped, hframe, fun n hn => ?_⟩
    have hcore := Chip.pmcOverflow_pend (s := s.chip) (d := d) (hb n hn) i.isLt (hn ▸ h)
    rwa [← hn] at hcore
  case user =>
    intro s d n v hr
    exact ⟨Done.of_onDie (exec_obePmcUserWrite d n v true s) hr (s.chip.pmcUserWrite_trusted_spec d n v),
      Done.of_onDie (exec_obePmcUserWrite d n v false s) hr (s.chip.pmcUserWrite_refused_spec d n v)⟩
  case write =>
    intro s d off v hr
    refine ⟨fun h => ?_, fun n h => ?_, fun h => ?_, fun h => ?_, fun h => ?_⟩
    · exact NoEffect.of_onDie (exec_registerWrite d off v s) (Chip.regWrite_of_no_row _ d v h false)
    · obtain ⟨hrefused, -, hregs⟩ := s.chip.pmcUserWrite_refused_spec d n v
      refine Done.of_result (exec_registerWrite d off v s) hr (h ▸ s.chip.regWrite_obePmcUser d v n false) ⟨hrefused, ?_⟩
      rw [h]
      exact hregs d _ (h ▸ off.isLt) (fun hp => absurd hp.2 (by simp only [Reg.OBE_PMC_USER, Reg.OBE_PMC_CFG]; omega))
    · exact Done.of_onDie (exec_registerWrite d off v s) hr (h ▸ s.chip.regWrite_eventCfg_spec d v false)
    · exact Done.of_onDie (exec_registerWrite d off v s) hr (h ▸ s.chip.regWrite_haltInfo_spec d v false)
    · exact Done.of_onDie (exec_registerWrite d off v s) hr (h ▸ s.chip.regWrite_mieStatus_spec d v false)

end Sys2Proof.Machine
end
